-- ==== Sys2Proof/Word.lean ====
section
/-! DEFINITION. The words of the machine and the small closed sets of names that the encodings
and the events use (R1, R25 to R40). -/

namespace Sys2Proof

/-- A register or an instruction word. -/
abbrev Word := BitVec 32
/-- A register pair, an address or a 64-bit register. -/
abbrev DWord := BitVec 64
abbrev Byte := BitVec 8
/-- A set of lanes: bit L is lane L. -/
abbrev Lanes := BitVec 32
/-- A 6-bit register field of a wave instruction (R31). -/
abbrev Reg := BitVec 6
/-- A 4-bit register field of a traversal instruction (R37). -/
abbrev TReg := BitVec 4

/-- The switch marker S and the guard P of a wave instruction (R26, R27). -/
structure Ctl where
  s : Bool
  p : BitVec 3
  deriving DecidableEq, Repr

/-- Integer conditions of ICMP and ICMPI (Table 2-4). -/
inductive ICond where
  | eq | ne | lt | le | gt | ge | ltu | leu | gtu | geu
  deriving DecidableEq, Repr

/-- Conditions of WCMP (R80). -/
inductive WCond where
  | eq | ne | lt | ge | ltu | geu
  deriving DecidableEq, Repr

/-- Conditions of FCMP and DCMP (R103). -/
inductive FCond where
  | eq | ne | lt | le | gt | ge | un | or
  deriving DecidableEq, Repr

/-- The combine of a compare (R75). -/
inductive Cmb where
  | set | and | or | xor
  deriving DecidableEq, Repr

/-- Access sizes of the M form (R34). -/
inductive Size where
  | b | sb | h | sh | w | d | q
  deriving DecidableEq, Repr

/-- Scopes (Table 10-1). -/
inductive Scope where
  | wave | group | cluster | device | system
  deriving DecidableEq, Repr

/-- Operations of FREDUX (R124). -/
inductive RedOp where
  | add | min | max
  deriving DecidableEq, Repr

/-- Conditions of TBR (R368). -/
inductive TCond where
  | eq | ne | lt | ge | ltu | geu | flt | fge | al
  deriving DecidableEq, Repr

/-- A cause: the 10-bit code that names a trap or a fault (R8, R392). -/
abbrev Cause := BitVec 10

/-- A request of the host (R437) or of a peer (R444) to physical memory: a write of `data`, or a
read of `len` bytes. -/
structure BusReq where
  write : Bool
  addr : Nat
  data : List Byte
  len : Nat
  deriving DecidableEq, Repr

/-- A firmware image as the root service core reads it at boot (R450). -/
structure FwImage where
  kind : Nat
  body : List Byte
  digest : BitVec 512
  version : Nat
  keyIndex : Nat
  publicKey : List Byte
  signature : List Byte
  deriving DecidableEq, Repr

/-- What a peer returns for a handed-off record (R445): an entry to post, the END words when the
thread ended normally, and whether the record is over. -/
structure HandReturn where
  seq : Nat
  kind : Nat
  words : List Word
  endWords : List Word
  final : Bool
  deriving DecidableEq, Repr

/-- Requests of the driver that the root service core carries out (R180, R189, R272, R404, R412),
and the tables of the UALink port that the driver writes (R444, R445). -/
inductive DriverReq where
  /-- A timing-bounded partition: its number, clusters and ASIDs, and the ways that it receives, each the ASID, the
  cluster and the number (R180, R189). -/
  | partition (n : Nat) (clusters asids : List Nat) (ways : List (Nat × Nat × Nat))
  | route (router cls : Nat) (entry : BitVec 16)
  | allotWay (asid cluster k : Nat)
  | takeWay (cluster k : Nat)
  | features (asid : Nat) (mask : BitVec 9)
  | context (desc : List Byte)
  | dropContext (asid : Nat)
  | freeRecords (asid cons : Nat)
  | access (e base size : Nat) (peers : BitVec 8) (r w : Bool)
  | handoff (e peer asid localAsid core : Nat)
  deriving DecidableEq, Repr

end Sys2Proof
end

