-- ==== Sys2Proof/Syntax.lean ====
section
/-! DEFINITION. The instructions and steps of the machine: one constructor per row of
spec/opcode_table.json, in the order of the table. Wave instructions first, then the traversal
instructions and the steps that have no encoding, as the table lists them. -/

namespace Sys2Proof

/-- Every row of the opcode table. -/
inductive Instr where
  /-- NOP, R39. -/
  | nop (c : Ctl)
  /-- EXIT, R144. -/
  | exit (c : Ctl)
  /-- YIELD, R145. -/
  | yield (c : Ctl)
  /-- TRAP, R396. -/
  | trap (c : Ctl) (code : BitVec 12)
  /-- RDSR, R81. -/
  | rdsr (c : Ctl) (d : Reg) (idx : BitVec 12)
  /-- WRSR, R82. -/
  | wrsr (c : Ctl) (d : Reg) (idx : BitVec 12)
  /-- ERET, R398. -/
  | eret (c : Ctl) (d : Reg) (a : Reg) (b : Reg)
  /-- HALT, R394. -/
  | halt (c : Ctl) (a : Reg)
  /-- TLBW, R260. -/
  | tlbw (c : Ctl) (a : Reg) (b : Reg)
  /-- TLBI, R261. -/
  | tlbi (c : Ctl) (a : Reg) (b : Reg)
  /-- TLBSYNC, R262. -/
  | tlbsync (c : Ctl)
  /-- CACHE_L1INV, R197. -/
  | cacheL1inv (c : Ctl) (a : Reg)
  /-- CACHE_L1ALL, R197. -/
  | cacheL1all (c : Ctl)
  /-- CACHE_WB, R197. -/
  | cacheWb (c : Ctl) (a : Reg)
  /-- CACHE_WBINV, R197. -/
  | cacheWbinv (c : Ctl) (a : Reg)
  /-- CACHE_LOCK, R198. -/
  | cacheLock (c : Ctl) (a : Reg)
  /-- CACHE_UNLOCK, R198. -/
  | cacheUnlock (c : Ctl) (a : Reg)
  /-- SVCALL, R397. -/
  | svcall (c : Ctl) (d : Reg) (a : Reg) (b : Reg)
  /-- BKPT, R396. -/
  | bkpt (c : Ctl) (code : BitVec 12)
  /-- ADD, R66. -/
  | addR (c : Ctl) (d : Reg) (a : Reg) (b : Reg)
  /-- SUB, R66. -/
  | subR (c : Ctl) (d : Reg) (a : Reg) (b : Reg)
  /-- AND, R66. -/
  | andR (c : Ctl) (d : Reg) (a : Reg) (b : Reg)
  /-- OR, R66. -/
  | orR (c : Ctl) (d : Reg) (a : Reg) (b : Reg)
  /-- XOR, R66. -/
  | xorR (c : Ctl) (d : Reg) (a : Reg) (b : Reg)
  /-- ANDN, R66. -/
  | andn (c : Ctl) (d : Reg) (a : Reg) (b : Reg)
  /-- SHL, R62. -/
  | shl (c : Ctl) (d : Reg) (a : Reg) (b : Reg)
  /-- SHR, R62. -/
  | shr (c : Ctl) (d : Reg) (a : Reg) (b : Reg)
  /-- SRA, R62. -/
  | sra (c : Ctl) (d : Reg) (a : Reg) (b : Reg)
  /-- MIN, R66. -/
  | minR (c : Ctl) (d : Reg) (a : Reg) (b : Reg)
  /-- MAX, R66. -/
  | maxR (c : Ctl) (d : Reg) (a : Reg) (b : Reg)
  /-- MINU, R66. -/
  | minu (c : Ctl) (d : Reg) (a : Reg) (b : Reg)
  /-- MAXU, R66. -/
  | maxu (c : Ctl) (d : Reg) (a : Reg) (b : Reg)
  /-- MUL, R66. -/
  | mulR (c : Ctl) (d : Reg) (a : Reg) (b : Reg)
  /-- MULH, R66. -/
  | mulh (c : Ctl) (d : Reg) (a : Reg) (b : Reg)
  /-- MULHU, R66. -/
  | mulhu (c : Ctl) (d : Reg) (a : Reg) (b : Reg)
  /-- CLZ, R67. -/
  | clz (c : Ctl) (d : Reg) (a : Reg)
  /-- POPC, R67. -/
  | popc (c : Ctl) (d : Reg) (a : Reg)
  /-- BREV, R67. -/
  | brev (c : Ctl) (d : Reg) (a : Reg)
  /-- BFX, R68. -/
  | bfx (c : Ctl) (d : Reg) (a : Reg) (b : Reg)
  /-- BFXU, R68. -/
  | bfxu (c : Ctl) (d : Reg) (a : Reg) (b : Reg)
  /-- BFI, R68. -/
  | bfi (c : Ctl) (d : Reg) (a : Reg) (b : Reg)
  /-- ABSD, R69. -/
  | absd (c : Ctl) (d : Reg) (a : Reg) (b : Reg)
  /-- ADDC, R70. -/
  | addc (c : Ctl) (d : Reg) (a : Reg) (b : Reg)
  /-- SUBB, R70. -/
  | subb (c : Ctl) (d : Reg) (a : Reg) (b : Reg)
  /-- LEA, R71. -/
  | lea (c : Ctl) (d : Reg) (a : Reg) (b : Reg)
  /-- LEA_2, R71. -/
  | lea2 (c : Ctl) (d : Reg) (a : Reg) (b : Reg)
  /-- LEA_4, R71. -/
  | lea4 (c : Ctl) (d : Reg) (a : Reg) (b : Reg)
  /-- LEA_8, R71. -/
  | lea8 (c : Ctl) (d : Reg) (a : Reg) (b : Reg)
  /-- ADD64, R72. -/
  | add64 (c : Ctl) (d : Reg) (a : Reg) (b : Reg)
  /-- SUB64, R72. -/
  | sub64 (c : Ctl) (d : Reg) (a : Reg) (b : Reg)
  /-- SHL64, R72. -/
  | shl64 (c : Ctl) (d : Reg) (a : Reg) (b : Reg)
  /-- SHR64, R72. -/
  | shr64 (c : Ctl) (d : Reg) (a : Reg) (b : Reg)
  /-- SRA64, R72. -/
  | sra64 (c : Ctl) (d : Reg) (a : Reg) (b : Reg)
  /-- MUL32W, R72. -/
  | mul32w (c : Ctl) (d : Reg) (a : Reg) (b : Reg)
  /-- MINU64, R72. -/
  | minu64 (c : Ctl) (d : Reg) (a : Reg) (b : Reg)
  /-- MAXU64, R72. -/
  | maxu64 (c : Ctl) (d : Reg) (a : Reg) (b : Reg)
  /-- ADDI, R73. -/
  | addi (c : Ctl) (d : Reg) (a : Reg) (imm : BitVec 10)
  /-- ANDI, R73. -/
  | andi (c : Ctl) (d : Reg) (a : Reg) (imm : BitVec 10)
  /-- ORI, R73. -/
  | ori (c : Ctl) (d : Reg) (a : Reg) (imm : BitVec 10)
  /-- XORI, R73. -/
  | xori (c : Ctl) (d : Reg) (a : Reg) (imm : BitVec 10)
  /-- SHLI, R73. -/
  | shli (c : Ctl) (d : Reg) (a : Reg) (n : BitVec 5)
  /-- SHRI, R73. -/
  | shri (c : Ctl) (d : Reg) (a : Reg) (n : BitVec 5)
  /-- SRAI, R73. -/
  | srai (c : Ctl) (d : Reg) (a : Reg) (n : BitVec 5)
  /-- ROLI, R73. -/
  | roli (c : Ctl) (d : Reg) (a : Reg) (n : BitVec 5)
  /-- MULI, R73. -/
  | muli (c : Ctl) (d : Reg) (a : Reg) (imm : BitVec 10)
  /-- MOVI, R74. -/
  | movi (c : Ctl) (d : Reg) (imm : BitVec 16)
  /-- MOVHI, R74. -/
  | movhi (c : Ctl) (d : Reg) (imm : BitVec 16)
  /-- ICMP, R75. -/
  | icmp (c : Ctl) (pd : BitVec 3) (cond : ICond) (a : Reg) (b : Reg) (cmb : Cmb)
  /-- ICMPI, R75. -/
  | icmpi (c : Ctl) (pd : BitVec 3) (cond : ICond) (a : Reg) (imm : BitVec 6) (cmb : Cmb)
  /-- PAND, R76. -/
  | pand (c : Ctl) (pd : BitVec 3) (pa : BitVec 3) (pb : BitVec 3)
  /-- POR, R76. -/
  | por (c : Ctl) (pd : BitVec 3) (pa : BitVec 3) (pb : BitVec 3)
  /-- PXOR, R76. -/
  | pxor (c : Ctl) (pd : BitVec 3) (pa : BitVec 3) (pb : BitVec 3)
  /-- PNOT, R76. -/
  | pnot (c : Ctl) (pd : BitVec 3) (pa : BitVec 3)
  /-- P2G, R76. -/
  | p2g (c : Ctl) (d : Reg) (pa : BitVec 3)
  /-- G2P, R76. -/
  | g2p (c : Ctl) (pd : BitVec 3) (a : Reg)
  /-- SEL, R77. -/
  | sel (s : Bool) (ps : BitVec 3) (d : Reg) (a : Reg) (b : Reg)
  /-- FADD, R101. -/
  | fadd (c : Ctl) (d : Reg) (a : Reg) (b : Reg)
  /-- FSUB, R101. -/
  | fsub (c : Ctl) (d : Reg) (a : Reg) (b : Reg)
  /-- FMUL, R101. -/
  | fmul (c : Ctl) (d : Reg) (a : Reg) (b : Reg)
  /-- FMIN, R101. -/
  | fmin (c : Ctl) (d : Reg) (a : Reg) (b : Reg)
  /-- FMAX, R101. -/
  | fmax (c : Ctl) (d : Reg) (a : Reg) (b : Reg)
  /-- FABS, R101. -/
  | fabs (c : Ctl) (d : Reg) (a : Reg)
  /-- FNEG, R101. -/
  | fneg (c : Ctl) (d : Reg) (a : Reg)
  /-- FCOPYSIGN, R101. -/
  | fcopysign (c : Ctl) (d : Reg) (a : Reg) (b : Reg)
  /-- FFMA, R102. -/
  | ffma (c : Ctl) (d : Reg) (a : Reg) (b : Reg)
  /-- FFMS, R102. -/
  | ffms (c : Ctl) (d : Reg) (a : Reg) (b : Reg)
  /-- FNMA, R102. -/
  | fnma (c : Ctl) (d : Reg) (a : Reg) (b : Reg)
  /-- FNMS, R102. -/
  | fnms (c : Ctl) (d : Reg) (a : Reg) (b : Reg)
  /-- FCMP, R103. -/
  | fcmp (c : Ctl) (pd : BitVec 3) (cond : FCond) (a : Reg) (b : Reg) (cmb : Cmb)
  /-- FCVT_FF, R106. -/
  | fcvtFf (c : Ctl) (d : Reg) (a : Reg) (cv : BitVec 3) (r : BitVec 3)
  /-- FCVT_FI, R107. -/
  | fcvtFi (c : Ctl) (d : Reg) (a : Reg) (cv : BitVec 3) (r : BitVec 3)
  /-- FCVT_IF, R107. -/
  | fcvtIf (c : Ctl) (d : Reg) (a : Reg) (cv : BitVec 3) (r : BitVec 3)
  /-- FCVT_FX, R108. -/
  | fcvtFx (c : Ctl) (d : Reg) (a : Reg) (cv : BitVec 3)
  /-- FCVT_XF, R108. -/
  | fcvtXf (c : Ctl) (d : Reg) (a : Reg) (cv : BitVec 3)
  /-- FCVT_RI, R109. -/
  | fcvtRi (c : Ctl) (d : Reg) (a : Reg) (cv : BitVec 3) (r : BitVec 3)
  /-- HADD2, R110. -/
  | hadd2 (c : Ctl) (d : Reg) (a : Reg) (b : Reg)
  /-- HSUB2, R110. -/
  | hsub2 (c : Ctl) (d : Reg) (a : Reg) (b : Reg)
  /-- HMUL2, R110. -/
  | hmul2 (c : Ctl) (d : Reg) (a : Reg) (b : Reg)
  /-- HFMA2, R110. -/
  | hfma2 (c : Ctl) (d : Reg) (a : Reg) (b : Reg)
  /-- HMIN2, R110. -/
  | hmin2 (c : Ctl) (d : Reg) (a : Reg) (b : Reg)
  /-- HMAX2, R110. -/
  | hmax2 (c : Ctl) (d : Reg) (a : Reg) (b : Reg)
  /-- HADD2_BF, R110. -/
  | hadd2Bf (c : Ctl) (d : Reg) (a : Reg) (b : Reg)
  /-- HSUB2_BF, R110. -/
  | hsub2Bf (c : Ctl) (d : Reg) (a : Reg) (b : Reg)
  /-- HMUL2_BF, R110. -/
  | hmul2Bf (c : Ctl) (d : Reg) (a : Reg) (b : Reg)
  /-- HFMA2_BF, R110. -/
  | hfma2Bf (c : Ctl) (d : Reg) (a : Reg) (b : Reg)
  /-- HMIN2_BF, R110. -/
  | hmin2Bf (c : Ctl) (d : Reg) (a : Reg) (b : Reg)
  /-- HMAX2_BF, R110. -/
  | hmax2Bf (c : Ctl) (d : Reg) (a : Reg) (b : Reg)
  /-- DADD, R111. -/
  | dadd (c : Ctl) (d : Reg) (a : Reg) (b : Reg)
  /-- DSUB, R111. -/
  | dsub (c : Ctl) (d : Reg) (a : Reg) (b : Reg)
  /-- DMUL, R111. -/
  | dmul (c : Ctl) (d : Reg) (a : Reg) (b : Reg)
  /-- DFMA, R111. -/
  | dfma (c : Ctl) (d : Reg) (a : Reg) (b : Reg)
  /-- DMIN, R111. -/
  | dmin (c : Ctl) (d : Reg) (a : Reg) (b : Reg)
  /-- DMAX, R111. -/
  | dmax (c : Ctl) (d : Reg) (a : Reg) (b : Reg)
  /-- DCMP, R112. -/
  | dcmp (c : Ctl) (pd : BitVec 3) (cond : FCond) (a : Reg) (b : Reg)
  /-- RCP, R113. -/
  | rcp (c : Ctl) (d : Reg) (a : Reg)
  /-- RSQ, R113. -/
  | rsq (c : Ctl) (d : Reg) (a : Reg)
  /-- SQRT, R113. -/
  | sqrt (c : Ctl) (d : Reg) (a : Reg)
  /-- EX2, R115. -/
  | ex2 (c : Ctl) (d : Reg) (a : Reg)
  /-- LG2, R113. -/
  | lg2 (c : Ctl) (d : Reg) (a : Reg)
  /-- SIN, R113. -/
  | sin (c : Ctl) (d : Reg) (a : Reg)
  /-- COS, R113. -/
  | cos (c : Ctl) (d : Reg) (a : Reg)
  /-- TANH, R113. -/
  | tanh (c : Ctl) (d : Reg) (a : Reg)
  /-- IDOT4, R116. -/
  | idot4 (c : Ctl) (d : Reg) (a : Reg) (b : Reg)
  /-- IDOT4U, R116. -/
  | idot4u (c : Ctl) (d : Reg) (a : Reg) (b : Reg)
  /-- HDOT2, R116. -/
  | hdot2 (c : Ctl) (d : Reg) (a : Reg) (b : Reg)
  /-- BDOT2, R116. -/
  | bdot2 (c : Ctl) (d : Reg) (a : Reg) (b : Reg)
  /-- IDOT8, R116. -/
  | idot8 (c : Ctl) (d : Reg) (a : Reg) (b : Reg)
  /-- IDOT8U, R116. -/
  | idot8u (c : Ctl) (d : Reg) (a : Reg) (b : Reg)
  /-- QSWPX, R120. -/
  | qswpx (c : Ctl) (d : Reg) (a : Reg)
  /-- QSWPY, R120. -/
  | qswpy (c : Ctl) (d : Reg) (a : Reg)
  /-- QSWPD, R120. -/
  | qswpd (c : Ctl) (d : Reg) (a : Reg)
  /-- QBCAST, R120. -/
  | qbcast (c : Ctl) (d : Reg) (a : Reg) (n : BitVec 2)
  /-- SHFLI, R121. -/
  | shfli (c : Ctl) (d : Reg) (a : Reg) (b : Reg)
  /-- SHFLU, R121. -/
  | shflu (c : Ctl) (d : Reg) (a : Reg) (n : BitVec 5)
  /-- SHFLD, R121. -/
  | shfld (c : Ctl) (d : Reg) (a : Reg) (n : BitVec 5)
  /-- SHFLX, R121. -/
  | shflx (c : Ctl) (d : Reg) (a : Reg) (n : BitVec 5)
  /-- VOTEANY, R122. -/
  | voteany (c : Ctl) (pd : BitVec 3) (pa : BitVec 3)
  /-- VOTEALL, R122. -/
  | voteall (c : Ctl) (pd : BitVec 3) (pa : BitVec 3)
  /-- BALLOT, R122. -/
  | ballot (c : Ctl) (d : Reg) (pa : BitVec 3)
  /-- MATCH, R122. -/
  | matchI (c : Ctl) (d : Reg) (a : Reg)
  /-- REDUXADD, R123. -/
  | reduxadd (c : Ctl) (d : Reg) (a : Reg)
  /-- REDUXMIN, R123. -/
  | reduxmin (c : Ctl) (d : Reg) (a : Reg) (u : Bool)
  /-- REDUXMAX, R123. -/
  | reduxmax (c : Ctl) (d : Reg) (a : Reg) (u : Bool)
  /-- FREDUX, R124. -/
  | fredux (c : Ctl) (d : Reg) (a : Reg) (op : RedOp)
  /-- POPM, R122. -/
  | popm (c : Ctl) (d : Reg) (pa : BitVec 3)
  /-- SCNT, R129. -/
  | scnt (c : Ctl) (d : Reg) (st : BitVec 2)
  /-- SEND, R129. -/
  | sendS (c : Ctl) (d : Reg) (st : BitVec 2)
  /-- SREW, R129. -/
  | srew (c : Ctl) (st : BitVec 2)
  /-- SSKIP, R129. -/
  | sskip (c : Ctl) (st : BitVec 2) (n : BitVec 6)
  /-- STREAM_ELEMENT_FETCH, R130. -/
  | streamElementFetch (core : Nat) (slot : Nat) (st : Nat) (lane : Nat)
  /-- WADD, R78. -/
  | wadd (c : Ctl) (d : Reg) (a : Reg) (b : Reg)
  /-- WSUB, R78. -/
  | wsub (c : Ctl) (d : Reg) (a : Reg) (b : Reg)
  /-- WAND, R78. -/
  | wand (c : Ctl) (d : Reg) (a : Reg) (b : Reg)
  /-- WOR, R78. -/
  | wor (c : Ctl) (d : Reg) (a : Reg) (b : Reg)
  /-- WXOR, R78. -/
  | wxor (c : Ctl) (d : Reg) (a : Reg) (b : Reg)
  /-- WANDN, R78. -/
  | wandn (c : Ctl) (d : Reg) (a : Reg) (b : Reg)
  /-- WSHL, R78. -/
  | wshl (c : Ctl) (d : Reg) (a : Reg) (b : Reg)
  /-- WSHR, R78. -/
  | wshr (c : Ctl) (d : Reg) (a : Reg) (b : Reg)
  /-- WSRA, R78. -/
  | wsra (c : Ctl) (d : Reg) (a : Reg) (b : Reg)
  /-- WMIN, R78. -/
  | wmin (c : Ctl) (d : Reg) (a : Reg) (b : Reg)
  /-- WMAX, R78. -/
  | wmax (c : Ctl) (d : Reg) (a : Reg) (b : Reg)
  /-- WMINU, R78. -/
  | wminu (c : Ctl) (d : Reg) (a : Reg) (b : Reg)
  /-- WMAXU, R78. -/
  | wmaxu (c : Ctl) (d : Reg) (a : Reg) (b : Reg)
  /-- WMUL, R78. -/
  | wmul (c : Ctl) (d : Reg) (a : Reg) (b : Reg)
  /-- WMULH, R78. -/
  | wmulh (c : Ctl) (d : Reg) (a : Reg) (b : Reg)
  /-- WMULHU, R78. -/
  | wmulhu (c : Ctl) (d : Reg) (a : Reg) (b : Reg)
  /-- WADDI, R78. -/
  | waddi (c : Ctl) (d : Reg) (a : Reg) (imm : BitVec 10)
  /-- G2W, R79. -/
  | g2w (c : Ctl) (d : Reg) (a : Reg)
  /-- W2G, R79. -/
  | w2g (c : Ctl) (d : Reg) (a : Reg)
  /-- WCMP, R80. -/
  | wcmp (c : Ctl) (pd : BitVec 3) (cond : WCond) (a : Reg) (b : Reg)
  /-- WMOVI, R78. -/
  | wmovi (c : Ctl) (d : Reg) (imm : BitVec 16)
  /-- LDG, R193. -/
  | ldg (c : Ctl) (d : Reg) (a : Reg) (sz : Size) (off : BitVec 7)
  /-- STG, R193. -/
  | stg (c : Ctl) (d : Reg) (a : Reg) (sz : Size) (off : BitVec 7)
  /-- LDL, R193. -/
  | ldl (c : Ctl) (d : Reg) (a : Reg) (sz : Size) (off : BitVec 7)
  /-- STL, R193. -/
  | stl (c : Ctl) (d : Reg) (a : Reg) (sz : Size) (off : BitVec 7)
  /-- LDWG, R191. -/
  | ldwg (c : Ctl) (d : Reg) (a : Reg) (sz : Size) (off : BitVec 7)
  /-- LDWL, R191. -/
  | ldwl (c : Ctl) (d : Reg) (a : Reg) (sz : Size) (off : BitVec 7)
  /-- LDACQ, R240. -/
  | ldacq (c : Ctl) (d : Reg) (a : Reg) (dw : Bool) (sc : Scope)
  /-- STREL, R240. -/
  | strel (c : Ctl) (a : Reg) (b : Reg) (dw : Bool) (sc : Scope)
  /-- ATOM_ADD_SI32, R216. -/
  | atomAddSi32 (c : Ctl) (d : Reg) (a : Reg) (b : Reg)
  /-- ATOM_ADD_F32, R216. -/
  | atomAddF32 (c : Ctl) (d : Reg) (a : Reg) (b : Reg)
  /-- ATOM_ADD_BF16X2, R218. -/
  | atomAddBf16x2 (c : Ctl) (d : Reg) (a : Reg) (b : Reg)
  /-- ATOM_ADD_F16X2, R218. -/
  | atomAddF16x2 (c : Ctl) (d : Reg) (a : Reg) (b : Reg)
  /-- ATOM_MIN_SI32, R216. -/
  | atomMinSi32 (c : Ctl) (d : Reg) (a : Reg) (b : Reg)
  /-- ATOM_MAX_SI32, R216. -/
  | atomMaxSi32 (c : Ctl) (d : Reg) (a : Reg) (b : Reg)
  /-- ATOM_MIN_UI32, R216. -/
  | atomMinUi32 (c : Ctl) (d : Reg) (a : Reg) (b : Reg)
  /-- ATOM_MAX_UI32, R216. -/
  | atomMaxUi32 (c : Ctl) (d : Reg) (a : Reg) (b : Reg)
  /-- ATOM_MIN_F32, R216. -/
  | atomMinF32 (c : Ctl) (d : Reg) (a : Reg) (b : Reg)
  /-- ATOM_MAX_F32, R216. -/
  | atomMaxF32 (c : Ctl) (d : Reg) (a : Reg) (b : Reg)
  /-- ATOM_AND, R216. -/
  | atomAnd (c : Ctl) (d : Reg) (a : Reg) (b : Reg)
  /-- ATOM_OR, R216. -/
  | atomOr (c : Ctl) (d : Reg) (a : Reg) (b : Reg)
  /-- ATOM_XOR, R216. -/
  | atomXor (c : Ctl) (d : Reg) (a : Reg) (b : Reg)
  /-- ATOM_EXCH, R216. -/
  | atomExch (c : Ctl) (d : Reg) (a : Reg) (b : Reg)
  /-- ATOM_CAS, R216. -/
  | atomCas (c : Ctl) (d : Reg) (a : Reg) (b : Reg)
  /-- ATOM_ADD_SI64, R216. -/
  | atomAddSi64 (c : Ctl) (d : Reg) (a : Reg) (b : Reg)
  /-- ATOMA_ADD_SI32, R220. -/
  | atomaAddSi32 (c : Ctl) (d : Reg) (a : Reg) (b : Reg)
  /-- ATOMA_ADD_F32, R220. -/
  | atomaAddF32 (c : Ctl) (d : Reg) (a : Reg) (b : Reg)
  /-- ATOMA_ADD_BF16X2, R220. -/
  | atomaAddBf16x2 (c : Ctl) (d : Reg) (a : Reg) (b : Reg)
  /-- ATOMA_ADD_F16X2, R220. -/
  | atomaAddF16x2 (c : Ctl) (d : Reg) (a : Reg) (b : Reg)
  /-- ATOMA_MIN_SI32, R220. -/
  | atomaMinSi32 (c : Ctl) (d : Reg) (a : Reg) (b : Reg)
  /-- ATOMA_MAX_SI32, R220. -/
  | atomaMaxSi32 (c : Ctl) (d : Reg) (a : Reg) (b : Reg)
  /-- ATOMA_MIN_UI32, R220. -/
  | atomaMinUi32 (c : Ctl) (d : Reg) (a : Reg) (b : Reg)
  /-- ATOMA_MAX_UI32, R220. -/
  | atomaMaxUi32 (c : Ctl) (d : Reg) (a : Reg) (b : Reg)
  /-- ATOMA_MIN_F32, R220. -/
  | atomaMinF32 (c : Ctl) (d : Reg) (a : Reg) (b : Reg)
  /-- ATOMA_MAX_F32, R220. -/
  | atomaMaxF32 (c : Ctl) (d : Reg) (a : Reg) (b : Reg)
  /-- ATOMA_AND, R220. -/
  | atomaAnd (c : Ctl) (d : Reg) (a : Reg) (b : Reg)
  /-- ATOMA_OR, R220. -/
  | atomaOr (c : Ctl) (d : Reg) (a : Reg) (b : Reg)
  /-- ATOMA_XOR, R220. -/
  | atomaXor (c : Ctl) (d : Reg) (a : Reg) (b : Reg)
  /-- ATOMA_EXCH, R220. -/
  | atomaExch (c : Ctl) (d : Reg) (a : Reg) (b : Reg)
  /-- ATOMA_CAS, R220. -/
  | atomaCas (c : Ctl) (d : Reg) (a : Reg) (b : Reg)
  /-- ATOMA_ADD_SI64, R220. -/
  | atomaAddSi64 (c : Ctl) (d : Reg) (a : Reg) (b : Reg)
  /-- RED_ADD_SI32, R216. -/
  | redAddSi32 (c : Ctl) (a : Reg) (b : Reg)
  /-- RED_ADD_F32, R216. -/
  | redAddF32 (c : Ctl) (a : Reg) (b : Reg)
  /-- RED_ADD_BF16X2, R218. -/
  | redAddBf16x2 (c : Ctl) (a : Reg) (b : Reg)
  /-- RED_ADD_F16X2, R218. -/
  | redAddF16x2 (c : Ctl) (a : Reg) (b : Reg)
  /-- RED_MIN_SI32, R216. -/
  | redMinSi32 (c : Ctl) (a : Reg) (b : Reg)
  /-- RED_MAX_SI32, R216. -/
  | redMaxSi32 (c : Ctl) (a : Reg) (b : Reg)
  /-- RED_MIN_UI32, R216. -/
  | redMinUi32 (c : Ctl) (a : Reg) (b : Reg)
  /-- RED_MAX_UI32, R216. -/
  | redMaxUi32 (c : Ctl) (a : Reg) (b : Reg)
  /-- RED_MIN_F32, R216. -/
  | redMinF32 (c : Ctl) (a : Reg) (b : Reg)
  /-- RED_MAX_F32, R216. -/
  | redMaxF32 (c : Ctl) (a : Reg) (b : Reg)
  /-- RED_AND, R216. -/
  | redAnd (c : Ctl) (a : Reg) (b : Reg)
  /-- RED_OR, R216. -/
  | redOr (c : Ctl) (a : Reg) (b : Reg)
  /-- RED_XOR, R216. -/
  | redXor (c : Ctl) (a : Reg) (b : Reg)
  /-- RED_EXCH, R216. -/
  | redExch (c : Ctl) (a : Reg) (b : Reg)
  /-- RED_CAS, R216. -/
  | redCas (c : Ctl) (d : Reg) (a : Reg) (b : Reg)
  /-- RED_ADD_SI64, R216. -/
  | redAddSi64 (c : Ctl) (a : Reg) (b : Reg)
  /-- ATOML_ADD_SI32, R216. -/
  | atomlAddSi32 (c : Ctl) (d : Reg) (a : Reg) (b : Reg)
  /-- ATOML_ADD_F32, R216. -/
  | atomlAddF32 (c : Ctl) (d : Reg) (a : Reg) (b : Reg)
  /-- ATOML_ADD_BF16X2, R216. -/
  | atomlAddBf16x2 (c : Ctl) (d : Reg) (a : Reg) (b : Reg)
  /-- ATOML_ADD_F16X2, R216. -/
  | atomlAddF16x2 (c : Ctl) (d : Reg) (a : Reg) (b : Reg)
  /-- ATOML_MIN_SI32, R216. -/
  | atomlMinSi32 (c : Ctl) (d : Reg) (a : Reg) (b : Reg)
  /-- ATOML_MAX_SI32, R216. -/
  | atomlMaxSi32 (c : Ctl) (d : Reg) (a : Reg) (b : Reg)
  /-- ATOML_MIN_UI32, R216. -/
  | atomlMinUi32 (c : Ctl) (d : Reg) (a : Reg) (b : Reg)
  /-- ATOML_MAX_UI32, R216. -/
  | atomlMaxUi32 (c : Ctl) (d : Reg) (a : Reg) (b : Reg)
  /-- ATOML_MIN_F32, R216. -/
  | atomlMinF32 (c : Ctl) (d : Reg) (a : Reg) (b : Reg)
  /-- ATOML_MAX_F32, R216. -/
  | atomlMaxF32 (c : Ctl) (d : Reg) (a : Reg) (b : Reg)
  /-- ATOML_AND, R216. -/
  | atomlAnd (c : Ctl) (d : Reg) (a : Reg) (b : Reg)
  /-- ATOML_OR, R216. -/
  | atomlOr (c : Ctl) (d : Reg) (a : Reg) (b : Reg)
  /-- ATOML_XOR, R216. -/
  | atomlXor (c : Ctl) (d : Reg) (a : Reg) (b : Reg)
  /-- ATOML_EXCH, R216. -/
  | atomlExch (c : Ctl) (d : Reg) (a : Reg) (b : Reg)
  /-- ATOML_CAS, R216. -/
  | atomlCas (c : Ctl) (d : Reg) (a : Reg) (b : Reg)
  /-- SLICE_RMW, R213. -/
  | sliceRmw (core : Nat) (k : Nat)
  /-- ORED_F32, R222. -/
  | oredF32 (c : Ctl) (d : Reg) (a : Reg) (b : Reg)
  /-- ORED_BF16X2, R222. -/
  | oredBf16x2 (c : Ctl) (d : Reg) (a : Reg) (b : Reg)
  /-- ORED_F64, R222. -/
  | oredF64 (c : Ctl) (d : Reg) (a : Reg) (b : Reg)
  /-- ORE_CONTRIBUTION, R223. -/
  | oreContribution (core : Nat) (k : Nat)
  /-- ORED_REFUSAL_RETRY, R224. -/
  | oredRefusalRetry (core : Nat) (k : Nat)
  /-- FENCE_FULL, R238. -/
  | fenceFull (c : Ctl) (sc : Scope)
  /-- FENCE_ACQ, R238. -/
  | fenceAcq (c : Ctl) (sc : Scope)
  /-- FENCE_REL, R238. -/
  | fenceRel (c : Ctl) (sc : Scope)
  /-- TFENCE, R259. -/
  | tfence (c : Ctl) (sc : Scope)
  /-- CFENCE, R248. -/
  | cfence (c : Ctl) (sc : Scope)
  /-- DRAIN_CPL, R199. -/
  | drainCpl (c : Ctl)
  /-- DRAIN_CPG, R199. -/
  | drainCpg (c : Ctl)
  /-- DRAIN_SLICE, R199. -/
  | drainSlice (c : Ctl)
  /-- DRAIN_MSG, R289. -/
  | drainMsg (c : Ctl)
  /-- DRAIN_MX, R330. -/
  | drainMx (c : Ctl)
  /-- DRAIN_TRAV, R386. -/
  | drainTrav (c : Ctl)
  /-- DRAIN_WALK, R256. -/
  | drainWalk (c : Ctl)
  /-- DRAIN_ALL, R199. -/
  | drainAll (c : Ctl)
  /-- BRA, R142. -/
  | bra (c : Ctl) (off : BitVec 22)
  /-- JPT, R142. -/
  | jpt (s : Bool) (off : BitVec 22)
  /-- CALL, R142. -/
  | call (c : Ctl) (off : BitVec 22)
  /-- BRX, R143. -/
  | brx (c : Ctl) (a : Reg)
  /-- CALLX, R143. -/
  | callx (c : Ctl) (d : Reg) (a : Reg)
  /-- RET, R143. -/
  | ret (c : Ctl) (a : Reg)
  /-- BAR_SYNC, R147. -/
  | barSync (c : Ctl) (n : BitVec 4)
  /-- BAR_ARRIVE, R147. -/
  | barArrive (c : Ctl) (n : BitVec 4)
  /-- BAR_WAIT, R147. -/
  | barWait (c : Ctl) (n : BitVec 4)
  /-- BARX_EXPECT, R147. -/
  | barxExpect (c : Ctl) (n : BitVec 4) (b : Reg)
  /-- BARX_WAIT, R147. -/
  | barxWait (c : Ctl) (n : BitVec 4)
  /-- JOINW, R149. -/
  | joinw (c : Ctl) (a : Reg)
  /-- JOINW_RECHECK, R149. -/
  | joinwRecheck (core : Nat) (slot : Nat)
  /-- CP_LD, R204. -/
  | cpLd (s : Bool) (d : Reg) (b : Reg)
  /-- CP_ST, R204. -/
  | cpSt (s : Bool) (d : Reg) (b : Reg)
  /-- CP_LDZ, R204. -/
  | cpLdz (s : Bool) (d : Reg) (b : Reg)
  /-- CP_FILL, R204. -/
  | cpFill (s : Bool) (d : Reg) (b : Reg)
  /-- CP_CPY, R204. -/
  | cpCpy (s : Bool) (d : Reg) (b : Reg)
  /-- CP_SLW, R204. -/
  | cpSlw (s : Bool) (d : Reg) (b : Reg)
  /-- CP_GATHER, R204. -/
  | cpGather (s : Bool) (d : Reg) (b : Reg)
  /-- CP_SCATTER, R204. -/
  | cpScatter (s : Bool) (d : Reg) (b : Reg)
  /-- CP_STATUS, R209. -/
  | cpStatus (s : Bool) (d : Reg) (b : Reg)
  /-- COPY_COMPLETION, R207. -/
  | copyCompletion (core : Nat) (k : Nat)
  /-- MX_CTX, R321. -/
  | mxCtx (s : Bool) (d : Reg)
  /-- MX_LDA, R322. -/
  | mxLda (s : Bool) (d : Reg) (a : Reg) (b : Reg)
  /-- MX_LDB, R322. -/
  | mxLdb (s : Bool) (d : Reg) (a : Reg)
  /-- MX_MMA, R323. -/
  | mxMma (s : Bool) (d : Reg) (a : Reg) (b : Reg)
  /-- MX_MMA_R, R323. -/
  | mxMmaR (s : Bool) (d : Reg) (a : Reg) (b : Reg)
  /-- MX_MMAS, R323. -/
  | mxMmas (s : Bool) (d : Reg) (a : Reg) (b : Reg)
  /-- MX_MMAS_R, R323. -/
  | mxMmasR (s : Bool) (d : Reg) (a : Reg) (b : Reg)
  /-- MX_ZERO, R324. -/
  | mxZero (s : Bool) (d : Reg) (a : Reg)
  /-- MX_STACC, R325. -/
  | mxStacc (s : Bool) (d : Reg) (a : Reg) (b : Reg)
  /-- MX_LDACC, R324. -/
  | mxLdacc (s : Bool) (d : Reg) (a : Reg) (b : Reg)
  /-- MX_SCALE, R327. -/
  | mxScale (s : Bool) (d : Reg) (a : Reg) (b : Reg)
  /-- MX_SMAX, R328. -/
  | mxSmax (s : Bool) (d : Reg) (a : Reg) (b : Reg)
  /-- MX_SNORM, R327. -/
  | mxSnorm (s : Bool) (d : Reg) (a : Reg)
  /-- MX_FENCE, R329. -/
  | mxFence (s : Bool) (d : Reg)
  /-- MX_WAIT, R330. -/
  | mxWait (s : Bool) (d : Reg)
  /-- MX_REL, R331. -/
  | mxRel (s : Bool) (d : Reg) (a : Reg)
  /-- MXE_DISPATCH, R311. -/
  | mxeDispatch (cluster : Nat)
  /-- DL_BIND, R345. -/
  | dlBind (s : Bool) (d : Reg) (a : Reg) (b : Reg)
  /-- DL_RUN, R346. -/
  | dlRun (s : Bool) (d : Reg) (a : Reg) (b : Reg)
  /-- DL_FULL, R346. -/
  | dlFull (s : Bool) (d : Reg) (a : Reg) (b : Reg)
  /-- DL_INV, R347. -/
  | dlInv (s : Bool) (d : Reg) (b : Reg)
  /-- DL_QRY, R348. -/
  | dlQry (s : Bool) (d : Reg) (a : Reg) (b : Reg)
  /-- DL_CFG, R348. -/
  | dlCfg (s : Bool) (d : Reg) (a : Reg) (b : Reg)
  /-- DL_DROPALL, R349. -/
  | dlDropall (s : Bool) (d : Reg) (b : Reg)
  /-- TR_LAUNCH, R383. -/
  | trLaunch (s : Bool) (d : Reg) (a : Reg) (b : Reg)
  /-- TR_RESUME, R384. -/
  | trResume (s : Bool) (d : Reg) (a : Reg) (b : Reg)
  /-- TR_CQCFG, R385. -/
  | trCqcfg (s : Bool) (d : Reg) (a : Reg) (b : Reg)
  /-- TR_DTAB, R385. -/
  | trDtab (s : Bool) (d : Reg) (a : Reg) (b : Reg)
  /-- TR_PROG, R385. -/
  | trProg (s : Bool) (d : Reg) (a : Reg) (b : Reg)
  /-- PF_ARM, R210. -/
  | pfArm (s : Bool) (d : Reg) (a : Reg) (b : Reg)
  /-- PF_DISARM, R385. -/
  | pfDisarm (s : Bool) (d : Reg) (b : Reg)
  /-- MSG_SEND, R279. -/
  | msgSend (s : Bool) (d : Reg) (a : Reg) (b : Reg)
  /-- MSG_SENDL, R279. -/
  | msgSendl (s : Bool) (d : Reg) (a : Reg) (b : Reg)
  /-- MSG_MCAST, R280. -/
  | msgMcast (s : Bool) (d : Reg) (a : Reg) (b : Reg)
  /-- MSG_WAKE, R287. -/
  | msgWake (s : Bool) (d : Reg) (a : Reg) (b : Reg)
  /-- MSG_MASK, R285. -/
  | msgMask (s : Bool) (d : Reg) (b : Reg)
  /-- MSG_UNMASK, R285. -/
  | msgUnmask (s : Bool) (d : Reg) (b : Reg)
  /-- MSG_PEND, R285. -/
  | msgPend (s : Bool) (d : Reg)
  /-- MSG_HBIND, R286. -/
  | msgHbind (s : Bool) (d : Reg) (a : Reg) (b : Reg)
  /-- MESSAGE_ARRIVAL, R282. -/
  | messageArrival (k : Nat)
  /-- SEND_REPLY, R279. -/
  | sendReply (k : Nat)
  /-- SEND_RETRY, R279. -/
  | sendRetry (k : Nat)
  /-- OVERFLOW_RECORD_MOVE, R283. -/
  | overflowRecordMove (core : Nat) (asid : Nat) (cls : Nat)
  /-- WAKE_ARRIVAL, R287. -/
  | wakeArrival (k : Nat)
  /-- HANDLER_WAVE_START, R169. -/
  | handlerWaveStart (core : Nat) (gslot : Nat)
  /-- LINK_REPLAY, R273. -/
  | linkReplay (k : Nat)
  /-- CAP_NEW, R300. -/
  | capNew (s : Bool) (d : Reg) (a : Reg) (b : Reg)
  /-- CAP_FWD, R301. -/
  | capFwd (s : Bool) (d : Reg) (b : Reg)
  /-- CAP_INS, R302. -/
  | capIns (s : Bool) (d : Reg) (a : Reg) (b : Reg)
  /-- CAP_DEL, R302. -/
  | capDel (s : Bool) (d : Reg) (b : Reg)
  /-- CAP_SET, R302. -/
  | capSet (s : Bool) (d : Reg) (a : Reg) (b : Reg)
  /-- CAP_RET, R301. -/
  | capRet (s : Bool) (d : Reg) (b : Reg)
  /-- CAP_PARK, R301. -/
  | capPark (s : Bool) (d : Reg) (b : Reg)
  /-- CAP_LOAD, R303. -/
  | capLoad (s : Bool) (d : Reg) (a : Reg) (b : Reg)
  /-- CAPSULE_ARRIVAL, R296. -/
  | capsuleArrival (k : Nat)
  /-- CAPSULE_SLOT_ENTRY, R296. -/
  | capsuleSlotEntry (core : Nat) (k : Nat)
  /-- LAUNCH, R164. -/
  | launch (s : Bool) (d : Reg) (a : Reg)
  /-- FORK_L, R171. -/
  | forkL (s : Bool) (d : Reg) (a : Reg) (b : Reg)
  /-- FORK_G, R171. -/
  | forkG (s : Bool) (d : Reg) (a : Reg) (b : Reg)
  /-- ENGW, R170. -/
  | engw (s : Bool) (d : Reg) (a : Reg) (b : Reg)
  /-- ENGR, R170. -/
  | engr (s : Bool) (d : Reg) (b : Reg)
  /-- STRCFG, R126. -/
  | strcfg (s : Bool) (d : Reg) (a : Reg) (b : Reg)
  /-- PRIO, R176. -/
  | prio (s : Bool) (d : Reg) (b : Reg)
  /-- L_CLASS_RESULT_WRITE, R134. -/
  | lClassResultWrite (core : Nat) (slot : Nat) (k : Nat)
  /-- IMPLICIT_SWITCH, R133. -/
  | implicitSwitch (core : Nat) (slot : Nat)
  /-- RECONVERGENCE, R139. -/
  | reconvergence (core : Nat) (slot : Nat)
  /-- PATH_RESTORE, R141. -/
  | pathRestore (core : Nat) (slot : Nat)
  /-- AGEING_PROMOTION, R153. -/
  | ageingPromotion (core : Nat) (slot : Nat)
  /-- YIELD_RELEASE, R145. -/
  | yieldRelease (core : Nat) (slot : Nat)
  /-- WATCHDOG_EXPIRY, R156. -/
  | watchdogExpiry (asid : Nat)
  /-- HOST_LAUNCH_READ, R160. -/
  | hostLaunchRead (quad : Nat) (n : Nat)
  /-- GANG_PLACEMENT, R166. -/
  | gangPlacement (lid : Nat)
  /-- LAUNCH_COMPLETION, R162. -/
  | launchCompletion (lid : Nat)
  /-- GROUP_RESOURCE_RELEASE, R144. -/
  | groupResourceRelease (core : Nat) (gslot : Nat)
  /-- TASK_WAVE_START, R173. -/
  | taskWaveStart (core : Nat) (gslot : Nat)
  /-- DEQUE_STEAL, R174. -/
  | dequeSteal (core : Nat) (lid : Nat)
  /-- HAWKER_INTERVAL, R175. -/
  | hawkerInterval (cluster : Nat)
  /-- DEQUE_SHIPMENT_ARRIVAL, R175. -/
  | dequeShipmentArrival (k : Nat)
  /-- PREEMPTION, R177. -/
  | preemption (asid : Nat)
  /-- GANG_RESUME, R178. -/
  | gangResume (k : Nat)
  /-- GANG_SWITCH_OUT, R265. -/
  | gangSwitchOut (lid : Nat) (gang : Nat)
  /-- FAULT_REPLAY, R266. -/
  | faultReplay (core : Nat) (src : Nat) (idx : Nat)
  /-- STORE_PERFORM, R237. -/
  | storePerform (core : Nat) (k : Nat)
  /-- MERGE_WINDOW_CLOSE, R190. -/
  | mergeWindowClose (port : Nat) (line : Nat)
  /-- PREFETCH_THREAD_START, R211. -/
  | prefetchThreadStart (core : Nat) (k : Nat)
  /-- TRP_THREAD_START, R358. -/
  | trpThreadStart (core : Nat)
  /-- CQ_BATCH_FORM, R381. -/
  | cqBatchForm (core : Nat) (q : Nat)
  /-- CQ_BATCH_TIMEOUT, R381. -/
  | cqBatchTimeout (core : Nat) (q : Nat)
  /-- CQ_POST_RESUME, R380. -/
  | cqPostResume (core : Nat) (thread : Nat)
  /-- HANDOFF_ARRIVAL, R445. -/
  | handoffArrival (pkt : List Byte)
  /-- HANDOFF_RETURN, R445. -/
  | handoffReturn (ret : HandReturn)
  /-- UALINK_LINK_DOWN, R446. -/
  | ualinkLinkDown
  /-- PEER_REQUEST, R444. -/
  | peerRequest (peer : Nat) (req : BusReq)
  /-- PEER_ATOMIC_REQUEST, R443. -/
  | peerAtomicRequest (peer : Nat) (pa : Nat)
  /-- CONTEXT_TERMINATION, R405. -/
  | contextTermination (asid : Nat) (cause : Nat)
  /-- SOFT_ERROR, R407. -/
  | softError (asid : Nat)
  /-- HOST_MEMORY_REQUEST, R439. -/
  | hostMemoryRequest (req : BusReq)
  /-- DOORBELL, R440. -/
  | doorbell (quad : Nat) (n : Nat)
  /-- VERSION_SELECT, R442. -/
  | versionSelect (id : Nat) (major : Nat) (minor : Nat)
  /-- REGISTER_WRITE, R5. -/
  | registerWrite (off : Nat) (val : BitVec 64)
  /-- DROOP_READ, R452. -/
  | droopRead (cluster : Nat)
  /-- FUNCTION_LEVEL_RESET, R441. -/
  | functionLevelReset
  /-- VERTICAL_BLANK, R448. -/
  | verticalBlank (head : Nat)
  /-- POWER_MANAGER_DECISION, R453. -/
  | powerManagerDecision
  /-- THERMAL_TRIP, R454. -/
  | thermalTrip (sensor : Nat)
  /-- DEVICE_RESET, R450. -/
  | deviceReset (imgs : List FwImage)
  /-- GET_VERSION, R451. -/
  | getVersion
  /-- GET_CAPABILITIES, R451. -/
  | getCapabilities
  /-- NEGOTIATE_ALGORITHMS, R451. -/
  | negotiateAlgorithms (hash512 : Bool) (mldsa : Bool)
  /-- GET_DIGESTS, R451. -/
  | getDigests
  /-- GET_CERTIFICATE, R451. -/
  | getCertificate (slot : Nat) (off : Nat) (len : Nat)
  /-- CHALLENGE, R451. -/
  | challenge (slot : Nat) (nonce : BitVec 256)
  /-- GET_MEASUREMENTS, R451. -/
  | getMeasurements (index : Nat)
  /-- SPDM_UNSUPPORTED_REQUEST, R451. -/
  | spdmUnsupportedRequest (code : Nat)
  /-- TNOP, R366. -/
  | tnop
  /-- TADD, R367. -/
  | tadd (d : TReg) (a : TReg) (b : TReg)
  /-- TSUB, R367. -/
  | tsub (d : TReg) (a : TReg) (b : TReg)
  /-- TAND, R367. -/
  | tand (d : TReg) (a : TReg) (b : TReg)
  /-- TOR, R367. -/
  | tor (d : TReg) (a : TReg) (b : TReg)
  /-- TXOR, R367. -/
  | txor (d : TReg) (a : TReg) (b : TReg)
  /-- TSHL, R367. -/
  | tshl (d : TReg) (a : TReg) (b : TReg)
  /-- TSHR, R367. -/
  | tshr (d : TReg) (a : TReg) (b : TReg)
  /-- TSRA, R367. -/
  | tsra (d : TReg) (a : TReg) (b : TReg)
  /-- TMIN, R367. -/
  | tmin (d : TReg) (a : TReg) (b : TReg)
  /-- TMAX, R367. -/
  | tmax (d : TReg) (a : TReg) (b : TReg)
  /-- TMINU, R367. -/
  | tminu (d : TReg) (a : TReg) (b : TReg)
  /-- TMAXU, R367. -/
  | tmaxu (d : TReg) (a : TReg) (b : TReg)
  /-- TMUL, R367. -/
  | tmul (d : TReg) (a : TReg) (b : TReg)
  /-- TFADD, R367. -/
  | tfadd (d : TReg) (a : TReg) (b : TReg)
  /-- TFSUB, R367. -/
  | tfsub (d : TReg) (a : TReg) (b : TReg)
  /-- TFMUL, R367. -/
  | tfmul (d : TReg) (a : TReg) (b : TReg)
  /-- TFMIN, R367. -/
  | tfmin (d : TReg) (a : TReg) (b : TReg)
  /-- TFMAX, R367. -/
  | tfmax (d : TReg) (a : TReg) (b : TReg)
  /-- TADDI, R367. -/
  | taddi (d : TReg) (a : TReg) (imm : BitVec 14)
  /-- TANDI, R367. -/
  | tandi (d : TReg) (a : TReg) (imm : BitVec 14)
  /-- TORI, R367. -/
  | tori (d : TReg) (a : TReg) (imm : BitVec 14)
  /-- TSHLI, R367. -/
  | tshli (d : TReg) (a : TReg) (n : BitVec 5)
  /-- TSHRI, R367. -/
  | tshri (d : TReg) (a : TReg) (n : BitVec 5)
  /-- TSRAI, R367. -/
  | tsrai (d : TReg) (a : TReg) (n : BitVec 5)
  /-- TROLI, R367. -/
  | troli (d : TReg) (a : TReg) (n : BitVec 5)
  /-- TLUI, R367. -/
  | tlui (d : TReg) (imm : BitVec 22)
  /-- TBR, R368. -/
  | tbr (cond : TCond) (a : TReg) (b : TReg) (off : BitVec 14)
  /-- TRSR_RECLO, R368. -/
  | trsrReclo (d : TReg)
  /-- TRSR_RECHI, R368. -/
  | trsrRechi (d : TReg)
  /-- TRSR_TAG, R368. -/
  | trsrTag (d : TReg)
  /-- TRSR_THREAD, R368. -/
  | trsrThread (d : TReg)
  /-- NFETCH, R369. -/
  | nfetch (a : TReg) (n : BitVec 4)
  /-- NDEC, R369. -/
  | ndec (n : BitVec 4)
  /-- NGET_KIND, R369. -/
  | ngetKind (d : TReg)
  /-- NGET_CNT, R369. -/
  | ngetCnt (d : TReg)
  /-- NGET_CHILD, R369. -/
  | ngetChild (d : TReg) (k : BitVec 3)
  /-- NGET_KEYLO, R369. -/
  | ngetKeylo (d : TReg) (k : BitVec 4)
  /-- NGET_KEYHI, R369. -/
  | ngetKeyhi (d : TReg) (k : BitVec 4)
  /-- NGET_PEER, R369. -/
  | ngetPeer (d : TReg)
  /-- NGET_REMOTE, R369. -/
  | ngetRemote (d : TReg)
  /-- NGET_WORD, R369. -/
  | ngetWord (d : TReg) (n : BitVec 7)
  /-- TLD, R370. -/
  | tld (d : TReg) (a : TReg) (off : BitVec 14)
  /-- TQLD, R370. -/
  | tqld (a : TReg) (n : BitVec 3)
  /-- TPF_NC, R370. -/
  | tpfNc (a : TReg)
  /-- TPF_L1, R370. -/
  | tpfL1 (a : TReg)
  /-- TBOX, R371. -/
  | tbox (d : TReg) (a : TReg)
  /-- TTRI, R372. -/
  | ttri (d : TReg) (a : TReg) (n : BitVec 2)
  /-- TDIST_L2, R373. -/
  | tdistL2 (d : TReg) (a : TReg) (n : BitVec 3)
  /-- TDIST_DOT, R373. -/
  | tdistDot (d : TReg) (a : TReg) (n : BitVec 3)
  /-- TKEY_LT, R374. -/
  | tkeyLt (d : TReg) (a : TReg)
  /-- TKEY_LE, R374. -/
  | tkeyLe (d : TReg) (a : TReg)
  /-- TPUSH, R375. -/
  | tpush (a : TReg)
  /-- TPUSHC, R375. -/
  | tpushc (a : TReg)
  /-- TPOP, R375. -/
  | tpop (d : TReg) (off : BitVec 14)
  /-- TDEPTH, R375. -/
  | tdepth (d : TReg)
  /-- EMIT, R376. -/
  | emit (a : TReg)
  /-- END_DONE, R376. -/
  | endDone (a : TReg)
  /-- END_MISS, R376. -/
  | endMiss (a : TReg)
  /-- SUSP, R377. -/
  | susp (d : TReg) (a : TReg) (b : TReg)
  /-- THAND, R378. -/
  | thand
  /-- DECODE_TRAP, R42. -/
  | decodeTrap (w : Word)
  /-- TRAVERSAL_WORD_NOT_INSTRUCTION, R38. -/
  | traversalWordNotInstruction (w : Word)
  /-- INSTRUCTION_FETCH_FAULT, R143. -/
  | instructionFetchFault (va : BitVec 64)
  /-- RESERVING_GANG, R161. -/
  | reservingGang (lid : Nat)
  /-- DRIVER_REQUEST, R180. -/
  | driverRequest (r : DriverReq)
  /-- UALINK_LINK_UP, R442. -/
  | ualinkLinkUp (lo : Nat) (hi : Nat) (minor : Nat)
  /-- UNCORRECTABLE_ERROR, R407. -/
  | uncorrectableError (pa : Nat) (len : Nat)
  /-- DROOP_EVENT, R452. -/
  | droopEvent (cluster : Nat)
  deriving DecidableEq, Repr

end Sys2Proof
end

