-- ==== Sys2Proof/Machine/State.lean ====
section
/-! DEFINITION. The state of the device: everything the spec names, as plain data. Tables are lists of
(key, value) pairs in the canonical form of `Tab.wf`: keys strictly rising, no value equal to the
default of the table. The agenda says which agent moves next and how many cycles pass (log entries 1
and 2). -/

namespace Sys2Proof.Machine

/-- A sparse table: an absent key holds the default. -/
abbrev Tab (α : Type) := List (Nat × α)

/-- The canonical form of a table with default `d`: keys strictly rising, no default listed. -/
def Tab.wf {α : Type} [DecidableEq α] (d : α) : Tab α → Bool
  | [] => true
  | [(_, v)] => v != d
  | (k, v) :: (k', v') :: t => Nat.blt k k' && v != d && Tab.wf d ((k', v') :: t)

/-- Memory by physical address: an unlisted byte reads 0 (log entry 3). -/
abbrev Memory := List Host.Cell

/-- The canonical form of memory. -/
abbrev Memory.wf (m : Memory) : Bool := Tab.wf (0 : Byte) m

/-! ## Waves -/

/-- Atomic operations (Table 9-1). -/
inductive AtomOp where
  | addSi32 | addF32 | addBf16x2 | addF16x2 | minSi32 | maxSi32 | minUi32 | maxUi32
  | minF32 | maxF32 | and | or | xor | exch | cas | addSi64
  deriving DecidableEq, Repr

/-- One 32-bit register, predicate or flag set that an L-class result lands in (R134, R86). -/
inductive Dst where
  | g (r : Reg) (lane : Nat)
  | w (r : Reg)
  | p (r : BitVec 3) (lane : Nat)
  | fpsr
  /-- A push of a result to an element of a bound write stream, in a lane, by instruction `grp` (R127). -/
  | push (va : DWord) (sz : Size) (lane grp : Nat) (pc : DWord)
  /-- The reply register of a multicast, and the mask of refused clusters that ms0 and ms1 take with it (R280). -/
  | mcast (r : Reg) (mask : BitVec 80)
  deriving DecidableEq, Repr

/-- The part of a loaded value that one register takes (Table 8-3): the size of the load and the
number of the 32-bit word. -/
structure Part where
  sz : Size
  word : Nat
  deriving DecidableEq, Repr

/-- Where the value of an outstanding L-class result comes from. -/
inductive Src where
  /-- The value is known. -/
  | val (v : Word)
  /-- A load of `len` bytes not yet read, by instruction `grp`. `how` is the CACHE attribute of its
  translation, 3 for a read made at the home bank after the earlier writes of its core (R237), 4 for a
  walk-path read (R256), 5 for group-local memory. -/
  | mem (grp : Nat) (va pc : DWord) (pa len how : Nat) (part : Part)
  /-- The old value that RMW entry `id` of the store queue returns to a lane. -/
  | rmw (grp id lane word : Nat)
  /-- The two halves of a packed 16-bit atomic: RMW entries `lo` and `hi`, and what has returned. -/
  | halves (grp lo hi lane : Nat) (gotLo gotHi : Option (BitVec 16))
  /-- The access of instruction `grp` to a VA is held on a fault record (R266). -/
  | held (grp : Nat) (va : DWord) (part : Part)
  /-- The reply of command `id` of an engine, or of the service core (id 0). -/
  | reply (id : Nat)
  deriving DecidableEq, Repr

/-- An outstanding L-class result (R134): the path and the word of the instruction that issued it. -/
structure Pend where
  dst : Dst
  src : Src
  path : Nat
  word : Word
  deriving DecidableEq, Repr

/-- A path table entry (Table 6-2). `made` is the order of creation; `spill` is the order of the
spill of a spilled entry. -/
structure Path where
  pc : DWord
  join : DWord
  mask : Lanes
  reconv : Bool := false
  waiting : Bool := false
  demoted : Bool := false
  changed : Bool := false
  spins : Nat := 0
  armed : Bool := false
  armPc : DWord := 0
  loopb : DWord := 0
  made : Nat
  spill : Option Nat := none
  deriving DecidableEq, Repr

/-- A bound stream: the latched descriptors, POS and the elements fetched and not yet popped; element (L, i) has key
32 i + L (R125 to R130). -/
structure Stream where
  base : DWord
  lstride : BitVec 32
  estride : BitVec 32
  count : Nat
  size : Size
  push : Bool
  pos : Nat
  buf : List (Nat × Word)
  deriving DecidableEq, Repr

/-- How a wave was started (R18, R21, R173, R393). -/
inductive WKind where
  | launched
  | task (join : DWord) (launch : Nat)
  | handler
  | firmware
  deriving DecidableEq, Repr

/-- A message to the service core that a wave waits on (R395, R95, R402): the mailbox kind, the cause,
the sequence, the destination of the value of an SVCALL and its lanes, and the PC. -/
structure Waiting where
  kind : Nat
  cause : Cause
  seq : BitVec 16
  dst : Reg
  lanes : Lanes
  pc : DWord
  deriving DecidableEq, Repr

/-- A trap taken at issue, before its message is sent (R395): the mailbox kind, the cause, the two
extra words of Table 17-3, the lanes, and the destination of an SVCALL. -/
structure Trap where
  cause : Cause
  x : Word := 0
  y : Word := 0
  kind : Nat := 0
  dst : Reg := 0
  deriving DecidableEq, Repr

/-- What a wave is doing (R152). -/
inductive WStat where
  /-- May issue. -/
  | run
  /-- At a switch point, until every L-class result is written (R132) and every record replayed (R264). -/
  | switch
  /-- Waits for the completion of a phase of a barrier (R147). -/
  | barrier (n phase : Nat)
  /-- Waits for a pending-byte counter to be zero (R147). -/
  | bytes (n : Nat)
  /-- JOINW at a PC waits on the counter at a VA, named by a lane (R149). -/
  | join (va : DWord) (lane : Nat) (pc : DWord)
  /-- DRAIN or a fence waits for copies, commands, packets and accesses in flight, by id (R199, R238);
  then the wave is at a switch point if S was 1. `path` is that of a DRAIN, and 8 for a fence. -/
  | drain (ids : List Nat) (sw : Bool) (path : Nat)
  /-- TLBSYNC waits for fault records, as (core, source, index) triples (R262). -/
  | tlbsync (recs : List (Nat × Nat × Nat))
  /-- An instruction waits at issue until the wave's faulted accesses are replayed (R127, R264). -/
  | stall
  /-- HALT waits for a mailbox entry of a kind in the mask (R394). -/
  | halt (mask : BitVec 5)
  /-- A trap waits for the outstanding L-class results (R395). -/
  | trapping (t : Trap) (lanes : Lanes) (pc : DWord)
  /-- Parked on a message to the service core (R395, R95). -/
  | trapped (m : Waiting)
  /-- Frozen by a violation (R402). -/
  | frozen (m : Waiting)
  /-- Held back after YIELD until a time, or until the listed slots have been offered an issue (R145). -/
  | yielded (until_ : Nat) (offer : List Nat)
  /-- Ready again at a time (R398). -/
  | resume (time : Nat)
  /-- No lane is live; results and held accesses are still outstanding (R144). -/
  | ended
  deriving DecidableEq, Repr

/-- An enabled floating-point exception (R95), in the order raised. -/
structure FpExc where
  cause : Cause
  lcls : Bool
  more : Bool
  lanes : Lanes
  pc : DWord
  deriving DecidableEq, Repr

/-- What one lane's access does (R263, R266). `needs` names the instructions whose accesses must be
performed before it. -/
inductive AccKind where
  /-- A load; `bank` says that it is made at the home bank (R240). -/
  | load (len : Nat) (bank : Bool)
  | store (bytes : List Byte) (needs : List Nat)
  | rmw (op : AtomOp) (b cmp : DWord) (ret : Bool) (needs : List Nat)
  | ored (kind index : Nat) (v : DWord)
  /-- Element (L, i) of a bound read stream, as 32 i + L. -/
  | element (stream n : Nat)
  | fetch
  | cache (op : Nat)
  /-- A half of a packed atomic that was not performed (R196, R218): `hi` for the upper one; the store-queue entry whose
  results it returns. -/
  | half (op : AtomOp) (hi : Bool) (b : DWord) (ret : Bool) (entry : Nat)
  | joinw
  /-- An access that an engine or a command makes, by the id of the command. -/
  | cmd (id : Nat)
  deriving DecidableEq, Repr

/-- One access of one lane by instruction `grp`. -/
structure Acc where
  grp : Nat
  lane : Nat
  va : DWord
  pc : DWord
  kind : AccKind
  /-- The word of the instruction (Table 17-3). -/
  word : Word := 0
  /-- What the access must follow if it names a window of the host or of a peer (R233). -/
  far : List Nat := []
  deriving DecidableEq, Repr

/-- A wave (R18, R22, R137, R159). -/
structure Wave where
  core : Nat
  slot : Nat
  gslot : Nat
  idx : Nat
  kind : WKind
  g : Tab Word := []
  w : Tab Word := []
  p : Tab Bool := []
  live : Lanes
  helper : Lanes
  paths : List Path
  /-- The `made` of the current path. -/
  cur : Nat := 0
  /-- The next `made`, and the next order of a spill. -/
  made : Nat := 1
  fpcr : Word
  fpsr : Word := 0
  astat : Word := 0
  prio : BitVec 2
  cd : Tab DWord := []
  sd : Tab DWord := []
  ms0 : DWord := 0
  ms1 : DWord := 0
  fjoin : DWord := 0
  streams : List (Nat × Stream) := []
  pend : List Pend := []
  /-- Registers that L-class instructions of the run are to write (R136). -/
  haz : List Dst := []
  /-- Instructions issued in the current run (R133). -/
  count : Nat := 0
  stat : WStat := .run
  age : Nat := 0
  promoted : Option Nat := none
  /-- Phase of the last arrival at each barrier, plus one; 0 is none (R147). -/
  arrived : Tab Nat := []
  excs : List FpExc := []
  /-- The word that issues, and the cause of the decode check that it fails, if it fails one (R42). -/
  word : Word := 0
  bad : Option Cause := none
  /-- Accesses held behind an unreplayed access to their page, or for want of a record (R263, R264). -/
  behind : List Acc := []
  /-- Ids that later writes of the wave must follow: the release fence (R238). -/
  after : List Nat := []
  /-- Instructions of other groups of the core whose stores the wave has read before they were performed (R235). -/
  seen : List Nat := []
  /-- Accesses of LDACQ and ATOMA that are not complete: later accesses of the wave follow them; the
  flag says that the L1 is invalidated then (R220, R240). -/
  acq : List (Nat × Bool) := []
  /-- What the wave does after a violation or a resumption (R402). -/
  prev : WStat := .run
  /-- Tells the wave from the others that have its slot before and after it (R243, R306). -/
  born : Nat := 0
  /-- Registers that an uncorrectable error has poisoned (R407). -/
  poison : List Dst := []
  deriving DecidableEq, Repr

/-! ## Groups, launches, contexts -/

/-- A barrier of a group (R146); the arrivals are the slots of the waves that arrived. -/
structure Barrier where
  phase : Nat := 0
  arrivals : List Nat := []
  bytes : Int := 0
  deriving DecidableEq, Repr

/-- A capsule-window slot's kept fields (R295): the owner is a wave slot, or none while the capsule waits. -/
structure CSlot where
  id : BitVec 64
  origin : Nat
  asid : Nat
  flags : BitVec 16
  index : Nat
  count : Nat
  len : Nat
  cls : Nat
  seq : Nat
  owner : Option Nat
  /-- The packet or the command that reads the capsule out (R301). -/
  out : Option Nat := none
  deriving DecidableEq, Repr

/-- A resident group or handler group (R18, R165, R167). -/
structure Group where
  core : Nat
  gslot : Nat
  lid : Nat
  asid : Nat
  /-- The handler-group declaration, of a handler group. -/
  hgd : Option Nat
  /-- Linear index within the launch (R157). -/
  index : Nat
  gang : Nat
  waves : Nat
  taskw : Nat
  blocks : Nat
  bars : Nat
  localkb : Nat
  cslots : Nat
  fpcr : Word
  prio : BitVec 2
  /-- The wave slots reserved, by %wave (R165). -/
  slots : List Nat
  loc : Memory := []
  barriers : Tab Barrier := []
  caps : Tab (Option CSlot) := []
  missing : Nat := 0
  checked : Bool
  part : Nat
  /-- The launched waves have ended (R144). -/
  ended : Bool := false
  /-- What the group issues has a number that is not below this: it tells the group from those that had its slot before
  (R399, R401). -/
  gid : Nat := 0
  deriving DecidableEq, Repr

/-- A launch record, read (Table 7-1, Table 7-2). -/
structure Hgd where
  bindv : DWord
  nbind : Nat
  hwaves : Nat
  blocks : Nat
  bars : Nat
  localkb : Nat
  cslots : Nat
  wide : Bool
  dslots : Nat
  fpcr : Word
  /-- Binding entries: PC, class, priority, enable. -/
  binds : List (DWord × Nat × BitVec 2 × Bool)
  deriving DecidableEq, Repr

structure LRec where
  entry : DWord
  args : DWord
  gx : Nat
  gy : Nat
  gz : Nat
  gang : Nat
  waves : Nat
  taskw : Nat
  blocks : Nat
  bars : Nat
  localkb : Nat
  cslots : Nat
  prio : BitVec 2
  dslots : Nat
  fpcr : Word
  age : Nat
  wdog : Nat
  part : Nat
  asid : Nat
  checked : Bool
  serial : Bool
  lvl : Nat
  done : DWord
  hgds : List Hgd
  deriving DecidableEq, Repr

/-- A launch accepted and not complete (R161, R162). `queue` is 256 + context slot for a device-side
launch, and 64 * quadrant + number for a host queue. -/
structure Launch where
  lid : Nat
  recd : LRec
  queue : Nat
  accepted : Nat
  /-- The next gang to start, and the time since when it waits (R161). -/
  next : Nat := 0
  since : Nat
  /-- The core that issued it, and the instructions there that come before its start (R164). -/
  src : Nat := 0
  needs : List Nat := []
  /-- The core after which the search starts (R166). -/
  lastCore : Option Nat := none
  /-- Cores that hold a handler group of the launch, with the declaration and the group slot. -/
  hgroups : List (Nat × Nat × Nat) := []
  /-- The next gang has waited 2^20 cycles, and the groups whose resources have been freed since (R161). -/
  reserving : Bool := false
  freed : List Group := []
  /-- The launch before it in its queue (R161). -/
  prior : Nat := 0
  deriving DecidableEq, Repr

/-- A context: its descriptor (Table 17-8) and its run state. -/
structure Ctx where
  asid : Nat
  slot : Nat
  flags : Byte := 0
  root : Nat := 0
  movbase : Nat := 0
  ovkb : Nat := 16
  covkb : Nat := 64
  covbase : Nat := 0
  reuse : Nat := 0
  afqbase : DWord := 0
  afqlog : Nat := 6
  lost : Nat := 0
  prod : Nat := 0
  cons : Nat := 0
  save : Nat := 0
  sstride : Nat := 0
  deque : Nat := 0
  /-- The enabled features (R412). -/
  feat : BitVec 9 := 0x1FF
  /-- Pre-empted (R177), or stopped for termination (R405). -/
  out : Bool := false
  killed : Option Cause := none
  /-- Cycles counted by the watchdog (R155). -/
  wdog : Nat := 0
  recSeq : Nat := 0
  /-- A master of the context has consumed poisoned bytes (R407). -/
  soft : Bool := false
  deriving DecidableEq, Repr

/-- An ERET that came while its wave was switched out (R408): the issuing service core, the wave, the
action and the value. -/
structure Eret where
  by_ : Nat
  core : Nat
  slot : Nat
  action : Nat
  value : Word
  deriving DecidableEq, Repr

/-! ## Translation -/

/-- A TLB entry (Table 11-1). -/
structure TlbE where
  r : Bool
  w : Bool
  x : Bool
  a : Bool
  d : Bool
  g : Bool
  mig : Bool
  watch : Bool
  lock : Bool
  size : Nat
  cache : Nat
  asid : Nat
  vpn : Nat
  pfn : Nat
  deriving DecidableEq, Repr

/-- A removal that a TLBI has asked for (R261), in one translation cache of a cluster: `acted` when the cache has made it.
`ranges` are the watched ranges whose entries the TLBI has removed so far. -/
structure Tlbi where
  id : Nat
  by_ : Nat
  cluster : Nat
  /-- The cache: 0 is the cluster L2 TLB; 1 to 5 and 6 to 9 are those kept with the even and the odd core. -/
  unit_ : Nat := 0
  asid : Nat
  kind : Nat
  va : DWord
  acted : Bool := false
  ranges : List (Nat × Nat) := []
  deriving DecidableEq, Repr

/-- A fault record (R263, R402, Table 17-7). Source 0 is the load-store and fetch unit, 1 the copy
engine, 2 the TRP, 3 the MXE. A frozen record holds violating lanes. -/
structure FRec where
  src : Nat
  idx : Nat
  /-- The core of the master; a service core's records lie with core 0 of its cluster (log entry 17). -/
  core : Nat
  kind : Nat
  access : Nat
  asid : Nat
  gslot : Nat
  slot : Nat
  pc : DWord
  accs : List Acc
  missing : Bool := false
  frozen : Bool := false
  /-- The cause of a frozen record, and whether the message of the wave has been sent (R402). -/
  cause : Cause := 0
  told : Bool := false
  /-- The TLBW has come and the replay is due (R266). -/
  ready : Bool := false
  posted : Nat
  /-- TLBIs that have reached the cluster since the message was posted (R260). -/
  tlbis : List Tlbi := []
  /-- A TLBW FAIL that came while the master was switched out (R260, R265). -/
  fail : Option Cause := none
  deriving DecidableEq, Repr

/-! ## Memory system -/

/-- What an entry of a core's store queue does at the home bank (R213, R223, R233). An RMW lists its
lanes in ascending order with their operands; `half` selects a half of a packed form. -/
inductive SKind where
  | store (bytes : List Byte)
  | rmw (op : AtomOp) (half : Option Bool) (lanes : List (Nat × DWord × DWord)) (ret : Bool)
  | ored (kind index : Nat) (v : DWord) (refused : Bool)
  | cache (inval : Bool)
  deriving DecidableEq, Repr

structure SQ where
  id : Nat
  /-- The instruction: for the merging of R219 and for what must be performed before what. -/
  grp : Nat
  lane : Nat
  pc : DWord
  slot : Nat
  gslot : Nat
  asid : Nat
  pa : Nat
  kind : SKind
  /-- Instructions whose accesses must be performed before this one (R238, R240). -/
  needs : List Nat
  /-- The VA named, and the word of the instruction, for reports. -/
  va : DWord
  word : Word := 0
  deriving DecidableEq, Repr

/-- A line tag of an L2 slice (R188). -/
structure Tag where
  line : Nat
  valid : BitVec 8
  dirty : BitVec 8
  deriving DecidableEq, Repr

/-- A merge window of a memory port (R190). -/
structure Window where
  port : Nat
  line : Nat
  opened : Nat
  sectors : BitVec 8
  deriving DecidableEq, Repr

/-- An ordered-reduction object that a bank holds active (R224), with the first contribution. -/
structure OreObj where
  pa : Nat
  asid : Nat
  va : DWord
  deriving DecidableEq, Repr

/-- A held early contribution (R224). -/
structure OreHeld where
  pa : Nat
  index : Nat
  v : DWord
  asid : Nat
  va : DWord
  core : Nat
  deriving DecidableEq, Repr

/-! ## Copies, tasks, messages, capsules -/

/-- An element of a copy under way: its number, the bytes of it that have been read, and how many of them have been
written (R206). -/
structure CopyElem where
  j : Nat
  bytes : List Byte := []
  done : Nat := 0
  deriving DecidableEq, Repr

/-- A copy in flight (R203): the packet, the group's index, and what remains. `moved` lists the
elements already moved when they were moved out of order; `next` is the first not moved. -/
structure Copy where
  id : Nat
  fn : Nat
  ctl : Byte
  gslot : Nat
  slot : Nat
  asid : Nat
  cd : List DWord
  geo : Byte
  bytes : Nat
  next : Nat := 0
  moved : List Nat := []
  /-- Held on a fault record of the copy engine. -/
  held : Bool := false
  /-- Lines of the index array that have been read (R206). -/
  lines : List (Nat × List Byte) := []
  /-- Elements that have been read in part or whole and not yet written whole (R206). -/
  parts : List CopyElem := []
  pc : DWord
  lid : Nat
  needs : List Nat
  deriving DecidableEq, Repr

/-- A deque entry (Table 7-7). -/
structure Task where
  pc : DWord
  join : DWord
  mask : Lanes
  glob : Bool
  gslot : Nat
  wblk : List Word
  lid : Nat
  asid : Nat
  /-- The core that forked it, and the instructions there that come before its start (R171). -/
  src : Nat
  needs : List Nat
  /-- The entry that it has in the deque area of its core (R172). -/
  place : Nat := 0
  deriving DecidableEq, Repr

/-- A handler table entry (Table 12-3). PEND is computed from the queues. -/
structure HEntry where
  pc : DWord
  hgroup : Nat
  prio : BitVec 2
  en : Bool
  deriving DecidableEq, Repr

/-- A message as a queue holds it: header fields of Table 12-1, the payload, and the arrival order. -/
structure Msg where
  asid : Nat
  cls : Nat
  src : Nat
  slot : Nat
  long : Bool
  /-- A multicast copy, and a weak send (R271). -/
  mcast : Bool
  wk : Bool
  payload : List Byte
  seq : Nat
  /-- The order of arrival at its core. -/
  arr : Nat := 0
  deriving DecidableEq, Repr

/-- A capsule on its way or waiting: the image's fields, the tile, and the fields of its packet header (Table 12-1): the
previous hop, the class, the sequence, the wave slot, the virtual channel and WK. -/
structure Caps where
  asid : Nat
  id : BitVec 64
  flags : BitVec 16
  index : Nat
  count : Nat
  len : Nat
  origin : Nat
  park : DWord
  user : List Byte
  stops : List DWord
  tile : List Byte
  crc : Word
  magic : BitVec 16
  major : Nat
  cls : Nat
  prev : Nat
  seq : Nat
  wslot : Nat := 0
  vc : Nat := 0
  wk : Bool := false
  deriving DecidableEq, Repr

/-- What a packet of the message network carries (Table 12-1). -/
inductive PBody where
  | msg (m : Msg) (cmd : Nat)
  | wake (gslot bar off : Nat) (bytes : List Byte) (cmd : Nat) (lid gang : Nat) (handler : Bool)
  | caps (c : Caps) (any : Bool)
  | mail (kind : Nat) (srcCore slot asid : Nat) (body : List Byte)
  | ship (tasks : List Task)
  | reply (cmd : Nat) (v : Nat) (core : Nat)
  deriving DecidableEq, Repr

structure Packet where
  id : Nat
  dest : Nat
  src : Nat
  slot : Nat
  asid : Nat
  cls : Nat
  vc : Nat := 0
  seq : Nat
  body : PBody
  /-- Store-queue entries of the sending core that the injection waits for (R243). -/
  needs : List Nat
  /-- Times the link replayed it (R273). -/
  replays : Nat := 0
  /-- Earliest time of injection, and whether a refused packet waits to be sent again (R279). -/
  notBefore : Nat := 0
  hold : Bool := false
  /-- A payload still in group-local memory: the group slot, the offset and the length (R279). -/
  pull : Option (Nat × Nat × Nat) := none
  /-- A weak send (Table 12-1), and the wave that sent it (R243, R306). -/
  wk : Bool := false
  born : Nat := 0
  deriving DecidableEq, Repr

/-- A send waiting for its reply (R279, R280). -/
structure Send where
  cmd : Nat
  core : Nat
  slot : Nat
  gslot : Nat
  dst : Reg
  retry : Bool
  mcast : Bool
  left : Nat
  worst : Nat
  refused : List Nat
  asid : Nat
  pc : DWord
  lid : Nat
  deriving DecidableEq, Repr

/-- An entry of a service core's mailbox (Table 17-2). -/
structure Mail where
  kind : Nat
  core : Nat
  slot : Nat
  asid : Nat
  body : List Byte
  deriving DecidableEq, Repr

/-- A record of a ring in device memory that a router interface keeps (R283, R297): its place, and the
message or the capsule that it holds; a dead record starts nothing, and a skip record holds neither. -/
structure RingRec where
  off : Nat
  len : Nat
  msg : Option Msg
  caps : Option Caps
  dead : Bool
  deriving DecidableEq, Repr

/-- A capsule being parked that waits for the fault record `idx` of its core's load-store unit (R304).
`cmd` is the CAP.PARK command that waits for it, and `slot` the group slot of the capsule-window slot that it keeps and
what names it there (R304). -/
structure Parking where
  idx : Nat
  caps : Caps
  cause : Cause
  fault : Bool
  cmd : Option Nat
  slot : Option (Nat × Nat) := none
  deriving DecidableEq, Repr

/-! ## Traversal processor -/

/-- What a traversal thread runs for (R357, R445). -/
inductive ThKind where
  | record
  | prefetch
  /-- Handed off by a peer: the hand-off sequence and the peer. -/
  | handed (seq peer : Nat)
  deriving DecidableEq, Repr

/-- A completion entry to post: kind, result words, and what the thread does after it. -/
structure Post where
  kind : Nat
  words : List Word
  ends : Bool
  deriving DecidableEq, Repr

/-- What a thread does when its access is replayed, with the operands that its instruction had: the instruction is not
executed again (R266, R387, R403). -/
inductive THold where
  /-- NFETCH under a table; TLD; TQLD; TDIST. -/
  | node (va : DWord) (bits : BitVec 256) (id : Nat)
  | word (d : TReg) (va : DWord)
  | chunk (n : Nat) (va : DWord)
  | dist (dot : Bool) (d : TReg) (n : Nat) (va : DWord)
  /-- A spill: the stack with the values pushed, and whether the limit stopped the push; a refill: the value popped. -/
  | push (stack : List DWord) (more : Bool)
  | refill (d : TReg) (x : DWord)
  /-- END; SUSP; THAND. -/
  | done (kind : Nat) (ws : List Word)
  | susp (sdr : Nat) (ws : List Word)
  | hand (peer : Nat) (root : DWord)
  /-- The end with a cause (R388); `posts` is false when the entry of the thread is what cannot be written. -/
  | fault (cause : Cause) (frozen : Bool) (va : DWord) (posts : Bool)
  /-- The start of a thread: the record; STATUS of a record that is resumed; its extension; its node (R361, R384). -/
  | start
  | status (x : Word)
  | ext (x : Option Word)
  | renode (x : Option Word) (e : List Byte)
  /-- CONS of a repacking queue (R381). -/
  | cons (va : DWord) (v : Nat)
  deriving DecidableEq, Repr

inductive ThStat where
  | ready
  /-- Waits for the replay of its fault record (R387). -/
  | held (h : THold)
  /-- Waits for room in its completion queue (R380). -/
  | posting (p : Post)
  deriving DecidableEq, Repr

/-- The node buffer: the bytes, the VA and the table that decoded them (R369). -/
structure Node where
  va : DWord
  bytes : List Byte
  tab : BitVec 256
  id : Nat
  deriving DecidableEq, Repr

/-- A record that waits for a free thread (R383), or to be re-entered (R384). -/
structure TReq where
  va : DWord
  asid : Nat
  gslot : Nat
  slot : Nat
  lid : Nat
  cmd : Nat
  queue : Option Nat
  resume : Option Word
  /-- Handed off (R445): the packet, the peer, and the sequence. -/
  hand : Option (List Byte × Nat × Nat)
  needs : List Nat
  /-- A thread that a pre-emption saved into its extension (R389), or a resumption that has made STATUS 0 (R384), and the
  words that it runs under (R385). -/
  cont : Bool := false
  began : Bool := false
  words : List Word := []
  deriving DecidableEq, Repr

/-- A traversal thread (R358). The stack is listed top first; `spilled` entries of its bottom lie in
the extension. -/
structure Thread where
  num : Nat
  kind : ThKind
  core : Nat
  asid : Nat
  gslot : Nat
  lid : Nat
  cmd : Nat
  rva : DWord
  t : Tab Word
  pc : Nat
  words : List Word
  stack : List DWord := []
  spilled : Nat := 0
  node : Option Node := none
  chunks : Tab (List Byte) := []
  payload : DWord
  tag : BitVec 24
  cq : Nat
  ext : Nat
  dtab : Nat
  prog : Nat
  seq : Nat := 0
  slot : Nat := 0
  stat : ThStat := .ready
  /-- The request of a thread whose start waits for a fault record. -/
  start : Option TReq := none
  /-- The word that issues, and the cause of the check that it fails, if it fails one (R38). -/
  word : Word := 0
  bad : Option Cause := none
  deriving DecidableEq, Repr

/-- A completion queue (R379). `waiting` lists the unbatched entries with their posting times. -/
structure CQ where
  num : Nat
  asid : Nat
  base : DWord
  logn : Nat
  mode : Nat
  cls : Nat
  desc : DWord
  prod : Nat
  cons : Nat
  waiting : List (Nat × List Word) := []
  deriving DecidableEq, Repr

/-- A batch that waits for a handler wave (R381). -/
structure Batch where
  queue : Nat
  asid : Nat
  cls : Nat
  n : Nat
  timeout : Bool
  entries : List (List Word)
  seq : Nat
  deriving DecidableEq, Repr

/-- An armed prefetch kernel (R210). -/
structure Arm where
  num : Nat
  asid : Nat
  gslot : Nat
  lo : DWord
  hi : DWord
  prog : Nat
  user : Word
  target : DWord
  deriving DecidableEq, Repr

/-- A trigger: an L1 fill within an armed range (R211). -/
structure Trigger where
  arm : Arm
  va : DWord
  words : List Word
  deriving DecidableEq, Repr

/-- A loaded traversal program (R385). -/
structure Prog where
  asid : Nat
  index : Nat
  words : List Word
  deriving DecidableEq, Repr

/-- A loaded decode table (R364). -/
structure DTab where
  asid : Nat
  id : Nat
  bits : BitVec 256
  deriving DecidableEq, Repr

/-- A traversal processor (R357). -/
structure Trp where
  threads : List Thread := []
  queue : List TReq := []
  tables : List DTab := []
  progs : List Prog := []
  arms : List Arm := []
  triggers : List Trigger := []
  last : Nat := 63
  deriving DecidableEq, Repr

/-! ## Matrix engine and delta reuse -/

/-- A packet of an MXE inbox (R318). `fn` is FN7, 0x7F for an mc write, and 0x80 + FN7 for a DELTA
command. `done` is 0 until an ordered command has started, and then one more than the contributions accepted
(R326). -/
structure MPkt where
  id : Nat
  fn : Nat
  core : Nat
  gslot : Nat
  slot : Nat
  asid : Nat
  lid : Nat
  wa : Word
  wa1 : Word
  wb : Word
  pc : DWord
  mcv : DWord := 0
  mci : Nat := 0
  /-- Contributions begun, with ORBASE and the tile that an ordered command holds from its start (R312, R326). -/
  done : Nat := 0
  base : DWord := 0
  tile : List Word := []
  held : Bool := false
  needs : List Nat
  deriving DecidableEq, Repr

/-- The A latch or the B buffer: the format and SPK at its load, and the rows (columns) as element
bytes, exponent bytes and group masks (R313, R322). -/
structure Oper where
  fmt : Nat
  spk : Nat
  elems : List (List Byte)
  exps : List (List Byte)
  masks : List (List Nat)
  deriving DecidableEq, Repr

/-- A format context (R309). Tile t, row r, column n is key 1024 t + 32 r + n. -/
structure FCtx where
  owner : Option Nat := none
  frozen : Option Cause := none
  mc : Tab DWord := []
  tiles : Tab Word := []
  m : Tab Word := []
  l : Tab Word := []
  latch : Option Oper := none
  bbuf : Option Oper := none
  inbox : List MPkt := []
  cause : Cause := 0
  deriving DecidableEq, Repr

/-- What has been switched out and is restored at once (R177, R178, R265, R406): a gang, or the handler groups of a
core, with waves, format contexts (by cluster and number) and copies held on fault records (by core). While it is
out, records and commands name its group and wave slots by `away`. -/
structure Saved where
  id : Nat
  lid : Nat
  asid : Nat
  gang : Nat
  /-- Switched out for missing translations (R265), and not by a pre-emption. -/
  missing : Bool
  groups : List Group
  waves : List Wave
  fctxs : List (Nat × Nat × FCtx) := []
  copies : List (Nat × Copy) := []
  erets : List Eret := []
  deriving DecidableEq, Repr

/-- The name of a slot of a saved gang in what the core keeps (R265). -/
def Saved.away (v : Saved) (slot : Nat) : Nat := 65536 + 256 * v.id + slot

/-- A delta slot record (Table 15-1), with the physical spans of its weights and the watched ranges that they
lie partly in (R350). -/
structure DSlot where
  layer : Word := 0
  version : BitVec 16 := 0
  wva : DWord := 0
  wbytes : DWord := 0
  xva : DWord := 0
  yva : DWord := 0
  n : Nat := 0
  m : Nat := 0
  step : Word := 0
  p : Nat := 0
  count : Nat := 0
  clamp : Nat := 0
  valid : Bool := false
  bound : Bool := false
  wfmt : Nat := 0
  reason : Nat := 0
  runs : DWord := 0
  refreshes : DWord := 0
  gskip : DWord := 0
  gtotal : DWord := 0
  clamped : DWord := 0
  winv : Word := 0
  spans : List (Nat × Nat) := []
  ranges : List (Nat × Nat) := []
  deriving DecidableEq, Repr

/-! ## The units -/

/-- What a core holds (R16). Service cores use the parts that they have. -/
structure Core where
  sq : List SQ := []
  /-- L1 lines, the last filled first: the line number and its 32 bytes. A set is the lines of one number modulo 512,
  and holds 8 (R186). -/
  l1 : List (Nat × List Byte) := []
  /-- L1 lines that engine writes of the core have made old, by path of Table 8-5 and line (R200). -/
  stale : List (Nat × Nat) := []
  /-- Instruction cache: words by PA / 4 (R249). -/
  ic : List (Nat × Word) := []
  /-- Translation caches, most recently used first: set and entry. Sets 0 to 15 are the first-level TLB (R252); 16 is the
  store of instruction fetch, 17 that of the copy engine, 18 that of the TRP, and 19, with the even core of a cluster,
  that of the MXE (R251, R261). -/
  tlb : List (Nat × TlbE) := []
  recs : List FRec := []
  copies : List Copy := []
  /-- Work deque, oldest first (R172). -/
  deque : List Task := []
  /-- Handler tables: key 16 * ASID + class (R274). -/
  htab : Tab (Option HEntry) := []
  /-- Inbound queues, in arrival order (R282). -/
  inq : List Msg := []
  /-- Message overflow rings by ASID (R283), and capsule overflow rings (R297). -/
  ovf : List (Nat × List RingRec) := []
  covf : List (Nat × List RingRec) := []
  held : List Caps := []
  batches : List Batch := []
  capNew : Nat := 0
  /-- Trap sequence by wave slot (R395); message sequence (R271) by (slot, destination, class). -/
  trapSeq : Tab Nat := []
  msgSeq : Tab Nat := []
  /-- Mailbox of a service core (R393), and messages that find it full. -/
  mail : List Mail := []
  mailWait : List Mail := []
  /-- %asid of a service core (Table 3-6, R256). -/
  asid : Nat := 0
  trp : Trp := {}
  cqs : List CQ := []
  /-- Capsules being parked that wait for a fault record (R304). -/
  parking : List Parking := []
  deriving DecidableEq, Repr

/-- What a cluster holds (R15). -/
structure Cluster where
  tlb : List TlbE := []
  tags : List Tag := []
  ore : List OreObj := []
  oreHeld : List OreHeld := []
  fctx : List FCtx := [{}, {}, {}, {}]
  last : Nat := 3
  /-- Delta slots cached by the MXE, most recently used first: 256 * ASID + index (R339). -/
  dcache : List Nat := []
  /-- Telemetry (R452) and droops of the present interval (R453). -/
  droop : BitVec 16 := 0
  ring : BitVec 16 := 0
  deriving DecidableEq, Repr

/-- A frame that is being scanned out (R448): the surface and the geometry that the blank before it found, `row` bytes a
row, the number of 32-byte lines read so far, and their bytes. -/
structure Scan where
  surface : Nat
  stride : Nat
  row : Nat
  height : Nat
  next : Nat := 0
  got : List Byte := []
  deriving DecidableEq, Repr

/-- A display head (R448). -/
structure Head where
  flippa : Nat := 0
  stride : Nat := 0
  width : Nat := 0
  height : Nat := 0
  fmt : Nat := 0
  en : Bool := false
  vblanks : Word := 0
  /-- The surface that is scanned out; none before the first flip. -/
  surface : Option Nat := none
  /-- The frame that is being scanned out, and the bytes of the last whole one. -/
  scan : Option Scan := none
  frame : List Byte := []
  deriving DecidableEq, Repr

/-- A host submission queue as its HSC has read it (R440): key 64 q + n. -/
structure HQ where
  q : Nat
  n : Nat
  ring : Nat
  logn : Nat
  head : Nat
  tail : Nat
  deriving DecidableEq, Repr

/-- An outbound hand-off that waits for its peer (R445, R446). -/
structure HandOut where
  seq : Nat
  peer : Nat
  core : Nat
  asid : Nat
  rva : DWord
  payload : DWord
  cq : Nat
  thread : Nat
  entries : Nat
  cmd : Nat
  ext : Nat
  /-- The link has gone down: the record ends with TR_REMOTE, and what still returns is discarded (R446). -/
  lost : Bool := false
  deriving DecidableEq, Repr

/-- What leaves the device: answers to the host and to peers, interrupts, hand-off packets, SPDM
responses, writes to the host and peer windows. -/
inductive Outgoing where
  | hostWrite (pa : Nat) (bytes : List Byte)
  | hostRead (addr : Nat) (data : Option (List Byte))
  | completerAbort (addr : Nat)
  | unsupported (addr : Nat)
  | peerRead (peer addr : Nat) (data : Option (List Byte))
  | peerError (peer addr : Nat)
  | msix (vector : Nat)
  | handPacket (peer : Nat) (bytes : List Byte)
  | handReturn (peer : Nat) (ret : HandReturn)
  | handRefused (peer seq : Nat)
  | regRead (off : Nat) (v : BitVec 64)
  | spdm (code : Nat) (body : List Byte)
  deriving DecidableEq, Repr

/-- An entry of the UALink access table (R444). -/
structure AccessE where
  e : Nat
  base : Nat
  size : Nat
  peers : BitVec 8
  r : Bool
  w : Bool
  deriving DecidableEq, Repr

/-- An entry of the hand-off table (R445). -/
structure HandE where
  e : Nat
  peer : Nat
  asid : Nat
  localAsid : Nat
  core : Nat
  deriving DecidableEq, Repr

/-- A command in flight at an engine that is not the MXE: its core, wave and reply register. -/
structure Cmd where
  id : Nat
  core : Nat
  slot : Nat
  gslot : Nat
  asid : Nat
  lid : Nat
  pc : DWord
  /-- Major and FN7. -/
  maj : Nat
  fn : Nat
  dst : Reg
  wa : DWord
  wb : Word
  blk : List Byte
  needs : List Nat
  /-- The lane that a fault record of the command names. -/
  lane : Nat
  held : Bool := false
  /-- The word of the instruction (Table 17-3). -/
  word : Word := 0
  deriving DecidableEq, Repr

/-! ## The device -/

/-- What a turn of the agenda does. -/
inductive Act where
  /-- A partition of a core issues one instruction of the wave that R152 chooses. -/
  | issue (core part : Nat)
  /-- The TRP of a core issues one traversal instruction (R357). -/
  | trav (core : Nat)
  /-- A step of the table that is no instruction word. -/
  | event (e : Instr)
  /-- A pending load of a wave takes its value now, and lands later (R231). -/
  | sample (core slot k : Nat)
  /-- A copy moves one element (R206). -/
  | element (core k j : Nat)
  /-- An engine acts on a command that waits (R23). -/
  | command (id : Nat)
  /-- A line leaves an L1 (R233), a word leaves an instruction cache (R249), an entry leaves a translation cache of a
  core (R251), entries leave a translation cache because of a TLBI (R261). -/
  | l1Drop (core line : Nat)
  | icDrop (core word : Nat)
  | tlbDrop (core k : Nat)
  | tlbiAct (k : Nat)
  /-- A sensor gives a reading (R452): thermal sensor, ring oscillator, board power. -/
  | temp (i : Nat) (v : BitVec 16)
  | ring (c : Nat) (v : BitVec 16)
  | board (v : BitVec 16)
  /-- An HSC performs the oldest part of a host request that waits for it (R250, R439). -/
  | hsc (q : Nat)
  /-- The host reads bytes of BAR0 (R5, R437). -/
  | barRead (off len : Nat)
  /-- The host loads a firmware image into the recovery region (R450). -/
  | recoveryImage (m : FwImage)
  /-- A firmware wave starts on a service core (R24). -/
  | firmware (core slot : Nat) (pc : DWord)
  /-- A head reads the next line of its frame (R448). -/
  | scanLine (head : Nat)
  /-- The UALink port ends records whose hand-off has failed (R446). -/
  | port
  | idle
  deriving DecidableEq, Repr

structure Turn where
  dt : Nat
  act : Act
  deriving DecidableEq, Repr

structure State where
  clock : Nat
  mhz : Nat
  mem : Memory
  poison : List Nat
  waves : List Wave
  groups : List Group
  cores : Tab Core
  clusters : Tab Cluster
  ctxs : List Ctx
  launches : List Launch
  saved : List Saved
  nextLaunch : Nat
  /-- The last launch read, by queue (R161). -/
  lastOf : Tab Nat
  /-- Unused new bindings of a running launch, by launch id (R338). -/
  dleft : Tab Nat
  slots : Tab DSlot
  /-- Entry sequences of the records whose threads have suspended or been saved, by ASID and record VA (R380). -/
  seqs : List (Nat × DWord × Nat)
  net : List Packet
  sends : List Send
  cmds : List Cmd
  routes : Tab (BitVec 16)
  /-- Partition number by cluster, and the ASIDs admitted by partition (R180). -/
  parts : Tab Nat
  partAsids : List (Nat × Nat)
  /-- Way 8 k + ... : key 8 * cluster + k; the allotted context (ASID + 1) and the lock (R189, R198). -/
  ways : Tab Nat
  locks : Tab Nat
  windows : List Window
  tlbis : List Tlbi
  hostQs : List HQ
  /-- Parts of host requests that wait for their HSC, oldest first: the quadrant and the part (R439). -/
  hsc : List (Nat × BusReq)
  heads : List Head
  qbase : Tab Nat
  versions : Tab Nat
  temps : Tab (BitVec 16)
  board : BitVec 16
  /-- Power manager (R453): the wall-clock times of the last decision and of the last step. -/
  pmTime : Nat
  pmStep : Nat
  pmHeld : Nat
  pmDroop : Bool
  /-- Wall-clock time, in units of which a cycle takes a whole number at every step of the clock (`usec`). -/
  wall : Nat
  stopped : Bool
  recovery : Bool
  booted : Bool
  /-- Images in the recovery region (R450). -/
  recov : List FwImage
  hostFrozen : Bool
  linkUp : Bool
  peerId : Nat
  linkLo : Nat
  linkHi : Nat
  access : List AccessE
  hand : List HandE
  handOut : List HandOut
  handSeq : Nat
  fuses : Tab (BitVec 512)
  revoked : BitVec 4
  counters : Tab Nat
  measure : Tab (BitVec 512)
  spdmReady : BitVec 2
  out : List Outgoing
  nextId : Nat
  freeCtr : Nat
  agenda : List Turn
  selCore : Nat
  selSlot : Nat
  deriving DecidableEq, Repr

/-- Reasons a step stops. -/
inductive Fault where
  /-- exec of a wave instruction when the selected wave does not exist or has no current path; step
  never does this. Safe. -/
  | noWave
  /-- exec of a traversal instruction when the selected thread does not exist; step never does this. Safe. -/
  | noThread
  deriving DecidableEq, Repr

/-- Reasons to refuse. -/
inductive Refusal where
  /-- The instruction has no meaning yet. Safe. -/
  | notModelled (mnemonic : String)
  deriving DecidableEq, Repr

/-- The machine right after reset: nothing resident, every register of BAR0 at its reset value
(Tables 22-3, 22-6, 22-7), every cache empty. Log entry 6 names the values the spec does not give. -/
def State.reset : State where
  clock := 0
  mhz := 1700
  mem := []
  poison := []
  waves := []
  groups := []
  cores := []
  clusters := []
  ctxs := []
  launches := []
  saved := []
  nextLaunch := 1
  lastOf := []
  dleft := []
  slots := []
  seqs := []
  net := []
  sends := []
  cmds := []
  routes := []
  parts := []
  partAsids := []
  ways := []
  locks := []
  windows := []
  tlbis := []
  hostQs := []
  hsc := []
  heads := [{}, {}, {}, {}]
  qbase := []
  versions := []
  temps := []
  board := 0
  pmTime := 0
  pmStep := 0
  pmHeld := 0
  pmDroop := false
  wall := 0
  stopped := false
  recovery := false
  booted := false
  recov := []
  hostFrozen := false
  linkUp := false
  peerId := 0
  linkLo := 0
  linkHi := 0
  access := []
  hand := []
  handOut := []
  handSeq := 0
  fuses := []
  revoked := 0
  counters := []
  measure := []
  spdmReady := 0
  out := []
  nextId := 1
  freeCtr := 0
  agenda := []
  selCore := 0
  selSlot := 0

end Sys2Proof.Machine
end

