-- ==== Sys2Proof/Machine/Tab.lean ====
section
/-! DEFINITION. Reading and writing the sparse tables, keeping their canonical form, and small
operations on sets of lanes and on bytes. -/

namespace Sys2Proof.Machine

/-- The value at a key, or the default. -/
def Tab.get {α : Type} (d : α) : Tab α → Nat → α
  | [], _ => d
  | (k, v) :: t, x => if k == x then v else Tab.get d t x

/-- Writes a key; writing the default removes the entry. -/
def Tab.put {α : Type} [DecidableEq α] (d : α) : Tab α → Nat → α → Tab α
  | [], x, y => if y = d then [] else [(x, y)]
  | (k, v) :: t, x, y =>
    if k == x then (if y = d then t else (x, y) :: t)
    else if Nat.blt x k then (if y = d then (k, v) :: t else (x, y) :: (k, v) :: t)
    else (k, v) :: Tab.put d t x y

/-- Writes several keys, in order. -/
def Tab.putAll {α : Type} [DecidableEq α] (d : α) (t : Tab α) (kvs : List (Nat × α)) : Tab α :=
  kvs.foldl (fun t kv => Tab.put d t kv.1 kv.2) t

/-- Changes every value of a table. -/
def Tab.update {α : Type} [DecidableEq α] (d : α) (f : α → α) (t : Tab α) : Tab α :=
  t.filterMap fun e => if f e.2 = d then none else some (e.1, f e.2)

/-- The value of an association list. -/
def assoc {α : Type} : List (Nat × α) → Nat → Option α
  | [], _ => none
  | (k, v) :: t, x => if k == x then some v else assoc t x

/-- Replaces or adds an entry of an association list. -/
def setAssoc {α : Type} (l : List (Nat × α)) (x : Nat) (v : α) : List (Nat × α) :=
  (x, v) :: l.filter (fun e => e.1 != x)

/-- The lanes of a mask, ascending (R6). -/
def lanesOf (m : Lanes) : List Nat := (List.range 32).filter fun l => m.getLsbD l

/-- The mask of the lanes for which a test holds. -/
def maskOf (f : Nat → Bool) : Lanes :=
  (List.range 32).foldr (fun l m => if f l then m ||| BitVec.ofNat 32 (2 ^ l) else m) 0

/-- Bytes of a word, lowest first (R2). -/
def bytesLE (n : Nat) (v : Nat) : List Byte :=
  (List.range n).map fun i => BitVec.ofNat 8 (v / 2 ^ (8 * i))

/-- The number that bytes hold, lowest first (R2). -/
def leNat : List Byte → Nat
  | [] => 0
  | b :: t => b.toNat + 256 * leNat t

/-- Bytes [i, i + n) of a record, as a number. -/
def fieldNat (b : List Byte) (i n : Nat) : Nat := leNat ((b.drop i).take n)

/-- The bytes of a list overwritten from offset `i`. -/
def patch (b : List Byte) (i : Nat) (new : List Byte) : List Byte :=
  b.take i ++ new ++ b.drop (i + new.length)

/-- 32-bit words of bytes, lowest first. -/
def wordsOf (n : Nat) (b : List Byte) : List Word :=
  (List.range n).map fun k => BitVec.ofNat 32 (fieldNat b (4 * k) 4)

/-- The bytes of words, lowest first. -/
def bytesOf (ws : List Word) : List Byte := (ws.map fun w => bytesLE 4 w.toNat).flatten

end Sys2Proof.Machine
end

