-- ==== Sys2Proof/Machine/Base.lean ====
section
/-! DEFINITION. Where the parts of the state are, and the registers of a wave: units by number (R12,
R13), waves, groups and contexts, g, w and predicate registers (R22), packets and mailbox messages
(R271, R393), trap records (R395). -/

namespace Sys2Proof.Machine

/-- The outcome of a step. -/
abbrev Out := Host.Outcome State Fault Refusal

/-! ## Numbers -/

/-- Core ids from 160 on are service cores (Table 3-6). -/
def isService (c : Nat) : Bool := Nat.ble 160 c

/-- The cluster at whose router an agent sits (R12, Table 1-2). -/
def clusterOf (c : Nat) : Nat :=
  if Nat.blt c 160 then c / 2
  else if Nat.blt c 240 then c - 160
  else match c with
    | 241 => 9
    | 242 => 70
    | 243 => 79
    | _ => 0

/-- The SVC that a core's messages go to: that of its cluster, or the service core itself (R395). -/
def svcOf (c : Nat) : Nat := if isService c then c else 160 + c / 2

/-- Quadrant of a cluster (R12). -/
def quadOf (cl : Nat) : Nat :=
  (if Nat.ble 5 (cl % 10) then 1 else 0) + (if Nat.ble 4 (cl / 10) then 2 else 0)

/-- The router (x, y) of a cluster (R12). -/
def routerOf (cl : Nat) : Nat × Nat := (cl % 10, cl / 10)

/-- The routers at which a memory port, the UALink port and the display scan-out are attached (Table 1-2). -/
def memRouter (port : Nat) : Nat × Nat := if Nat.blt port 8 then (port + 1, 0) else (port - 7, 7)
def ualinkRouter : Nat × Nat := (9, 4)
def displayRouter : Nat × Nat := (0, 4)

/-- Hops between the routers of two clusters (R14). -/
def hops (a b : Nat) : Nat :=
  let d (x y : Nat) := (x - y) + (y - x)
  d (a % 10) (b % 10) + d (a / 10) (b / 10)

/-- The coordinates from one, itself included, to just before another. -/
def towards (a b : Nat) : List Nat :=
  if Nat.ble a b then (List.range (b - a)).map fun i => a + i else (List.range (a - b)).map fun i => a - i

/-- The routers on the dimension-ordered route from one router to another, both included: along x and then y, or along y
and then x (R14, Table 12-2). -/
def routePath (yFirst : Bool) (a b : Nat × Nat) : List (Nat × Nat) :=
  (if yFirst then (towards a.2 b.2).map (fun y => (a.1, y)) ++ (towards a.1 b.1).map fun x => (x, b.2)
    else (towards a.1 b.1).map (fun x => (x, a.2)) ++ (towards a.2 b.2).map fun y => (b.1, y)) ++ [b]

/-- The partition of a wave slot (log entry 7). -/
def partOf (slot : Nat) : Nat := slot / 16

/-! ## Finding and replacing -/

def State.core (s : State) (c : Nat) : Core := Tab.get {} s.cores c
def State.setCore (s : State) (c : Nat) (v : Core) : State := { s with cores := Tab.put {} s.cores c v }
def State.modCore (s : State) (c : Nat) (f : Core → Core) : State := s.setCore c (f (s.core c))
def State.cluster (s : State) (c : Nat) : Cluster := Tab.get {} s.clusters c
def State.setCluster (s : State) (c : Nat) (v : Cluster) : State :=
  { s with clusters := Tab.put {} s.clusters c v }
def State.modCluster (s : State) (c : Nat) (f : Cluster → Cluster) : State :=
  s.setCluster c (f (s.cluster c))

def Wave.at (w : Wave) (c slot : Nat) : Bool := w.core == c && w.slot == slot
def State.wave? (s : State) (c slot : Nat) : Option Wave := s.waves.find? fun w => w.at c slot
def State.setWave (s : State) (w : Wave) : State :=
  { s with waves := s.waves.map fun v => if v.at w.core w.slot then w else v }
def State.modWave (s : State) (c slot : Nat) (f : Wave → Wave) : State :=
  match s.wave? c slot with
  | some w => s.setWave (f w)
  | none => s

def Group.at (g : Group) (c gslot : Nat) : Bool := g.core == c && g.gslot == gslot
def State.group? (s : State) (c gslot : Nat) : Option Group := s.groups.find? fun g => g.at c gslot
def State.setGroup (s : State) (g : Group) : State :=
  { s with groups := s.groups.map fun v => if v.at g.core g.gslot then g else v }
def State.modGroup (s : State) (c gslot : Nat) (f : Group → Group) : State :=
  match s.group? c gslot with
  | some g => s.setGroup (f g)
  | none => s

def State.ctx? (s : State) (asid : Nat) : Option Ctx := s.ctxs.find? fun c => c.asid == asid
def State.setCtx (s : State) (x : Ctx) : State :=
  { s with ctxs := s.ctxs.map fun v => if v.asid == x.asid then x else v }
def State.modCtx (s : State) (asid : Nat) (f : Ctx → Ctx) : State :=
  match s.ctx? asid with
  | some x => s.setCtx (f x)
  | none => s

def State.launch? (s : State) (lid : Nat) : Option Launch := s.launches.find? fun l => l.lid == lid
def State.modLaunch (s : State) (lid : Nat) (f : Launch → Launch) : State :=
  { s with launches := s.launches.map fun l => if l.lid == lid then f l else l }

/-- The timing-bounded partition of a cluster (R180). -/
def State.partAt (s : State) (cl : Nat) : Nat := Tab.get 0 s.parts cl

/-- A context runs in a partition: it is not stopped for termination, and not pre-empted, which acts only outside the
partitions (R177, R181). -/
def State.runs (s : State) (asid part : Nat) : Bool :=
  match s.ctx? asid with
  | some c => (!c.out || part != 0) && c.killed.isNone
  | none => false

/-- A context runs on a core. -/
def State.runsOn (s : State) (asid core : Nat) : Bool := s.runs asid (s.partAt (clusterOf core))

/-- The group of a wave. -/
def State.groupOf (s : State) (w : Wave) : Option Group :=
  if isService w.core then none else s.group? w.core w.gslot

/-- The context of a wave: that of its group, or %asid of its service core. -/
def State.asidOf (s : State) (w : Wave) : Nat :=
  match s.groupOf w with
  | some g => g.asid
  | none => (s.core w.core).asid

/-- The launch of a wave. -/
def State.lidOf (s : State) (w : Wave) : Nat :=
  match s.groupOf w with
  | some g => g.lid
  | none => 0

/-- Checked issue (R136): an attribute of the launch. -/
def State.checkedOf (s : State) (w : Wave) : Bool :=
  match s.groupOf w with
  | some g => g.checked
  | none => false

/-- A handler wave (R21). -/
def Wave.isHandler (w : Wave) : Bool := w.kind == .handler

/-- The next identifier. -/
def State.fresh (s : State) : Nat × State := (s.nextId, { s with nextId := s.nextId + 1 })

/-- The next free value's number (log entry 4). -/
def State.freshFree (s : State) : Nat × State := (s.freeCtr, { s with freeCtr := s.freeCtr + 1 })

/-! ## Registers -/

def Wave.readG (w : Wave) (r : Reg) (l : Nat) : Word :=
  if r == 0 then 0 else Tab.get 0 w.g (32 * r.toNat + l)
def Wave.readW (w : Wave) (r : Reg) : Word := if r == 0 then 0 else Tab.get 0 w.w r.toNat
def Wave.readP (w : Wave) (r : BitVec 3) (l : Nat) : Bool :=
  if r == 7 then true else Tab.get false w.p (32 * r.toNat + l)

/-- A pair gN:gN+1 with the low word in gN (R32). -/
def Wave.readG2 (w : Wave) (r : Reg) (l : Nat) : DWord := w.readG (r + 1) l ++ w.readG r l
def Wave.readW2 (w : Wave) (r : Reg) : DWord := w.readW (r + 1) ++ w.readW r

/-- The value that a destination holds; a predicate is 0 or 1. -/
def Wave.readDst (w : Wave) (d : Dst) : Word :=
  match d with
  | .g r l => w.readG r l
  | .w r => w.readW r
  | .p r l => if w.readP r l then 1 else 0
  | .fpsr => w.fpsr
  | .push .. => 0
  | .mcast r _ => w.readW r

/-- Writes a destination. Writes to g0, w0 and p7 are discarded (R22); flags are added (R92). -/
def Wave.writeDst (w : Wave) (d : Dst) (v : Word) : Wave :=
  match d with
  | .g r l => if r == 0 then w else { w with g := Tab.put 0 w.g (32 * r.toNat + l) v }
  | .w r => if r == 0 then w else { w with w := Tab.put 0 w.w r.toNat v }
  | .p r l => if r == 7 then w else { w with p := Tab.put false w.p (32 * r.toNat + l) (v != 0) }
  | .fpsr => { w with fpsr := w.fpsr ||| v }
  | .push .. => w
  | .mcast r m =>
    let w := { w with ms0 := m.setWidth 64, ms1 := (w.ms1 >>> 16 <<< 16) ||| (m >>> 64).setWidth 64 }
    if r == 0 then w else { w with w := Tab.put 0 w.w r.toNat v }

/-- Destinations whose writes are discarded. -/
def Dst.isNull (d : Dst) : Bool :=
  match d with
  | .g r _ => r == 0
  | .w r => r == 0
  | .p r _ => r == 7
  | .fpsr => false
  | .push .. => false
  | .mcast .. => false

/-- The lane of a destination. -/
def Dst.lane? (d : Dst) : Option Nat :=
  match d with
  | .g _ l => some l
  | .p _ l => some l
  | .push _ _ l _ _ => some l
  | .w _ => none
  | .mcast .. => none
  | .fpsr => none

/-! ## Paths of a wave -/

def Wave.path? (w : Wave) : Option Path := w.paths.find? fun p => p.made == w.cur
def Wave.modPath (w : Wave) (made : Nat) (f : Path → Path) : Wave :=
  { w with paths := w.paths.map fun p => if p.made == made then f p else p }
def Wave.modCur (w : Wave) (f : Path → Path) : Wave := w.modPath w.cur f

/-- A path sets CHANGED, which ends its demotion (R150, R151). -/
def Path.touch (p : Path) : Path := { p with changed := true, demoted := false }
def Wave.touch (w : Wave) : Wave := w.modCur Path.touch

/-- A landing write sets CHANGED for the path that holds the lane, or for the path that issued it. -/
def Wave.touchLanding (w : Wave) (d : Dst) (made : Nat) : Wave :=
  match d.lane? with
  | some l => { w with paths := w.paths.map fun p => if !p.reconv && p.mask.getLsbD l then p.touch else p }
  | none => w.modPath made Path.touch

/-- A write in program order, with CHANGED when the register held another value (R134, R150). A discarded
write changes nothing (R22). -/
def Wave.writeNow (w : Wave) (dv : Dst × Word) : Wave :=
  if dv.1.isNull then w
  else if dv.1 == .fpsr || w.readDst dv.1 == dv.2 then w.writeDst dv.1 dv.2
  else (w.writeDst dv.1 dv.2).touch

/-- Writes in program order. -/
def Wave.writeAll (w : Wave) (ws : List (Dst × Word)) : Wave := ws.foldl Wave.writeNow w

/-- A result of an access, which is made although its destination discards it. -/
def Src.isHeld (x : Src) : Bool :=
  match x with
  | .held _ _ _ => true
  | _ => false

/-- An outstanding result (R134), pending to the end of the run under checked issue (R136). -/
def Wave.addPend (w : Wave) (checked : Bool) (d : Dst) (src : Src) : Wave :=
  if d.isNull && !src.isHeld then w
  else { w with pend := w.pend ++ [⟨d, src, w.cur, w.word⟩], haz := if checked then d :: w.haz else w.haz }

/-- The instruction has issued: the current path goes on at PC + 4, the run counts it, and S = 1 makes
it a switch point (R26, R132, R133). -/
def Wave.retire (w : Wave) (sw : Bool) : Wave :=
  let w := w.modCur fun p => { p with pc := p.pc + 4 }
  { w with count := w.count + 1, stat := if sw && w.stat == .run then .switch else w.stat }

/-- Live lanes of the current path, helper lanes included. -/
def Wave.lanesOfPath (w : Wave) (p : Path) : Lanes := p.mask &&& w.live

/-- The lanes whose guard is true (R27). -/
def Wave.guarded (w : Wave) (g : BitVec 3) (m : Lanes) : Lanes :=
  if g == 7 then m else maskOf fun l => m.getLsbD l && w.readP g l

/-- The lowest lane of a mask. -/
def lowest (m : Lanes) : Option Nat := (List.range 32).find? fun l => m.getLsbD l

/-- The lane that a per-wave instruction reads its guard and its operands in, when it acts (R28). -/
def Wave.uniformLane (w : Wave) (g : BitVec 3) (p : Path) : Option Nat :=
  match lowest (w.lanesOfPath p &&& ~~~w.helper) with
  | none => none
  | some l => if w.readP g l then some l else none

/-! ## Messages to the service cores -/

/-- Puts a packet into the message network. -/
def State.inject (s : State) (dest src slot asid : Nat) (body : PBody) : State :=
  let (id, s) := s.fresh
  { s with net := s.net ++ [{ id, dest, src, slot, asid, cls := 0, seq := 0, body, needs := [] }] }

/-- A mailbox message of a core to its service core (R393, R395). -/
def State.sendMail (s : State) (kind core slot asid : Nat) (body : List Byte) : State :=
  s.inject (svcOf core) core slot asid (.mail kind core slot asid body)

/-- Increases the message sequence of a wave slot (R395). -/
def State.bumpSeq (s : State) (core slot : Nat) : BitVec 16 × State :=
  let n := (Tab.get 0 (s.core core).trapSeq slot + 1) % 65536
  (BitVec.ofNat 16 n, s.modCore core fun c => { c with trapSeq := Tab.put 0 c.trapSeq slot n })

/-- The token of Table 17-3. -/
def token (core slot : Nat) (seq : BitVec 16) : List Byte :=
  [BitVec.ofNat 8 core, BitVec.ofNat 8 slot] ++ bytesLE 2 seq.toNat

/-- The record of Table 17-3. -/
def trapRecord (w : Wave) (cause : Cause) (lanes : Lanes) (pc : DWord) (x y : Word)
    (seq : BitVec 16) : List Byte :=
  bytesLE 2 cause.toNat ++ [BitVec.ofNat 8 w.slot, BitVec.ofNat 8 (w.gslot % 32)] ++
  bytesLE 4 lanes.toNat ++ bytesLE 8 pc.toNat ++ bytesLE 4 w.word.toNat ++ bytesLE 4 x.toNat ++
  bytesLE 4 y.toNat ++ token w.core w.slot seq

/-- Parks a wave on a trap whose outstanding results have been written (R395). -/
def State.sendTrap (s : State) (w : Wave) (t : Trap) (lanes : Lanes) (pc : DWord) : State :=
  let (seq, s) := s.bumpSeq w.core w.slot
  let body := trapRecord w t.cause (lanes &&& ~~~w.helper) pc t.x t.y seq
  let s := s.sendMail t.kind w.core w.slot (s.asidOf w) body
  s.setWave { w with stat := .trapped ⟨t.kind, t.cause, seq, t.dst, lanes, pc⟩, prev := .run }

/-- Parks a wave on its first floating-point exception (R95, Table 4-4). -/
def State.sendExc (s : State) (w : Wave) : State :=
  match w.excs with
  | [] => s.setWave w
  | e :: rest =>
    let (seq, s) := s.bumpSeq w.core w.slot
    let fl : Nat := (if e.lcls then 1 else 0) + (if e.more then 2 else 0)
    let body := bytesLE 2 e.cause.toNat ++ [BitVec.ofNat 8 w.slot, BitVec.ofNat 8 fl] ++
      bytesLE 4 e.lanes.toNat ++ bytesLE 8 e.pc.toNat ++ bytesLE 12 0 ++ token w.core w.slot seq
    let s := s.sendMail 1 w.core w.slot (s.asidOf w) body
    s.setWave { w with excs := rest, prev := w.stat, stat := .trapped ⟨1, e.cause, seq, 0, e.lanes, e.pc⟩ }

/-- States at which a wave has reached a switch point (R131). -/
def WStat.atSwitch (x : WStat) : Bool :=
  match x with
  | .switch => true
  | .yielded _ _ => true
  | .barrier _ _ => true
  | .bytes _ => true
  | .join _ _ _ => true
  | _ => false

/-- Puts a wave back after a change: a trap whose results have landed is sent, and an exception of the
run parks the wave at its switch point (R95, R395). -/
def State.settle (s : State) (w : Wave) : State :=
  match w.stat with
  | .trapping t lanes pc => if w.pend.isEmpty then s.sendTrap w t lanes pc else s.setWave w
  | st => if st.atSwitch && w.pend.isEmpty && !w.excs.isEmpty then s.sendExc w else s.setWave w

/-- Puts a wave back as it stands: what it waits to send goes (R95, R395). -/
def State.resettle (s : State) (core slot : Nat) : State :=
  match s.wave? core slot with
  | some w => s.settle w
  | none => s

/-- A wave exists with an instruction under way: the state that its meaning gives. -/
def withWave (s : State) (f : Wave → Path → State) : Out :=
  match s.wave? s.selCore s.selSlot with
  | none => .fault .noWave
  | some w =>
    match w.path? with
    | none => .fault .noWave
    | some p => .next (f w p)

end Sys2Proof.Machine
end

