-- ==== Sys2Proof/Machine/Float.lean ====
section
/-! DEFINITION. The arithmetic of the floating formats (R88 to R94): a finite value is a sign, a
natural number and a power of two, every operation is exact, and one function rounds. -/

namespace Sys2Proof.Machine

/-- Flags in the order of %fpsr (Table 4-3): NV, DZ, OF, UF, NX, SAT. -/
abbrev Flags := BitVec 6

def fNV : Flags := 1
def fDZ : Flags := 2
def fOF : Flags := 4
def fUF : Flags := 8
def fNX : Flags := 16
def fSAT : Flags := 32

/-- An IEEE format: exponent and fraction bits (Table 4-1). -/
structure Fmt where
  eb : Nat
  fb : Nat
  deriving DecidableEq, Repr

def f64 : Fmt := ⟨11, 52⟩
def f32 : Fmt := ⟨8, 23⟩
def f16 : Fmt := ⟨5, 10⟩
def bf16 : Fmt := ⟨8, 7⟩

def Fmt.bias (f : Fmt) : Nat := 2 ^ (f.eb - 1) - 1
def Fmt.emax (f : Fmt) : Nat := 2 ^ f.eb - 1
def Fmt.qnan (f : Fmt) : Nat := f.emax * 2 ^ f.fb + 2 ^ (f.fb - 1)
def Fmt.inf (f : Fmt) (s : Bool) : Nat := (if s then 2 ^ (f.eb + f.fb) else 0) + f.emax * 2 ^ f.fb
def Fmt.zero (f : Fmt) (s : Bool) : Nat := if s then 2 ^ (f.eb + f.fb) else 0
/-- The largest finite value. -/
def Fmt.top (f : Fmt) (s : Bool) : Nat := f.inf s - 1
/-- The power of two of the lowest bit of a subnormal. -/
def Fmt.low (f : Fmt) : Int := 1 - (f.bias : Int) - (f.fb : Int)

/-- Rounding modes (Table 4-2). -/
inductive Rm where
  | rne | rtz | rup | rdn
  deriving DecidableEq, Repr

def Rm.ofBits (n : Nat) : Rm :=
  match n with
  | 0 => .rne
  | 1 => .rtz
  | 2 => .rup
  | _ => .rdn

/-- A decoded value: a finite one is (-1)^s * m * 2^e. -/
inductive FNum where
  | nan (signalling : Bool)
  | inf (s : Bool)
  | fin (s : Bool) (m : Nat) (e : Int)
  deriving DecidableEq, Repr

def FNum.isNaN : FNum → Bool
  | .nan _ => true
  | _ => false

def FNum.isSNaN : FNum → Bool
  | .nan b => b
  | _ => false

def FNum.sign : FNum → Bool
  | .nan _ => false
  | .inf s => s
  | .fin s _ _ => s

def FNum.neg : FNum → FNum
  | .nan b => .nan b
  | .inf s => .inf !s
  | .fin s m e => .fin (!s) m e

def FNum.isZero : FNum → Bool
  | .fin _ 0 _ => true
  | _ => false

def FNum.isFin : FNum → Bool
  | .fin _ _ _ => true
  | _ => false

/-- The value of a bit pattern (R88, R89). -/
def Fmt.num (f : Fmt) (b : Nat) : FNum :=
  let fr := b % 2 ^ f.fb
  let ex := b / 2 ^ f.fb % 2 ^ f.eb
  let s := b / 2 ^ (f.fb + f.eb) % 2 == 1
  if ex == f.emax then (if fr == 0 then .inf s else .nan (Nat.blt fr (2 ^ (f.fb - 1))))
  else if ex == 0 then .fin s fr f.low
  else .fin s (2 ^ f.fb + fr) (f.low + (ex : Int) - 1)

/-- Number of bits of a natural number. -/
def bitLen (n : Nat) : Nat := if n == 0 then 0 else Nat.log2 n + 1

/-- Whether rounding to a multiple of 2^k takes the next larger magnitude. `rem` is what is dropped of
`m`, `more` says that something non-zero lies below it. -/
def roundsUp (rm : Rm) (s : Bool) (n rem k : Nat) (more : Bool) : Bool :=
  let inexact := rem != 0 || more
  match rm with
  | .rtz => false
  | .rup => !s && inexact
  | .rdn => s && inexact
  | .rne =>
    if k == 0 then false
    else Nat.blt (2 ^ (k - 1)) rem || (rem == 2 ^ (k - 1) && (more || n % 2 == 1))

/-- (-1)^s * (m + a little, if `more`) * 2^e kept to `p` bits or to multiples of 2^lo: the kept
number, its power of two, and whether anything was lost. -/
def keep (rm : Rm) (s : Bool) (m : Nat) (e : Int) (more : Bool) (p : Nat) (lo : Option Int) :
    Nat × Int × Bool :=
  let q0 := e + (bitLen m : Int) - (p : Int)
  let q := match lo with
    | none => q0
    | some l => if q0 < l then l else q0
  if q ≤ e then (m * 2 ^ (e - q).toNat, q, more)
  else
    let k := (q - e).toNat
    let n := m / 2 ^ k
    let rem := m % 2 ^ k
    (if roundsUp rm s n rem k more then n + 1 else n, q, rem != 0 || more)

/-- Rounds to a format once, with the flags of R94. -/
def Fmt.round (f : Fmt) (rm : Rm) (s : Bool) (m : Nat) (e : Int) (more : Bool) : Nat × Flags :=
  if m == 0 && !more then (f.zero s, 0)
  else
    let p := f.fb + 1
    let (n, q, inex) := keep rm s m e more p (some f.low)
    let sgn := f.zero s
    -- the power of two of the leading bit
    let lead := q + (bitLen n : Int) - 1
    if n != 0 && (f.bias : Int) < lead then
      let toInf := match rm with
        | .rne => true
        | .rtz => false
        | .rup => !s
        | .rdn => s
      (if toInf then f.inf s else f.top s, fOF ||| fNX)
    else
      let (n0, q0, _) := keep rm s m e more p none
      let tiny := q0 + (bitLen n0 : Int) - 1 < f.low + (f.fb : Int)
      let fl := (if inex then fNX else 0) ||| (if inex && tiny then fUF else 0)
      if Nat.blt n (2 ^ f.fb) then (sgn + n, fl)
      else
        -- n has p bits, or is 2^p
        let ex := (lead + (f.bias : Int)).toNat
        let fr := n / 2 ^ (bitLen n - p) % 2 ^ f.fb
        (sgn + ex * 2 ^ f.fb + fr, fl)

/-- An exact signed sum of two dyadic numbers: the integer and its power of two. -/
def dyAdd (s1 : Bool) (m1 : Nat) (e1 : Int) (s2 : Bool) (m2 : Nat) (e2 : Int) : Int × Int :=
  let e := if e1 < e2 then e1 else e2
  let a : Int := (m1 : Int) * 2 ^ (e1 - e).toNat
  let b : Int := (m2 : Int) * 2 ^ (e2 - e).toNat
  ((if s1 then -a else a) + (if s2 then -b else b), e)

/-- The sum of two values: exact, or a special. The sign of an exact zero follows R94. -/
def FNum.add (rm : Rm) (x y : FNum) : FNum × Flags :=
  match x, y with
  | .nan b, y => (.nan false, if b || y.isSNaN then fNV else 0)
  | _, .nan b => (.nan false, if b then fNV else 0)
  | .inf s, .inf t => if s == t then (.inf s, 0) else (.nan false, fNV)
  | .inf s, .fin _ _ _ => (.inf s, 0)
  | .fin _ _ _, .inf t => (.inf t, 0)
  | .fin s m e, .fin t n g =>
    let (v, x) := dyAdd s m e t n g
    if v == 0 then
      (if m == 0 && n == 0 && s == t then .fin s 0 x else .fin (rm == .rdn) 0 x, 0)
    else (.fin (v < 0) v.natAbs x, 0)

/-- The product of two values, exact, or a special. -/
def FNum.mul (x y : FNum) : FNum × Flags :=
  match x, y with
  | .nan b, y => (.nan false, if b || y.isSNaN then fNV else 0)
  | _, .nan b => (.nan false, if b then fNV else 0)
  | .inf s, .inf t => (.inf (s != t), 0)
  | .inf s, .fin t n _ => if n == 0 then (.nan false, fNV) else (.inf (s != t), 0)
  | .fin s m _, .inf t => if m == 0 then (.nan false, fNV) else (.inf (s != t), 0)
  | .fin s m e, .fin t n g => (.fin (s != t) (m * n) (e + g), 0)

/-- A value in a format: rounded, or the canonical special (R89). -/
def Fmt.pack (f : Fmt) (rm : Rm) (x : FNum) : Nat × Flags :=
  match x with
  | .nan _ => (f.qnan, 0)
  | .inf s => (f.inf s, 0)
  | .fin s m e => f.round rm s m e false

/-- A subnormal read as zero of its sign (R90). -/
def Fmt.flushIn (f : Fmt) (ftz : Bool) (x : FNum) : FNum :=
  match x with
  | .fin s m e => if ftz && Nat.blt m (2 ^ f.fb) && e == f.low then .fin s 0 e else x
  | x => x

/-- A result that would be subnormal written as zero of its sign, with UF and NX (R90). -/
def Fmt.flushOut (f : Fmt) (ftz : Bool) (r : Nat × Flags) : Nat × Flags :=
  let mag := r.1 % 2 ^ (f.eb + f.fb)
  if ftz && mag != 0 && Nat.blt mag (2 ^ f.fb) then (r.1 - mag, r.2 ||| fUF ||| fNX) else r

/-- Round(x + y). -/
def Fmt.add (f : Fmt) (rm : Rm) (ftz : Bool) (x y : FNum) : Nat × Flags :=
  let (z, fl) := FNum.add rm (f.flushIn ftz x) (f.flushIn ftz y)
  let (b, g) := f.flushOut ftz (f.pack rm z)
  (b, fl ||| g)

/-- Round(x * y). -/
def Fmt.mul (f : Fmt) (rm : Rm) (ftz : Bool) (x y : FNum) : Nat × Flags :=
  let (z, fl) := FNum.mul (f.flushIn ftz x) (f.flushIn ftz y)
  let (b, g) := f.flushOut ftz (f.pack rm z)
  (b, fl ||| g)

/-- Round(x * y + z), rounded once; 0 * inf sets NV whatever z is (R102). -/
def Fmt.fma (f : Fmt) (rm : Rm) (ftz : Bool) (x y z : FNum) : Nat × Flags :=
  let x := f.flushIn ftz x
  let y := f.flushIn ftz y
  let z := f.flushIn ftz z
  let (p, fp) := FNum.mul x y
  let (r, fr) := FNum.add rm p z
  let (b, g) := f.flushOut ftz (f.pack rm r)
  (b, fp ||| fr ||| g)

/-- The order of two finite or infinite values: less, equal or greater; zeros are equal. -/
def FNum.cmp (x y : FNum) : Ordering :=
  match x, y with
  | .inf s, .inf t => if s == t then .eq else if s then .lt else .gt
  | .inf s, _ => if s then .lt else .gt
  | _, .inf t => if t then .gt else .lt
  | .fin s m e, .fin t n g =>
    let (v, _) := dyAdd s m e (!t) n g
    if v < 0 then .lt else if v == 0 then .eq else .gt
  | _, _ => .eq

/-- FMIN and FMAX: exact, the canonical qNaN for a NaN operand, -0 below +0 (R101). -/
def Fmt.minmax (f : Fmt) (ftz : Bool) (isMax : Bool) (x y : FNum) : Nat × Flags :=
  let x := f.flushIn ftz x
  let y := f.flushIn ftz y
  if x.isNaN || y.isNaN then (f.qnan, if x.isSNaN || y.isSNaN then fNV else 0)
  else
    let less := match FNum.cmp x y with
      | .lt => true
      | .gt => false
      | .eq => x.sign && !y.sign
    let r := if less != isMax then x else y
    (f.pack .rne r).1 |> fun b => (b, 0)

/-- The comparison conditions on two values, with the NV rule of R104. -/
def fcompare (c : FCond) (x y : FNum) : Bool × Flags :=
  if x.isNaN || y.isNaN then
    let s := x.isSNaN || y.isSNaN
    match c with
    | .eq => (false, if s then fNV else 0)
    | .or => (false, if s then fNV else 0)
    | .ne => (true, if s then fNV else 0)
    | .un => (true, if s then fNV else 0)
    | .lt => (false, fNV)
    | .le => (false, fNV)
    | .gt => (false, fNV)
    | .ge => (false, fNV)
  else
    let o := FNum.cmp x y
    (match c with
      | .eq => o == .eq
      | .ne => o != .eq
      | .lt => o == .lt
      | .le => o != .gt
      | .gt => o == .gt
      | .ge => o != .lt
      | .un => false
      | .or => true, 0)

/-- A value converted to another format (R106): a NaN gives the canonical qNaN, NV if signalling. -/
def Fmt.convert (src dst : Fmt) (rm : Rm) (b : Nat) : Nat × Flags :=
  match src.num b with
  | .nan sg => (dst.qnan, if sg then fNV else 0)
  | x => dst.pack rm x

/-- The nearest integer in a mode: the signed integer, and whether it differs from the value. -/
def roundInt (rm : Rm) (s : Bool) (m : Nat) (e : Int) : Int × Bool :=
  let (n, inex) :=
    if 0 ≤ e then (m * 2 ^ e.toNat, false)
    else
      let k := (-e).toNat
      let n := m / 2 ^ k
      let rem := m % 2 ^ k
      (if roundsUp rm s n rem k false then n + 1 else n, rem != 0)
  (if s then -(n : Int) else n, inex)

/-- FCVT.FI (R107): the integer kept to `w` bits. -/
def Fmt.toInt (f : Fmt) (rm : Rm) (w : Nat) (sgn : Bool) (b : Nat) : Nat × Flags :=
  let lo : Int := if sgn then -(2 ^ (w - 1) : Nat) else 0
  let hi : Int := if sgn then (2 ^ (w - 1) : Nat) - 1 else (2 ^ w : Nat) - 1
  let wrap (v : Int) : Nat := (v % (2 ^ w : Nat)).toNat
  match f.num b with
  | .nan _ => (0, fNV)
  | .inf s => (wrap (if s then lo else hi), fNV)
  | .fin s m e =>
    let (v, inex) := roundInt rm s m e
    if v < lo then (wrap lo, fNV)
    else if hi < v then (wrap hi, fNV)
    else (wrap v, if inex then fNX else 0)

/-- FCVT.IF (R107): an integer of `w` bits as a float. -/
def Fmt.ofInt (f : Fmt) (rm : Rm) (w : Nat) (sgn : Bool) (b : Nat) : Nat × Flags :=
  if sgn && 2 ^ (w - 1) ≤ b then f.round rm true (2 ^ w - b) 0 false
  else f.round rm false b 0 false

/-- FCVT.RI (R109): an integral value in the same format; no NX. -/
def Fmt.toIntegral (f : Fmt) (rm : Rm) (b : Nat) : Nat × Flags :=
  match f.num b with
  | .nan sg => (f.qnan, if sg then fNV else 0)
  | .inf s => (f.inf s, 0)
  | .fin s m e =>
    let (v, _) := roundInt rm s m e
    ((f.round rm s v.natAbs 0 false).1, 0)

/-- The exact sum of products and addends with the special cases of R317: NaN when any term is NaN or
when infinities of both signs would add; the flag says that the operation was invalid. An exact zero
takes the sign that all terms share, else that of R94. -/
def sumNums (rm : Rm) (xs : List FNum) : FNum × Flags :=
  let nan := xs.any FNum.isNaN
  let sn := xs.any FNum.isSNaN
  let pinf := xs.any fun x => match x with
    | .inf s => !s
    | _ => false
  let ninf := xs.any fun x => match x with
    | .inf s => s
    | _ => false
  if nan then (.nan false, if sn then fNV else 0)
  else if pinf && ninf then (.nan false, fNV)
  else if pinf then (.inf false, 0)
  else if ninf then (.inf true, 0)
  else
    let e := xs.foldl (fun a x => match x with
      | .fin _ _ g => if g < a then g else a
      | _ => a) 0
    let v : Int := xs.foldl (fun a x => match x with
      | .fin s m g => let t : Int := (m : Int) * 2 ^ (g - e).toNat; if s then a - t else a + t
      | _ => a) 0
    if v == 0 then
      let allNeg := xs.all fun x => x.isZero && x.sign
      let allPos := xs.all fun x => x.isZero && !x.sign
      (.fin (if allNeg then !xs.isEmpty else if allPos then false else rm == .rdn) 0 e, 0)
    else (.fin (v < 0) v.natAbs e, 0)

/-- The quotient of two values in a format, rounded once. -/
def Fmt.div (f : Fmt) (rm : Rm) (x y : FNum) : Nat × Flags :=
  match x, y with
  | .nan b, y => (f.qnan, if b || y.isSNaN then fNV else 0)
  | _, .nan b => (f.qnan, if b then fNV else 0)
  | .inf _, .inf _ => (f.qnan, fNV)
  | .inf s, .fin t _ _ => (f.inf (s != t), 0)
  | .fin s _ _, .inf t => (f.zero (s != t), 0)
  | .fin s m e, .fin t n g =>
    if n == 0 then (if m == 0 then (f.qnan, fNV) else (f.inf (s != t), fDZ))
    else if m == 0 then (f.zero (s != t), 0)
    else
      let k := 2 * f.fb + 8 + bitLen n
      let q := m * 2 ^ k / n
      f.round rm (s != t) q (e - g - (k : Int)) (m * 2 ^ k % n != 0)

/-- The integer square root, bit by bit. -/
def isqrt (bits n : Nat) : Nat :=
  (List.range bits).reverse.foldl (fun r i =>
    let c := r + 2 ^ i
    if c * c ≤ n then c else r) 0

/-- The square root in a format, correctly rounded, of a finite non-negative value. -/
def Fmt.sqrt (f : Fmt) (m : Nat) (e : Int) : Nat × Flags :=
  -- an even exponent, and at least 2 * fb + 6 bits
  let k0 := 2 * f.fb + 8
  let k := if (e - (k0 : Int)) % 2 == 0 then k0 else k0 + 1
  let n := m * 2 ^ k
  let r := isqrt (f.fb + 40) n
  f.round .rne false r ((e - (k : Int)) / 2) (r * r != n)

end Sys2Proof.Machine
end

