-- ==== Sys2Proof/Machine/Flags.lean ====
section
/-! DEFINITION. The modes and the flags of a wave: %fpcr (Table 4-2), the exception that an instruction
raises (R95), and the carries of the add and subtract chains (R70). -/

namespace Sys2Proof.Machine

/-- The rounding mode. -/
def Wave.rm (w : Wave) : Rm := Rm.ofBits (w.fpcr.extractLsb' 0 2).toNat
/-- Flush to zero (R90). -/
def Wave.ftz (w : Wave) : Bool := w.fpcr.getLsbD 2

/-- The bits of %fpcr that hold a value (Table 4-2). -/
def fpcrMask : Word := 0x3F07

/-- The flags that trap. -/
def enabledFlags (fpcr : Word) (f : Flags) : Flags := f &&& fpcr.extractLsb' 8 6

/-- Flags of several lanes together. -/
def allFlags (fl : List (Nat × Flags)) : Flags := fl.foldl (fun m x => m ||| x.2) 0

/-- The exception that flags raise, if one is enabled (R95, Table 4-4). -/
def fpExc (fpcr : Word) (fl : List (Nat × Flags)) (lcls : Bool) (pc : DWord) : Option FpExc :=
  let all := enabledFlags fpcr (allFlags fl)
  match (List.range 6).find? fun k => all.getLsbD k with
  | none => none
  | some k => some
      { cause := 0x380 + BitVec.ofNat 10 k
        lcls
        more := (List.range 6).any fun j => j != k && all.getLsbD j
        lanes := maskOf fun l => fl.any fun x => x.1 == l && (enabledFlags fpcr x.2).getLsbD k
        pc }

/-- ADDC: sum and carry out (R70). -/
def addCarry (a b : Word) (c : Bool) : Word × Bool :=
  let n := a.toNat + b.toNat + (if c then 1 else 0)
  (BitVec.ofNat 32 n, Nat.ble (2 ^ 32) n)

/-- SUBB: difference and borrow out (R70). -/
def subBorrow (a b : Word) (c : Bool) : Word × Bool :=
  let n := b.toNat + (if c then 1 else 0)
  (BitVec.ofNat 32 (a.toNat + 2 ^ 33 - n), Nat.blt a.toNat n)

end Sys2Proof.Machine
end

