-- ==== Sys2Proof/Config.lean ====
section
/-! DEFINITION. The values that the spec leaves open, as constants with no body: a statement about one
of them holds for every value. -/

namespace Sys2Proof.Config

/-- The results of the special functions that Table 4-13 bounds and does not fix (log entry 10).
The code is FN of SFN. A result outside the bound is never used. -/
opaque sfn : Nat → Word → Word

/-- A byte that a read of a host or peer window returns: the count of the free value and the physical
address (log entry 12). -/
opaque windowByte : Nat → Nat → Byte

/-- A 32-bit value that the spec leaves open, by the count of the free value (log entry 4). -/
opaque freeWord : Nat → Word

/-- SHA3-512 over bytes, named and not defined by R450 (log entry 13). -/
opaque sha3 : List Byte → BitVec 512

/-- ML-DSA-87 verification: public key, digest, signature (R450; log entry 13). -/
opaque mldsaVerify : List Byte → BitVec 512 → List Byte → Bool

/-- ML-DSA-87 signature by the device identity key (R451; log entry 13). -/
opaque mldsaSign : List Byte → List Byte

/-- The chain of certificate slot 0 (R451; log entry 13). -/
opaque certChain : List Byte

/-- The UALink port stands behind a switch, and not in a directly joined pair of the ids 0 and 1 (R443; log entry 105). -/
opaque linkSwitched : Bool

/-- A byte of a group header and of the state of a wave block in a save region: the fields that Table 17-9 names, in its order,
and the number of the byte. The spec gives them no places (R406; log entry 110). -/
opaque saveHeader : List Nat → Nat → Byte
opaque saveState : List Nat → Nat → Byte

/-- A nonce of a CHALLENGE answer (R451; log entry 13). -/
opaque spdmNonce : Nat → BitVec 256

end Sys2Proof.Config
end

