-- ==== Sys2Proof/Machine/Translate.lean ====
section
/-! DEFINITION. Translation of virtual addresses (R251 to R255), the physical windows (R438), and the
fault records and messages (R263). -/

namespace Sys2Proof.Machine

/-! ## Physical addresses -/

/-- Device memory (R185). -/
def inDev (pa : Nat) : Bool := Nat.blt pa 0x2000000000
/-- The host window (Table 22-1). -/
def inHost (pa : Nat) : Bool := Nat.ble 0x200000000000 pa && Nat.blt pa 0x300000000000
/-- The slice window (R185). -/
def inSlice (pa : Nat) : Bool := Nat.ble 0x3F0000000000 pa && Nat.blt pa 0x3F0005000000
/-- The eight peer windows (Table 22-1). -/
def inPeers (pa : Nat) : Bool :=
  Nat.ble 0x300000000000 pa && Nat.blt pa 0x380000000000 &&
    Nat.blt ((pa - 0x300000000000) % 0x10000000000) 0x2000000000

/-- The way of a slice-window byte: 8 * cluster + k (R185). -/
def wayOf (pa : Nat) : Nat := (pa - 0x3F0000000000) / 0x20000

/-- The home slice and the set of a physical address (R187). -/
def homeOf (pa : Nat) : Nat × Nat :=
  if inSlice pa then (wayOf pa / 8, (pa - 0x3F0000000000) % 0x20000 / 256)
  else
    let l := pa / 256 % 2 ^ 38
    let h := Nat.xor (Nat.xor l (l / 2 ^ 13)) (l / 2 ^ 26)
    (h % 80, h / 80 % 512)

/-- The memory port of a physical address (R187). -/
def portOf (pa : Nat) : Nat :=
  Nat.xor (Nat.xor (pa / 2 ^ 8 % 16) (pa / 2 ^ 12 % 16)) (pa / 2 ^ 16 % 16)

/-! ## Entries -/

/-- The upper bits are bit 56 sign-extended (R183). -/
def canonical (va : DWord) : Bool := va == (va.extractLsb' 0 57).signExtend 64

/-- log2 of the page size (Table 11-1). -/
def TlbE.shift (e : TlbE) : Nat :=
  match e.size with
  | 0 => 12
  | 1 => 16
  | 2 => 21
  | _ => 30

/-- The 57 bits of a VA that pages divide. -/
def va57 (va : DWord) : Nat := va.toNat % 2 ^ 57

/-- The page of an entry holds a VA. -/
def TlbE.covers (e : TlbE) (va : DWord) : Bool :=
  va57 va / 2 ^ e.shift == e.vpn * 4096 / 2 ^ e.shift

/-- An entry answers an access of a context (R251). -/
def TlbE.hits (e : TlbE) (asid : Nat) (va : DWord) : Bool :=
  (e.g || e.asid == asid) && e.covers va

/-- The physical page of an entry: its base and its size. -/
def TlbE.range (e : TlbE) : Nat × Nat := (e.pfn * 4096 / 2 ^ e.shift * 2 ^ e.shift, 2 ^ e.shift)

/-- The physical address of a VA through an entry. -/
def TlbE.pa (e : TlbE) (va : DWord) : Nat := e.range.1 + va57 va % 2 ^ e.shift

/-- The set of the cluster L2 TLB that an entry lies in (R253). -/
def TlbE.set (e : TlbE) : Nat := Nat.xor (e.vpn * 4096 / 2 ^ e.shift) e.asid % 512

/-- The rights that an access needs (R255). -/
structure Need where
  r : Bool := false
  w : Bool := false
  x : Bool := false
  deriving DecidableEq, Repr

/-- What translation gives: an address and the CACHE attribute, a fault message of a kind of Table
11-5, or a violation (R263, R402). -/
inductive Tr where
  | ok (pa cache : Nat)
  | miss (kind : Nat)
  | viol (cause : Cause)
  deriving DecidableEq, Repr

/-- What an entry gives an access: MIG, rights, A and D (R254, R255), then the window (R438). -/
def TlbE.give (e : TlbE) (n : Need) (va : DWord) : Tr :=
  if e.mig then .miss 0
  else if (n.r && !e.r) || (n.w && !e.w) || (n.x && !e.x) then .viol 0x102
  else if !e.a then .miss 1
  else if n.w && !e.d then .miss 2
  else
    let pa := e.pa va
    if inDev pa || inSlice pa then .ok pa e.cache
    else if (inHost pa || inPeers pa) && e.cache == 2 then .ok pa e.cache
    else .viol 0x102

/-! ## First-level sets -/

/-- The sets of the i-th of n resident groups: the first set and their number (R252). -/
def setRange (n i : Nat) : Nat × Nat :=
  if Nat.ble n 16 then
    let m := 16 % n
    let k := 16 / n
    (k * i + (if Nat.blt i m then i else m), if Nat.blt i m then k + 1 else k)
  else (i % 16, 1)

/-- The resident groups of a core, by ascending group slot. -/
def State.groupSlots (s : State) (c : Nat) : List Nat :=
  (List.range 32).filter fun g => s.groups.any fun x => x.at c g

/-- The set of a first-level TLB that an access uses (R252). -/
def tlbSet (slots : List Nat) (gslot : Nat) (va : DWord) : Nat :=
  match slots.findIdx? fun g => g == gslot with
  | none => 0
  | some i =>
    let (b, k) := setRange slots.length i
    b + Nat.xor (va57 va / 2 ^ 12 % 512) (va57 va / 2 ^ 21 % 512) % k

/-- The groups that own a set. -/
def setOwners (slots : List Nat) (set : Nat) : List Nat :=
  slots.filter fun g =>
    match slots.findIdx? fun h => h == g with
    | none => false
    | some i => let (b, k) := setRange slots.length i; Nat.ble b set && Nat.blt set (b + k)

/-- Shares the sets out again after the groups of a core have changed (R252). -/
def State.reshare (s : State) (c : Nat) (old : List Nat) : State :=
  let new := s.groupSlots c
  s.modCore c fun x => { x with tlb := x.tlb.filter fun e => setOwners old e.1 == setOwners new e.1 }

/-- Puts an entry into a first-level set of 8 ways, most recent first (R252, R253). -/
def fillSet (tlb : List (Nat × TlbE)) (set : Nat) (e : TlbE) : List (Nat × TlbE) :=
  let mine := tlb.filter fun x => x.1 == set
  let drop (x : Nat × TlbE) := (set, e) :: tlb.filter fun y => y != x
  if Nat.blt mine.length 8 then (set, e) :: tlb
  else match (mine.filter fun x => !x.2.lock || e.lock).getLast? with
    | some x => drop x
    | none => tlb

/-- The cache that an access meets before the cluster L2 TLB (R251): the first-level TLB of a SIMT core for a group, the
store of a unit of the core or of the MXE of the cluster, or none, for a service core (R256). -/
inductive Via where
  | group (gslot : Nat)
  | fetch
  | copy
  | trav
  | mxe
  | none
  deriving DecidableEq, Repr

/-- The core with which a cache is kept, and the set that an access uses (R252; log entry 18). -/
def State.cacheOf (s : State) (core : Nat) (via : Via) (va : DWord) : Option (Nat × Nat) :=
  match via with
  | .group g => some (core, tlbSet (s.groupSlots core) g va)
  | .fetch => some (core, 16)
  | .copy => some (core, 17)
  | .trav => some (core, 18)
  | .mxe => some (2 * clusterOf core, 19)
  | .none => Option.none

/-- Looks a VA up in the cache that the access meets first, then in the cluster L2 TLB, filling the level before it
(R251). -/
def State.lookup (s : State) (core : Nat) (via : Via) (asid : Nat) (va : DWord) : Option TlbE × State :=
  let cl := clusterOf core
  let l2 (s : State) : Option TlbE × State :=
    match (s.cluster cl).tlb.find? fun e => e.hits asid va with
    | some e => (some e, s.modCluster cl fun x => { x with tlb := e :: x.tlb.filter fun y => y != e })
    | none => (none, s)
  match s.cacheOf core via va with
  | none => l2 s
  | some (home, set) =>
    match (s.core home).tlb.find? fun x => x.1 == set && x.2.hits asid va with
    | some x =>
      (some x.2, s.modCore home fun c => { c with tlb := x :: c.tlb.filter fun y => y != x })
    | none =>
      match l2 s with
      | (some e, s) => (some e, s.modCore home fun c => { c with tlb := fillSet c.tlb set e })
      | r => r

/-- A peer id can be reached: the link is up, the id is not that of the device itself, and in a directly joined pair it
is 0 or 1 (R443; log entry 105). -/
def State.reachable (s : State) (id : Nat) : Bool :=
  s.linkUp && id != s.peerId && (Nat.ble id 1 || (Nat.ble id 7 && Config.linkSwitched))

/-- An address of a peer window can be reached (R443); true elsewhere. -/
def State.peerUp (s : State) (pa : Nat) : Bool :=
  !inPeers pa || s.reachable ((pa - 0x300000000000) / 2 ^ 40)

/-- An access to a way of a cluster of another partition is a violation (Table 17-1), and so is one to a peer that
cannot be reached (R443). -/
def State.crossPart (s : State) (core : Nat) (t : Tr) : Tr :=
  match t with
  | .ok pa c =>
    if inSlice pa && s.partAt (wayOf pa / 8) != s.partAt (clusterOf core) then .viol 0x106
    else if !s.peerUp pa then .viol 0x102
    else .ok pa c
  | t => t

/-- An atomic acts on device memory or the slice window alone, whatever else would be wrong with its address (R214). -/
def Tr.atomicAt (t : Tr) (atomic : Bool) : Tr :=
  match t with
  | .ok pa c => if atomic && !(inDev pa || inSlice pa) then .viol 0x144 else .ok pa c
  | t => t

/-- Translates one access. A service core uses the cluster L2 TLB of its router (R256). -/
def State.translate (s : State) (core : Nat) (via : Via) (asid : Nat) (n : Need) (va : DWord)
    (atomic : Bool := false) : Tr × State :=
  if !canonical va then (.viol 0x101, s)
  else
    match s.lookup core (if isService core then .none else via) asid va with
    | (none, s) => (.miss 0, s)
    | (some e, s) => (s.crossPart core ((e.give n va).atomicAt atomic), s)

/-- The translation of an access that must leave nothing behind: prefetches and the fault unit. -/
def State.peek (s : State) (cl asid : Nat) (n : Need) (va : DWord) : Option Nat :=
  if !canonical va then none
  else match (s.cluster cl).tlb.find? fun e => e.hits asid va with
    | some e => match e.give n va with
      | .ok pa _ => some pa
      | _ => none
    | none => none

/-- Two entries translate the same page of one context. -/
def TlbE.same (x e : TlbE) : Bool := x.asid == e.asid && x.size == e.size && x.vpn == e.vpn

/-- Puts an entry into the cluster L2 TLB, in the place of the one of its page: least recently used unlocked entries leave
(R253). A LOCK entry leaves only by TLBI: what takes its place is a LOCK entry (log entry 95). -/
def installTlb (tlb : List TlbE) (e : TlbE) : List TlbE :=
  let e := if tlb.any fun x => x.lock && x.same e then { e with lock := true } else e
  let rest := tlb.filter fun x => !x.same e
  let mine := rest.filter fun x => x.set == e.set
  if Nat.blt mine.length 8 then e :: rest
  else match (mine.filter fun x => !x.lock).getLast? with
    | some x => e :: rest.filter fun y => y != x
    | none => rest

/-! ## Fault records -/

/-- Where the records of a master are kept. -/
def recHome (core : Nat) : Nat := if isService core then 2 * clusterOf core else core

/-- Records of a source at a core (R263, R326, R387). -/
def recLimit (src : Nat) : Nat :=
  match src with
  | 0 => 64
  | 1 => 128
  | 2 => 64
  | _ => 16

/-- A free record index. -/
def State.freeRec (s : State) (core src : Nat) : Option Nat :=
  (List.range (recLimit src)).find? fun i =>
    !(s.core (recHome core)).recs.any fun r => r.src == src && r.idx == i

/-- The mask of the lanes of accesses. -/
def accLanes (l : List Acc) : Lanes := maskOf fun i => l.any fun a => a.lane == i

/-- The access of the lowest lane. -/
def lowestAcc : List Acc → Option Acc
  | [] => none
  | a :: t => match lowestAcc t with
    | some b => some (if Nat.blt b.lane a.lane then b else a)
    | none => some a

/-- The message of Table 11-5. -/
def faultMessage (r : FRec) (kind : Nat) : List Byte :=
  let va : DWord := match lowestAcc r.accs with
    | some a => a.va
    | none => 0
  let tok := recHome r.core % 2 + 2 * r.idx + 256 * r.src + 2 ^ 31
  let wave := r.src == 0
  bytesLE 8 va.toNat ++ bytesLE 2 r.asid ++ [BitVec.ofNat 8 kind, BitVec.ofNat 8 r.access] ++
  bytesLE 4 tok ++ bytesLE 4 (if wave then (accLanes r.accs).toNat else 0) ++
  [BitVec.ofNat 8 (r.gslot % 32), BitVec.ofNat 8 (r.slot % 128)] ++ bytesLE 2 0 ++
  bytesLE 8 (if wave then r.pc.toNat else 0)

/-- Posts the message of a record to the SVC of its cluster (R263). -/
def State.postRec (s : State) (r : FRec) (kind : Nat) : State :=
  s.inject (160 + clusterOf r.core) r.core r.slot r.asid
    (.mail 3 r.core r.slot r.asid (faultMessage r kind))

/-- Keeps a record and posts its message. -/
def State.addRec (s : State) (r : FRec) (kind : Nat) : State :=
  (s.modCore (recHome r.core) fun c => { c with recs := c.recs ++ [r] }).postRec r kind

def FRec.is (r : FRec) (src idx : Nat) : Bool := r.src == src && r.idx == idx

/-- A record of a core, by source and index. -/
def State.rec? (s : State) (core src idx : Nat) : Option FRec :=
  (s.core core).recs.find? fun r => r.is src idx

/-- Removes a record. -/
def State.dropRec (s : State) (core src idx : Nat) : State :=
  s.modCore core fun c => { c with recs := c.recs.filter fun r => !r.is src idx }

/-- Replaces a record. -/
def State.setRec (s : State) (core : Nat) (r : FRec) : State :=
  s.modCore core fun c => { c with recs := c.recs.map fun x => if x.is r.src r.idx then r else x }

/-- The records of a wave (R264). -/
def State.recsOf (s : State) (w : Wave) : List FRec :=
  (s.core (recHome w.core)).recs.filter fun r => r.src == 0 && r.core == w.core && r.slot == w.slot

/-- A wave has a faulted access that is not replayed (R264). -/
def State.faulted (s : State) (w : Wave) : Bool :=
  !w.behind.isEmpty || (s.recsOf w).any fun r => !r.frozen

end Sys2Proof.Machine
end

