-- ==== Sys2Proof/Machine/Memory.lean ====
section
/-! DEFINITION. Memory by physical address: the home banks, the L2 tags (R188), the watch list (R350),
the L1 (R186), asynchronous records (R399) and ordered reductions (R223). Group-local memory has
addresses of its own above 2^50, so that one set of rules orders every access. -/

namespace Sys2Proof.Machine

/-- The base of a group's local memory in the model's addresses. -/
def localBase (core gslot : Nat) : Nat := 2 ^ 50 + core * 2 ^ 26 + gslot * 2 ^ 20
def inLocal (pa : Nat) : Bool := Nat.ble (2 ^ 50) pa
/-- The core, the group slot and the offset of a group-local address. -/
def localOf (pa : Nat) : Nat × Nat × Nat :=
  ((pa - 2 ^ 50) / 2 ^ 26, (pa - 2 ^ 50) / 2 ^ 20 % 64, pa % 2 ^ 20)

/-- The n bytes from an address. -/
def Memory.read (m : Memory) (a n : Nat) : List Byte := (List.range n).map fun i => Tab.get 0 m (a + i)

/-- Writes bytes from an address on. -/
def Memory.write (m : Memory) (a : Nat) : List Byte → Memory
  | [] => m
  | b :: t => Memory.write (Tab.put 0 m a b) (a + 1) t

/-- Two ranges share a byte. -/
def overlaps (a n b k : Nat) : Bool := Nat.blt a (b + k) && Nat.blt b (a + n)

/-! ## L2 tags -/

/-- The sectors of a 256-byte line that a range touches. -/
def sectorsOf (pa n : Nat) : BitVec 8 :=
  (List.range 8).foldl (fun m i =>
    if overlaps pa n (pa / 256 * 256 + 32 * i) 32 then m ||| BitVec.ofNat 8 (2 ^ i) else m) 0

/-- Chunks that the non-zero words of the valid sectors of a line take (R188). -/
def chunksOf (m : Memory) (t : Tag) : Nat :=
  let z := ((List.range 64).filter fun w =>
    t.valid.getLsbD (w / 8) && (m.read (256 * t.line + 4 * w) 4).any fun b => b != 0).length
  (z + 7) / 8

/-- Removes the last line other than `keep` until tags and chunks suffice (R188). Dirty sectors of an
evicted line are written to device memory, which changes no byte that a read returns. -/
def evictFor (m : Memory) (keep maxTags maxChunks : Nat) : Nat → List Tag → List Tag
  | 0, l => l
  | n + 1, l =>
    if Nat.ble l.length maxTags &&
        (Nat.ble (8 * l.length) maxChunks || Nat.ble ((l.map (chunksOf m)).foldl (· + ·) 0) maxChunks)
    then l
    else match (l.filter fun t => t.line != keep).getLast? with
      | some t => evictFor m keep maxTags maxChunks n (l.filter fun u => u.line != t.line)
      | none => l

/-- Locked ways of a slice (R189). -/
def State.lockedWays (s : State) (cl : Nat) : Nat :=
  ((List.range 8).filter fun k => Tab.get 0 s.locks (8 * cl + k) != 0).length

/-- An access to one line at its home slice: the tag becomes the most recently used one of its set, a
sector miss joins the merge window of its line that is open, for 16 cycles, or opens one (R188, R190). -/
def State.touchLine (s : State) (pa n : Nat) (write : Bool) : State :=
  let (cl, set) := homeOf pa
  let line := pa / 256
  let sec := sectorsOf pa n
  let c := s.cluster cl
  let old := match c.tags.find? fun t => t.line == line with
    | some t => t
    | none => ⟨line, 0, 0⟩
  let new : Tag := ⟨line, old.valid ||| sec, if write then old.dirty ||| sec else old.dirty⟩
  let (mine, rest) := c.tags.partition fun t => (homeOf (256 * t.line)).2 == set
  let l := s.lockedWays cl
  let mine := evictFor s.mem line (32 - 2 * l) (128 - 8 * l) 64
    (new :: mine.filter fun t => t.line != line)
  let s := s.setCluster cl { c with tags := mine ++ rest }
  let miss := sec &&& ~~~old.valid
  if miss == 0 then s
  else
    let port := portOf pa
    let here (w : Window) : Bool := w.port == port && w.line == line && Nat.blt s.clock (w.opened + 16)
    if s.windows.any here then
      { s with windows := s.windows.map fun w => if here w then { w with sectors := w.sectors ||| miss } else w }
    else { s with windows := s.windows ++ [⟨port, line, s.clock, miss⟩] }

/-- An access at the home banks, line by line. -/
def State.touch (s : State) (pa n : Nat) (write : Bool) : State :=
  if inDev pa then
    (List.range ((pa + n - 1) / 256 - pa / 256 + 1)).foldl (fun s i =>
      let lo := if i == 0 then pa else (pa / 256 + i) * 256
      let hi := if Nat.blt (pa + n) ((pa / 256 + i + 1) * 256) then pa + n else (pa / 256 + i + 1) * 256
      s.touchLine lo (hi - lo) write) s
  else s

/-! ## The banks -/

/-- A read consumes poisoned bytes for a context (R407). -/
def State.consume (s : State) (asid pa n : Nat) : State :=
  if s.poison.any fun a => overlaps pa n a 1 then s.modCtx asid fun c => { c with soft := true } else s

/-- The bytes at an address, wherever it lies; a window of the host or a peer gives free values (log
entry 12). -/
def State.place (s : State) (pa n : Nat) : List Byte × State :=
  if inLocal pa then
    let (c, g, off) := localOf pa
    match s.group? c g with
    | some x => (x.loc.read off n, s)
    | none => (List.replicate n 0, s)
  else if inDev pa || inSlice pa then (s.mem.read pa n, s)
  else
    let (k, s) := s.freshFree
    ((List.range n).map fun i => Config.windowByte k (pa + i), s)

/-- A read made at the home bank. -/
def State.bankRead (s : State) (asid pa n : Nat) : List Byte × State :=
  ((s.consume asid pa n).touch pa n false).place pa n

/-- The record of a delta slot (Table 15-1). -/
def DSlot.record (d : DSlot) (asid : Nat) : List Byte :=
  let fl : Nat := (if d.valid then 1 else 0) + (if d.bound then 6 else 0)
  bytesLE 4 d.layer.toNat ++ bytesLE 2 asid ++ bytesLE 2 d.version.toNat ++ bytesLE 8 d.wva.toNat ++
  bytesLE 8 d.wbytes.toNat ++ bytesLE 8 d.xva.toNat ++ bytesLE 8 d.yva.toNat ++ bytesLE 4 d.n ++ bytesLE 4 d.m ++
  bytesLE 4 d.step.toNat ++ bytesLE 2 d.p ++ bytesLE 2 d.count ++ bytesLE 2 d.clamp ++ bytesLE 2 fl ++
  [BitVec.ofNat 8 d.wfmt, BitVec.ofNat 8 d.reason, 0, 0] ++ bytesLE 8 d.runs.toNat ++ bytesLE 8 d.refreshes.toNat ++
  bytesLE 8 d.gskip.toNat ++ bytesLE 8 d.gtotal.toNat ++ bytesLE 8 d.clamped.toNat ++ bytesLE 4 d.winv.toNat ++
  bytesLE 20 0

/-- Writes a slot record to the reuse area of its context, unless an MXE caches it (R336, R339). -/
def State.mirrorSlot (s : State) (key : Nat) : State :=
  if s.clusters.any fun e => e.2.dcache.any fun k => k == key then s
  else match s.ctx? (key / 256) with
    | some c => { s with mem := s.mem.write (c.reuse + 128 * (key % 256)) ((Tab.get {} s.slots key).record (key / 256)) }
    | none => s

/-- Changes a slot record. -/
def State.putSlot (s : State) (key : Nat) (d : DSlot) : State :=
  { s with slots := Tab.put {} s.slots key d }.mirrorSlot key

/-- The slots that lie partly in a watched range which a test selects lose VALID, and WINV increases, once for
each range (R350). -/
def State.invalidate (s : State) (sel : Nat × Nat → Bool) : State :=
  s.slots.foldl (fun s e =>
    let k := (e.2.ranges.filter sel).length
    if k == 0 then s
    else s.putSlot e.1 { e.2 with valid := false, winv := e.2.winv + BitVec.ofNat 32 k }) s

/-- The watch list: for each watched range that a write touches, the slots bound to it are invalidated (R350). -/
def State.watchHit (s : State) (pa n : Nat) : State := s.invalidate fun r => overlaps pa n r.1 r.2

/-- A write that leaves the device: to a peer in requests of up to 256 bytes (R443). -/
def leaves (pa : Nat) (bytes : List Byte) : List Outgoing :=
  if inPeers pa && Nat.blt 256 bytes.length then
    (List.range ((bytes.length + 255) / 256)).map fun i => .hostWrite (pa + 256 * i) ((bytes.drop (256 * i)).take 256)
  else [.hostWrite pa bytes]

/-- A write performed at its place, without the ordered-reduction check. -/
def State.rawWrite (s : State) (pa : Nat) (bytes : List Byte) : State :=
  if inLocal pa then
    let (c, g, off) := localOf pa
    s.modGroup c g fun x => { x with loc := x.loc.write off bytes }
  else if inDev pa || inSlice pa then
    let s := if s.slots.isEmpty then s else s.watchHit pa bytes.length
    let s := { s with mem := s.mem.write pa bytes }
    let s := if s.poison.isEmpty then s
      else { s with poison := s.poison.filter fun a => !overlaps pa bytes.length a 1 }
    s.touch pa bytes.length true
  else { s with out := s.out ++ leaves pa bytes }

/-! ## The default tables -/

/-- A table entry of Table 11-2. -/
def State.tableEntry (s : State) (pa : Nat) : Nat := leNat (s.mem.read pa 8)

/-- An access of a CACHE attribute may go to a physical address: device memory, the slice window, or a window of the host or
of a peer, which must be mapped UC (R255, R438). -/
def reaches (pa cache : Nat) : Bool := inDev pa || inSlice pa || ((inHost pa || inPeers pa) && cache == 2)

/-- The walk of R257 from a root: the physical address that a VA maps to for a right (bit 2 R, 3 W,
4 X of the leaf), where it may be reached (R255). The levels still to read are given by the shifts. -/
def State.walk (s : State) (right : Nat) (va : DWord) : List Nat → Nat → Option Nat
  | [], _ => none
  | sh :: t, table =>
    let bits := if sh == 39 then 18 else 9
    let e := s.tableEntry (table + 8 * (va57 va / 2 ^ sh % 2 ^ bits))
    let pa := e / 2 ^ 12 % 2 ^ 34 * 4096
    if e % 2 == 0 || e / 2 ^ 46 % 2 == 1 then none
    else if sh == 12 || (e / 2 % 2 == 1 && sh != 39) then
      let at_ := pa / 2 ^ sh * 2 ^ sh + va57 va % 2 ^ sh
      (if e / 2 ^ right % 2 == 1 && reaches at_ (e / 2 ^ 8 % 4) then some at_ else none)
    else s.walk right va t pa

/-- The physical address of a VA of a context by its default tables (log entry 22). -/
def State.walkCtx (s : State) (asid right : Nat) (va : DWord) : Option Nat :=
  match s.ctx? asid with
  | none => none
  | some c => if canonical va then s.walk right va [39, 30, 21, 12] c.root else none

/-- A slice-window address whose way is locked for the context (R196); true elsewhere. -/
def State.windowOk (s : State) (asid pa : Nat) : Bool :=
  !inSlice pa || Tab.get 0 s.locks (wayOf pa) == asid + 1

/-- The physical address of a VA of a context by its default tables, where an access of the device for the context may be
made: the peer can be reached, and a slice way is locked for the context (R196, R443). -/
def State.walkTo (s : State) (asid right : Nat) (va : DWord) : Option Nat :=
  (s.walkCtx asid right va).filter fun pa => s.peerUp pa && s.windowOk asid pa

/-- The physical 4 KiB page of a VA of a context, whatever its rights: by the TLB of the cluster, or by the default
tables. -/
def State.pageOf (s : State) (cl asid : Nat) (va : DWord) : Option Nat :=
  match (s.cluster cl).tlb.find? fun e => e.hits asid va with
  | some e => some (e.pa va / 4096)
  | none => (s.walkCtx asid 0 va).map fun pa => pa / 4096

/-- An earlier access of the wave to the same 4 KiB page is not replayed (R264): by its VA, or by the physical page that
the two addresses name (R269). -/
def State.pageHeld (s : State) (w : Wave) (va : DWord) : Bool :=
  let page (a : DWord) : Option Nat := s.pageOf (clusterOf w.core) (s.asidOf w) a
  let same (a : Acc) : Bool :=
    a.va.toNat / 4096 == va.toNat / 4096 || ((page a.va).isSome && page a.va == page va)
  w.behind.any same || (s.recsOf w).any fun r => !r.frozen && r.accs.any same

/-! ## Asynchronous records -/

/-- The fields of Table 17-5. -/
structure Async where
  asid : Nat
  cause : Cause
  engine : Nat
  frozen : Bool := false
  gslot : Nat := 0xFF
  slot : Nat := 0xFF
  core : Nat := 0xFFFF
  lid : Nat := 0
  pc : DWord := 0
  addr : DWord := 0
  detail : DWord := 0
  image : Option (List Byte) := none
  /-- The number of the operation, which tells its group from the others that have had the slot (R401). -/
  op : Nat := 0
  deriving DecidableEq, Repr

/-- The first 64 bytes of an entry (Table 17-5). -/
def Async.bytes (a : Async) (resident : Bool) (seq clock : Nat) : List Byte :=
  let fl : Nat := (if a.frozen then 1 else 0) + (if resident then 2 else 0) +
    (if a.image.isSome then 4 else 0)
  bytesLE 2 a.cause.toNat ++ [BitVec.ofNat 8 a.engine, BitVec.ofNat 8 fl] ++ bytesLE 2 a.asid ++
  [BitVec.ofNat 8 a.gslot, BitVec.ofNat 8 a.slot] ++ bytesLE 2 a.core ++ bytesLE 2 0 ++
  bytesLE 4 a.lid ++ bytesLE 8 a.pc.toNat ++ bytesLE 8 a.addr.toNat ++ bytesLE 8 a.detail.toNat ++
  bytesLE 4 seq ++ bytesLE 4 0 ++ bytesLE 8 clock ++ bytesLE 8 0

/-- %astat of a wave takes a record (Table 17-6). -/
def Wave.addAstat (w : Wave) (cause : Cause) : Wave :=
  let c := w.astat % 1024
  let n := w.astat.toNat / 65536
  let n := if n == 0xFFFF then n else n + 1
  { w with astat := (if c == 0 then cause.setWidth 32 else c) ||| BitVec.ofNat 32 (n * 65536) }

/-- A group is the one that issued the operation of a record: it has the slot, and the operation came after its start. -/
def Async.from_ (a : Async) (g : Group) : Bool := g.at a.core a.gslot && g.asid == a.asid && Nat.ble g.gid a.op

/-- The saved group that issued the operation of a record, which came before the save, or which names it by its saved slot. -/
def Async.savedFrom (a : Async) (v : Saved) (g : Group) : Bool :=
  (a.from_ g && Nat.blt a.op v.id) || (g.core == a.core && g.asid == a.asid && v.away g.gslot == a.gslot)

/-- %astat of the waves of a record's group takes it, where they stand or where they are saved (R401). -/
def State.noteAsync (s : State) (a : Async) (resident : Bool) : State :=
  if resident then
    { s with waves := s.waves.map fun w => if w.core == a.core && w.gslot == a.gslot then w.addAstat a.cause else w }
  else { s with saved := s.saved.map fun v =>
      { v with waves := v.waves.map fun w =>
          if v.groups.any fun g => g.at w.core w.gslot && a.savedFrom v g then w.addAstat a.cause else w } }

/-- A record at the next entry of a context's queue: its bytes, PROD and the sequence number, and the
interrupt message. -/
def State.putRecord (s : State) (c : Ctx) (pa : Nat) (body : List Byte) : State :=
  let s := (s.rawWrite pa body).setCtx
    { c with prod := (c.prod + 1) % 2 ^ 32, recSeq := (c.recSeq + 1) % 2 ^ 32 }
  { s with out := s.out ++ [.msix c.slot] }

/-- Writes an asynchronous record: the entry, then PROD, the notification of the driver, and %astat of
the issuing group (R399 to R401). -/
def State.postAsync (s : State) (a : Async) : State :=
  let resident := s.groups.any a.from_
  let s := s.noteAsync a resident
  match s.ctx? a.asid with
  | none => s
  | some c =>
    let lost := s.setCtx { c with lost := (c.lost + 1) % 2 ^ 32 }
    if (c.prod + 2 ^ 32 - c.cons) % 2 ^ 32 == 2 ^ c.afqlog then lost
    else
      match s.walkTo a.asid 3 (c.afqbase + BitVec.ofNat 64 (128 * (c.prod % 2 ^ c.afqlog))) with
      | none => lost
      | some pa =>
        s.putRecord c pa (a.bytes resident c.recSeq s.clock ++
          (match a.image with
            | some i => (i ++ List.replicate 64 0).take 64
            | none => List.replicate 64 0))

/-! ## Ordered reductions -/

/-- The bank of a physical address (R187). -/
def bankOf (pa : Nat) : Nat := (homeOf pa).2 % 8

/-- Bytes of a header that a poison writes (R223): STATE 2, CAUSE, REMAIN 0. -/
def State.orePoison (s : State) (pa : Nat) (cause : Cause) : State :=
  let cl := (homeOf pa).1
  let b := s.mem.read pa 64
  let b := patch (patch (patch b 17 [2]) 20 (bytesLE 4 cause.toNat)) 12 (bytesLE 4 0)
  let s := s.rawWrite pa b
  s.modCluster cl fun c => { c with
    ore := c.ore.filter fun o => o.pa != pa
    oreHeld := c.oreHeld.filter fun h => h.pa != pa }

/-- A record of the ordered-reduction engine, of a contribution of instruction `op`. -/
def State.oreReport (s : State) (asid : Nat) (cause : Cause) (va : DWord) (core slot gslot i op : Nat) :
    State :=
  let lid := match s.group? core gslot with
    | some g => g.lid
    | none => 0
  s.postAsync { asid, cause, engine := 6, gslot, slot, core, lid, addr := va,
                detail := BitVec.ofNat 64 i, op }

/-- A write performed at its home bank (R237): a write of another agent to the header of an active
object poisons it after it has taken effect (R223). -/
def State.bankWrite (s : State) (pa : Nat) (bytes : List Byte) : State :=
  let s := s.rawWrite pa bytes
  if inDev pa || inSlice pa then
    ((s.clusters.map fun c => c.2.ore.filter fun o => overlaps pa bytes.length o.pa 64).flatten).foldl (fun s o =>
      (s.orePoison o.pa 0x222).oreReport o.asid 0x222 o.va 0xFFFF 0xFF 0xFF 0 0) s
  else s

/-- A write of an engine of a core: the lines of its L1 that it makes old are known to the DRAIN of the
engine's path (R200, R246). -/
def State.engineWrite (s : State) (core path pa : Nat) (bytes : List Byte) : State :=
  let s := s.bankWrite pa bytes
  s.modCore core fun c =>
    let old := (c.l1.filter fun e => overlaps pa bytes.length (32 * e.1) 32).map fun e => (path, e.1)
    if old.isEmpty then c else { c with stale := (old ++ c.stale).eraseDups }

/-- The lines that engine writes of a path have made old leave the L1 (R200). Path 7 is every path. -/
def State.acquirePath (s : State) (core path : Nat) : State :=
  s.modCore core fun c =>
    let mine (e : Nat × Nat) : Bool := path == 7 || e.1 == path
    { c with
      l1 := c.l1.filter fun e => !c.stale.any fun x => mine x && x.2 == e.1
      stale := c.stale.filter fun x => !mine x }

/-- RESULT after one contribution (R223): f32, bf16x2 per half, or f64, rounded to nearest. -/
def oreAdd (kind old v : Nat) : Nat :=
  let add (f : Fmt) (x y : Nat) : Nat := (f.add .rne false (f.num x) (f.num y)).1
  match kind with
  | 0 => add f32 (old % 2 ^ 32) (v % 2 ^ 32)
  | 1 => add bf16 (old % 2 ^ 16) (v % 2 ^ 16) +
      2 ^ 16 * add bf16 (old / 2 ^ 16 % 2 ^ 16) (v / 2 ^ 16 % 2 ^ 16)
  | _ => add f64 old v

/-- Merges index NEXT, and then the held ones that follow: RESULT, REMAIN, and the entries left. -/
def oreMerge (kind size pa : Nat) : Nat → Nat → Nat → Nat → List OreHeld → Nat × Nat × List OreHeld
  | 0, r, rem, _, held => (r, rem, held)
  | n + 1, r, rem, v, held =>
    let r := oreAdd kind r v
    let rem := rem - 1
    if rem == 0 then (r, 0, held.filter fun h => h.pa != pa)
    else match held.find? fun h => h.pa == pa && h.index == size - rem with
      | some h => oreMerge kind size pa n r rem h.v.toNat
          (held.filter fun x => !(x.pa == pa && x.index == h.index))
      | none => (r, rem, held)

/-- A contribution at its bank (R223, R224): the state, and whether it was refused. -/
def State.oreContribute (s : State) (core : Nat) (e : SQ) (kind i : Nat) (v : DWord) : Bool × State :=
  let cl := (homeOf e.pa).1
  let (b, s) := s.bankRead e.asid e.pa 64
  let c := s.cluster cl
  let size := fieldNat b 8 4
  let rem := fieldNat b 12 4
  let poison (cause : Cause) : Bool × State :=
    (false, (s.orePoison e.pa cause).oreReport e.asid cause e.va core e.slot e.gslot i e.grp)
  let here := c.ore.any fun o => o.pa == e.pa
  let inBank (pa : Nat) : Bool := bankOf pa == bankOf e.pa
  if fieldNat b 17 1 != 0 then
    (false, s.oreReport e.asid 0x224 e.va core e.slot e.gslot i e.grp)
  else if fieldNat b 16 1 != kind || size == 0 || Nat.blt 65536 size || Nat.blt size rem ||
      fieldNat b 18 2 != 0 || (b.drop 24).any fun x => x != 0 then poison 0x222
  else if Nat.ble size i then poison 0x220
  else if Nat.blt i (size - rem) || c.oreHeld.any fun h => h.pa == e.pa && h.index == i then poison 0x221
  else if !here && Nat.ble 16 (c.ore.filter fun o => inBank o.pa).length then (true, s)
  else
    let active := if here then c.ore else c.ore ++ [⟨e.pa, e.asid, e.va⟩]
    if i != size - rem then
      let mine := c.oreHeld.filter fun h => inBank h.pa
      if Nat.ble 64 mine.length || Nat.ble 16 (mine.filter fun h => h.asid == e.asid).length then (true, s)
      else
        (false, s.setCluster cl { c with
          ore := active, oreHeld := c.oreHeld ++ [⟨e.pa, i, v, e.asid, e.va, core⟩] })
    else
      let (r, rem', held) :=
        oreMerge kind size e.pa (c.oreHeld.length + 1) (fieldNat b 0 8) rem v.toNat c.oreHeld
      let b := patch b 0 (bytesLE 8 r)
      let b := patch b 12 (bytesLE 4 rem')
      let b := if rem' == 0 then patch b 17 [1] else b
      let s := s.setCluster cl { c with
        ore := if rem' == 0 then active.filter fun o => o.pa != e.pa else active, oreHeld := held }
      (false, s.rawWrite e.pa b)

/-! ## Atomic arithmetic -/

/-- Bytes that an operation reads and writes (R216). -/
def AtomOp.size (op : AtomOp) : Nat :=
  match op with
  | .addSi64 => 8
  | _ => 4

/-- A packed 16-bit form (R218). -/
def AtomOp.packed (op : AtomOp) : Bool :=
  match op with
  | .addBf16x2 => true
  | .addF16x2 => true
  | _ => false

/-- The new value of a location (Table 9-1, R215); of a half for the packed forms. -/
def AtomOp.apply (op : AtomOp) (m b cmp : Nat) : Nat :=
  let sm := (BitVec.ofNat 32 m).toInt
  let sb := (BitVec.ofNat 32 b).toInt
  let m32 := m % 2 ^ 32
  let b32 := b % 2 ^ 32
  match op with
  | .addSi32 => (m + b) % 2 ^ 32
  | .addF32 => (f32.add .rne false (f32.num m32) (f32.num b32)).1
  | .addBf16x2 => (bf16.add .rne false (bf16.num (m % 2 ^ 16)) (bf16.num (b % 2 ^ 16))).1
  | .addF16x2 => (f16.add .rne false (f16.num (m % 2 ^ 16)) (f16.num (b % 2 ^ 16))).1
  | .minSi32 => if sm ≤ sb then m32 else b32
  | .maxSi32 => if sb ≤ sm then m32 else b32
  | .minUi32 => if Nat.ble m32 b32 then m32 else b32
  | .maxUi32 => if Nat.ble b32 m32 then m32 else b32
  | .minF32 => (f32.minmax false false (f32.num m32) (f32.num b32)).1
  | .maxF32 => (f32.minmax false true (f32.num m32) (f32.num b32)).1
  | .and => Nat.land m32 b32
  | .or => Nat.lor m32 b32
  | .xor => Nat.xor m32 b32
  | .exch => b32
  | .cas => if m32 == cmp % 2 ^ 32 then b32 else m32
  | .addSi64 => (m + b) % 2 ^ 64

/-- The lanes of a merged RMW one after another, ascending: the final value, and the value that each
lane found (R219). -/
def rmwLanes (op : AtomOp) : Nat → List (Nat × DWord × DWord) → Nat × List (Nat × Nat)
  | m, [] => (m, [])
  | m, (l, b, c) :: t =>
    let r := rmwLanes op (op.apply m b.toNat c.toNat) t
    (r.1, (l, m) :: r.2)

/-! ## L1 -/

/-- A store of a core updates a line that its L1 holds (R186). -/
def l1Store (l1 : List (Nat × List Byte)) (pa : Nat) (bytes : List Byte) : List (Nat × List Byte) :=
  l1.map fun e =>
    if overlaps pa bytes.length (32 * e.1) 32 then (e.1, patch e.2 (pa - 32 * e.1) bytes) else e

/-- A line enters the L1 of 512 sets of 8 ways; a full set gives up the line that it took first (R186; log entry 16). -/
def l1Fill (l1 : List (Nat × List Byte)) (line : Nat) (bytes : List Byte) : List (Nat × List Byte) :=
  match (l1.filter fun e => e.1 % 512 == line % 512).drop 7 with
  | [] => (line, bytes) :: l1
  | out => (line, bytes) :: l1.filter fun e => !out.any fun x => x.1 == e.1

/-- Removes the lines that a range touches. -/
def l1Drop (l1 : List (Nat × List Byte)) (pa n : Nat) : List (Nat × List Byte) :=
  l1.filter fun e => !overlaps pa n (32 * e.1) 32

/-- Invalidates every line of a core's L1. -/
def State.l1Clear (s : State) (core : Nat) : State := s.modCore core fun c => { c with l1 := [] }

end Sys2Proof.Machine
end

