-- ==== Sys2Proof/Machine/Access.lean ====
section
/-! DEFINITION. The load-store unit: when a load takes its value (R195, R231, R233, R237), the store
queue and what must be performed before what (R238, R240), accesses held on fault records (R263 to
R266), violations (R402) and the landing of results (R134). -/

namespace Sys2Proof.Machine

/-! ## What must come before what -/

/-- The bytes that a store-queue entry covers. -/
def SQ.range (e : SQ) : Nat × Nat :=
  match e.kind with
  | .store bs => (e.pa, bs.length)
  | .rmw op half _ _ => (e.pa, if half.isSome then 2 else op.size)
  | .ored _ _ _ _ => (e.pa, 64)
  | .cache _ => (e.pa / 256 * 256, 256)

def SQ.isOred (e : SQ) : Bool :=
  match e.kind with
  | .ored _ _ _ _ => true
  | _ => false

def SQ.isStore (e : SQ) : Bool :=
  match e.kind with
  | .store _ => true
  | _ => false

/-- Two writes of a wave to the host window leave in the order in which they were issued (R439). -/
def SQ.hostOrder (e f : SQ) : Bool := e.slot == f.slot && e.isStore && f.isStore && inHost e.pa && inHost f.pa

/-- Two entries of one core that keep their order. -/
def SQ.clash (e f : SQ) : Bool :=
  e.hostOrder f || (!(e.isOred && f.isOred) && overlaps e.range.1 e.range.2 f.range.1 f.range.2)

/-- A thing to be performed: a store-queue entry, or the loads of an instruction from one address. -/
inductive Todo where
  | entry (id : Nat)
  | load (slot grp pa : Nat)
  deriving DecidableEq, Repr

/-- The instruction that an outstanding result comes from, its address and length, when it is a load
that has not been read. -/
def Src.load? (x : Src) : Option (Nat × Nat × Nat × Nat) :=
  match x with
  | .mem grp _ _ pa len how _ => some (grp, pa, len, how)
  | _ => none

/-- The instruction whose access an outstanding result still waits for. -/
def Src.grp? (x : Src) : Option Nat :=
  match x with
  | .mem grp _ _ _ _ _ _ => some grp
  | .rmw grp _ _ _ => some grp
  | .halves grp _ _ _ _ _ => some grp
  | .held grp _ _ => some grp
  | _ => none

/-- The address, the bytes and the instruction of a push that is outstanding. -/
def Dst.push? (d : Dst) : Option (DWord × Nat × Nat) :=
  match d with
  | .push va sz _ grp _ => some (va, match sz with
      | .b => 1
      | .sb => 1
      | .h => 2
      | .sh => 2
      | _ => 4, grp)
  | _ => none

/-- The unread loads of a wave. -/
def Wave.loads (w : Wave) : List (Nat × Nat × Nat × Nat) := w.pend.filterMap fun p => p.src.load?

/-- What an instruction still has to perform, of the waves of a core. -/
def State.todoOf (s : State) (core grp : Nat) : List Todo :=
  ((s.core core).sq.filter fun e => e.grp == grp).map (fun e => Todo.entry e.id) ++
  ((s.waves.filter fun w => w.core == core).map fun w =>
    (w.loads.filter fun x => x.1 == grp).map fun x => Todo.load w.slot x.1 x.2.1).flatten

/-- Whether a result belongs to an access. -/
def Pend.belongs (p : Pend) (a : Acc) : Bool :=
  (match p.src, a.kind with
    | .halves _ lo hi _ _ _, .half _ _ _ _ id => lo == id || hi == id
    | .held g v _, _ => g == a.grp && v == a.va
    | _, _ => false) &&
  (match p.dst.lane? with
    | some l => l == a.lane
    | none => true)

/-- A result of an access that a frozen record of the wave holds: it counts as complete (R200, R402). -/
def State.frozenPend (s : State) (w : Wave) (p : Pend) : Bool :=
  (s.recsOf w).any fun r => r.frozen && r.accs.any p.belongs

/-- An instruction has accesses that are not performed, held ones included. -/
def State.outstanding (s : State) (core grp : Nat) : Bool :=
  ((s.core core).sq.any fun e => e.grp == grp) ||
  (s.waves.any fun w => w.core == core &&
    ((w.pend.any fun p => (p.src.grp? == some grp && !s.frozenPend w p) || match p.dst.push? with
      | some x => x.2.2 == grp
      | none => false) || w.behind.any fun a => a.grp == grp)) ||
  (s.core (recHome core)).recs.any fun r => r.core == core && !r.frozen && r.accs.any fun a => a.grp == grp

/-- What must be performed first: for an entry, what it needs and the earlier entries that share bytes
with it (R195, R238, R240); for a load, the wave's earlier loads of the same bytes, the wave's earlier
RMWs on them, and for a read at the bank the earlier writes of its core (R230, R237). -/
def State.deps (s : State) (core : Nat) (t : Todo) : List Todo :=
  match t with
  | .entry id =>
    match (s.core core).sq.find? fun e => e.id == id with
    | none => []
    | some e =>
      (e.needs.map fun g => s.todoOf core g).flatten ++
      (((s.core core).sq.takeWhile fun f => f.id != id).filter fun f => f.clash e).map
        fun f => Todo.entry f.id
  | .load slot grp pa =>
    match s.wave? core slot with
    | none => []
    | some w =>
      let before := w.loads.takeWhile fun x => !(x.1 == grp && x.2.1 == pa)
      match w.loads.find? fun x => x.1 == grp && x.2.1 == pa with
      | none => []
      | some (_, _, len, how) =>
        ((before.filter fun x => overlaps x.2.1 x.2.2.1 pa len).map
          fun x => Todo.load slot x.1 x.2.1) ++
        ((s.core core).sq.filter fun e =>
          overlaps e.range.1 e.range.2 pa len &&
          (how == 3 || (e.slot == slot && Nat.blt e.grp grp && (!e.isStore || Nat.ble 2 how)))).map
          fun e => Todo.entry e.id

/-! ## Violations -/

/-- The wave waits on a message to the service core (R395, R402). -/
def WStat.waits (x : WStat) : Bool :=
  match x with
  | .trapped _ => true
  | .frozen _ => true
  | _ => false

/-- A wave that holds violating lanes parks and sends the message of Table 17-3, unless it waits on a message already:
it has one outstanding at a time, and the next goes when that is answered (R395, R402; log entry 23). -/
def State.tellFrozen (s : State) (core slot : Nat) : State :=
  match s.wave? core slot with
  | none => s
  | some w =>
    if w.stat.waits then s
    else match (s.recsOf w).find? fun r => r.frozen && !r.told with
      | none => s
      | some r => match lowestAcc r.accs with
        | none => s
        | some a =>
          let lanes := accLanes r.accs
          let (seq, s) := s.bumpSeq core slot
          let body := trapRecord { w with word := a.word } r.cause lanes a.pc (a.va.setWidth 32)
            (a.va.extractLsb' 32 32) seq
          let s := (s.setRec (recHome core) { r with told := true }).sendMail 0 core slot (s.asidOf w) body
          s.setWave { w with stat := .frozen ⟨0, r.cause, seq, 0, lanes, a.pc⟩, prev := w.stat }

/-- Freezes a wave on a violation: the accesses are held in a record, its context's queue takes a record, and the wave
parks (R402). Accesses that find no free record wait for one (R263). -/
def State.freezeWave (s : State) (core slot : Nat) (cause : Cause) (accs : List Acc) : State :=
  match s.wave? core slot, lowestAcc accs with
  | some w, some a => match s.freeRec core 0 with
    | none => s.setWave { w with behind := w.behind ++ accs }
    | some idx =>
      let asid := s.asidOf w
      let r : FRec := { src := 0, idx, core, kind := 0, access := 0, asid, gslot := w.gslot, slot,
                        pc := a.pc, accs, frozen := true, cause, posted := s.clock }
      let s := (s.modCore (recHome core) fun c => { c with recs := c.recs ++ [r] }).tellFrozen core slot
      s.postAsync { asid, cause, engine := 0, frozen := true, slot, core, lid := s.lidOf w, pc := a.pc,
                    gslot := if isService core then 0xFF else w.gslot, addr := a.va, op := a.grp }
  | _, _ => s

/-! ## Loads -/

/-- The 32-bit word of a loaded value that a register takes (Table 8-3). -/
def Part.word32 (p : Part) (bs : List Byte) : Word :=
  match p.sz with
  | .b => (bs.getD 0 0).setWidth 32
  | .sb => (bs.getD 0 0).signExtend 32
  | .h => BitVec.ofNat 32 (fieldNat bs 0 2)
  | .sh => (BitVec.ofNat 16 (fieldNat bs 0 2)).signExtend 32
  | _ => BitVec.ofNat 32 (fieldNat bs (4 * p.word) 4)

/-- Bytes of the bank with stores of the core's queue over them (Table 10-2). -/
def overlay (sq : List SQ) (pa : Nat) (bs : List Byte) : List Byte :=
  sq.foldl (fun bs e =>
    match e.kind with
    | .store new => (List.range bs.length).map fun i =>
        if Nat.ble e.pa (pa + i) && Nat.blt (pa + i) (e.pa + new.length)
        then new.getD (pa + i - e.pa) 0 else bs.getD i 0
    | _ => bs) bs

/-- Prefetch kernels that a fill of a line starts (R211). -/
def State.fillTriggers (s : State) (core asid : Nat) (va : DWord) (line : List Byte) : State :=
  let base := va.toNat / 32 * 32
  s.modCore core fun c =>
    let hits := c.trp.arms.filter fun a =>
      a.asid == asid && Nat.ble a.lo.toNat base && Nat.blt base a.hi.toNat
    if hits.isEmpty then c
    else { c with trp := { c.trp with
      triggers := c.trp.triggers ++ hits.map fun a => ⟨a, BitVec.ofNat 64 base, wordsOf 8 line⟩ } }

/-- What a store must follow has been performed: only then do other waves of its core read it (R238, R240). -/
def State.open_ (s : State) (core : Nat) (e : SQ) : Bool := e.needs.all fun g => !s.outstanding core g

/-- The entries of a core's store queue that a wave of the core reads: its own, and those that wait for nothing. -/
def State.queueFor (s : State) (core slot : Nat) : List SQ :=
  (s.core core).sq.filter fun e => e.slot == slot || s.open_ core e

/-- A wave has read queued stores of other groups of its core: what it releases comes after them (R235). -/
def State.sees (s : State) (core slot pa len : Nat) : State :=
  match s.wave? core slot with
  | none => s
  | some w =>
    let new := (((s.queueFor core slot).filter fun e =>
      e.isStore && e.gslot != w.gslot && overlaps e.range.1 e.range.2 pa len).map fun e => e.grp).eraseDups
    if new.isEmpty then s
    else s.setWave { w with seen := (new ++ w.seen.filter fun g => !new.any fun x => x == g).filter (s.outstanding core) }

/-- The value that a read of a wave takes now (R186, R233): from the L1, or from the home bank under the core's store
queue, filling a line. -/
def State.readNow (s : State) (core slot asid : Nat) (va : DWord) (pa len how : Nat) : List Byte × State :=
  if how == 0 then
    let s := s.sees core slot pa len
    match assoc (s.core core).l1 (pa / 32) with
    | some line => ((line.drop (pa % 32)).take len, s)
    | none =>
      let (line, s) := s.bankRead asid (pa / 32 * 32) 32
      let v := overlay (s.queueFor core slot) pa ((line.drop (pa % 32)).take len)
      if ((s.core core).sq.any fun e => overlaps e.range.1 e.range.2 (pa / 32 * 32) 32) then (v, s)
      else
        let s := s.modCore core fun c => { c with l1 := l1Fill c.l1 (pa / 32) line }
        (v, s.fillTriggers core asid va line)
  else if how == 1 then
    let (b, s) := (s.sees core slot pa len).bankRead asid pa len
    (overlay (s.queueFor core slot) pa b, s)
  else s.bankRead asid pa len

/-- Replaces the loads of an instruction from one address by what was read. -/
def Wave.gotLoad (w : Wave) (grp pa : Nat) (bs : List Byte) : Wave :=
  { w with pend := w.pend.map fun p =>
      match p.src with
      | .mem g _ _ a _ _ part => if g == grp && a == pa then { p with src := .val (part.word32 bs) } else p
      | _ => p }

/-- Drops the acquires whose values have returned; one at cluster scope or wider empties the core's L1
(R220, R240). -/
def State.finishAcq (s : State) (core slot : Nat) : State :=
  match s.wave? core slot with
  | none => s
  | some w =>
    let wait (x : Nat × Bool) : Bool := w.pend.any fun p => p.src.grp? == some x.1
    let (left, done) := w.acq.partition wait
    if done.isEmpty then s
    else
      let s := s.setWave { w with acq := left }
      if (done.any fun x => x.2) then s.l1Clear core else s

/-- Reads the loads of an instruction from one address. -/
def State.sampleNow (s : State) (core slot grp pa : Nat) : State :=
  match s.wave? core slot with
  | none => s
  | some w =>
    match w.pend.find? fun p => match p.src with
        | .mem g _ _ a _ _ _ => g == grp && a == pa
        | _ => false with
    | some ⟨_, .mem _ va _ _ len how _, _, _⟩ =>
      let asid := s.asidOf w
      if s.windowOk asid pa then
        let (bs, s) := s.readNow core slot asid va pa len how
        (s.modWave core slot fun w => w.gotLoad grp pa bs).finishAcq core slot
      else
        let accs := w.pend.filterMap fun p => match p.src with
          | .mem g v c a n h _ =>
            if g == grp && a == pa then
              some ({ grp, lane := (p.dst.lane?).getD 0, va := v, pc := c, word := p.word,
                      kind := .load n (h == 3) } : Acc)
            else none
          | _ => none
        let accs := accs.eraseDups.filter fun a => !w.helper.getLsbD a.lane
        let helps (d : Dst) : Bool := match d.lane? with
          | some l => w.helper.getLsbD l
          | none => false
        let w := { w with pend := w.pend.map fun p => match p.src with
          | .mem g v _ a _ _ part =>
            if g == grp && a == pa then { p with src := if helps p.dst then .val 0 else .held g v part }
            else p
          | _ => p }
        (s.setWave w).freezeWave core slot 0x142 accs
    | _ => s

/-! ## The store queue -/

/-- Gives the lanes of a wave the old values of an RMW entry. -/
def Wave.gotOld (w : Wave) (id : Nat) (olds : List (Nat × Nat)) : Wave :=
  { w with pend := w.pend.map fun p =>
      match p.src with
      | .rmw _ i l k =>
        if i == id then
          match assoc olds l with
          | some v => { p with src := .val (BitVec.ofNat 32 (v / 2 ^ (32 * k))) }
          | none => p
        else p
      | .halves g lo hi l a b =>
        if lo == id || hi == id then
          match assoc olds l with
          | some v =>
            let h := BitVec.ofNat 16 v
            let a := if lo == id then some h else a
            let b := if hi == id then some h else b
            match a, b with
            | some x, some y => { p with src := .val (y ++ x) }
            | _, _ => { p with src := .halves g lo hi l a b }
          | none => p
        else p
      | _ => p }

/-- The results of an RMW entry that is not performed wait for the accesses that a record holds; those of a half stay as
they are. -/
def Wave.holdOld (w : Wave) (e : SQ) (op : AtomOp) : Wave :=
  { w with pend := w.pend.map fun p =>
      match p.src with
      | .rmw g i _ k => if i == e.id then { p with src := .held g e.va ⟨if op == .addSi64 then .d else .w, k⟩ } else p
      | _ => p }

/-- The accesses of an RMW entry, to be made again: those of a half of a packed form make the half alone (R218). -/
def SQ.rmwAccs (e : SQ) (op : AtomOp) (half : Option Bool) (lanes : List (Nat × DWord × DWord)) (ret : Bool) : List Acc :=
  lanes.map fun l =>
    { grp := e.grp, lane := l.1, va := e.va, pc := e.pc, word := e.word
      kind := match half with
        | some hi => .half op hi l.2.1 ret e.id
        | none => .rmw op l.2.1 l.2.2 ret e.needs }

/-- Performs an entry at its home bank, or at its target (R213, R223, R237). -/
def State.performEntry (s : State) (core : Nat) (e : SQ) : State :=
  let drop (s : State) : State :=
    s.modCore core fun c => { c with sq := c.sq.filter fun f => f.id != e.id }
  match e.kind with
  | .store bs =>
    let s := drop s
    if s.windowOk e.asid e.pa then s.bankWrite e.pa bs
    else s.freezeWave core e.slot 0x142
      [{ grp := e.grp, lane := e.lane, va := e.va, pc := e.pc, word := e.word, kind := .store bs e.needs }]
  | .rmw op half lanes ret =>
    let s := drop s
    if s.windowOk e.asid e.pa then
      let n := if half.isSome then 2 else op.size
      let (b, s) := s.bankRead e.asid e.pa n
      let (v, olds) := rmwLanes op (leNat b) lanes
      let s := s.bankWrite e.pa (bytesLE n v)
      (s.modWave core e.slot fun w => w.gotOld e.id olds).finishAcq core e.slot
    else (s.modWave core e.slot fun w => w.holdOld e op).freezeWave core e.slot 0x142 (e.rmwAccs op half lanes ret)
  | .ored kind i v _ =>
    if s.windowOk e.asid e.pa then
      match s.oreContribute core e kind i v with
      | (false, s) => drop s
      | (true, s) => s.modCore core fun c => { c with sq := c.sq.map fun f =>
          if f.id == e.id then { f with kind := .ored kind i v true } else f }
    else (drop s).freezeWave core e.slot 0x142
      [{ grp := e.grp, lane := e.lane, va := e.va, pc := e.pc, word := e.word, kind := .ored kind i v }]
  | .cache inval =>
    (drop s).modCluster (homeOf e.pa).1 fun c =>
      { c with
        tags :=
          if inval then c.tags.filter fun t => t.line != e.pa / 256
          else c.tags.map fun t => if t.line == e.pa / 256 then { t with dirty := 0 } else t }

/-- Performs one thing if nothing must come before it. -/
def State.performNow (s : State) (core : Nat) (t : Todo) : State :=
  if (s.deps core t).isEmpty then
    match t with
    | .entry id =>
      match (s.core core).sq.find? fun e => e.id == id with
      | some e => s.performEntry core e
      | none => s
    | .load slot grp pa => s.sampleNow core slot grp pa
  else s

/-- Performs one thing after all that must come before it. -/
def State.force : Nat → State → Nat → Todo → State
  | 0, s, _, _ => s
  | n + 1, s, core, t =>
    ((s.deps core t).foldl (fun s d => State.force n s core d) s).performNow core t

/-- Performs several things. -/
def State.forceAll (s : State) (core : Nat) (ts : List Todo) : State :=
  ts.foldl (fun s t => State.force (s.nextId + 1) s core t) s

/-- Performs all that instructions have outstanding. -/
def State.forceGrps (s : State) (core : Nat) (grps : List Nat) : State :=
  grps.foldl (fun s g => s.forceAll core (s.todoOf core g)) s

/-- The unread loads of a wave, as things to do. -/
def Wave.loadTodos (w : Wave) : List Todo := w.loads.map fun x => Todo.load w.slot x.1 x.2.1

/-- The reads that a wave has outstanding, those of its atomics too, as things to do (R238). -/
def Wave.readTodos (w : Wave) : List Todo :=
  w.loadTodos ++ (w.pend.map fun p => match p.src with
    | .rmw _ id _ _ => [Todo.entry id]
    | .halves _ lo hi _ _ _ => [Todo.entry lo, Todo.entry hi]
    | _ => []).flatten

/-! ## Making an access -/

/-- Rights of an access (R255). -/
def AccKind.need (k : AccKind) : Need :=
  match k with
  | .load _ _ => { r := true }
  | .store _ _ => { w := true }
  | .rmw _ _ _ _ _ => { r := true, w := true }
  | .half _ _ _ _ _ => { r := true, w := true }
  | .ored _ _ _ => { r := true, w := true }
  | .element _ _ => { r := true }
  | .fetch => { x := true }
  | .cache _ => {}
  | .joinw => { r := true }
  | .cmd _ => { r := true }

/-- The access code of Table 11-5. -/
def AccKind.code (k : AccKind) : Nat :=
  match k with
  | .store _ _ => 1
  | .rmw _ _ _ _ _ => 2
  | .half _ _ _ _ _ => 2
  | .ored _ _ _ => 2
  | .fetch => 3
  | .cmd _ => 0
  | _ => 0

/-- An access that a service core may make on the walk path: LDG, LDWG, ATOM and ATOMA (R256). -/
def AccKind.walks (k : AccKind) : Bool :=
  match k with
  | .load _ bank => !bank
  | .rmw _ _ _ ret _ => ret
  | _ => false

/-- An access that needs device memory or the slice window (R214). -/
def AccKind.atomic (k : AccKind) : Bool :=
  match k with
  | .rmw _ _ _ _ _ => true
  | .half _ _ _ _ _ => true
  | .ored _ _ _ => true
  | _ => false

/-- A CACHE operation is a no-op where another access would be a violation (R197). -/
def AccKind.isCache (k : AccKind) : Bool :=
  match k with
  | .cache _ => true
  | _ => false

/-- Where an access of a wave goes (R214, R255, R256). -/
def State.resolve (s : State) (w : Wave) (a : Acc) : Tr × State :=
  if isService w.core && a.va.msb && a.kind.walks then
    let pa := a.va.toNat % 2 ^ 46
    (if a.va.extractLsb' 46 17 == 0 && inDev pa then .ok pa 4 else .viol 0x101, s)
  else
    s.translate w.core (if a.kind == .fetch then .fetch else .group w.gslot) (s.asidOf w) a.kind.need a.va a.kind.atomic

/-- Puts an entry at the end of the store queue, after the wave's earlier loads of its bytes (R195),
and takes the line out of the L1 or updates it (R186): a store that must follow others leaves no line, so that no other
wave reads it first (R240). Of the lanes of one store that write one location
the last is kept (R194). -/
def State.enqueue (s : State) (core : Nat) (e : SQ) : State :=
  let s : State := match s.wave? core e.slot with
    | some w =>
      let mine := w.loads.filter fun (x : Nat × Nat × Nat × Nat) => overlaps x.2.1 x.2.2.1 e.range.1 e.range.2
      s.forceAll core (mine.map fun (x : Nat × Nat × Nat × Nat) => Todo.load w.slot x.1 x.2.1)
    | none => s
  let same (f : SQ) : Bool := f.grp == e.grp && f.isStore && e.isStore && f.range == e.range
  let now := s.open_ core e
  s.modCore core fun c => { c with
    sq := (c.sq.filter fun f => !same f) ++ [e]
    l1 := match e.kind with
      | .store bs => if now then l1Store c.l1 e.pa bs else l1Drop c.l1 e.pa bs.length
      | .cache _ => c.l1
      | _ => l1Drop c.l1 e.range.1 e.range.2 }

/-- Adds a lane to the RMW entry of its instruction at an address, or makes the entry (R219): the entry's
id. -/
def State.addRmw (s : State) (w : Wave) (a : Acc) (pa : Nat) (op : AtomOp) (half : Option Bool)
    (b cmp : DWord) (ret : Bool) (needs : List Nat) : Nat × State :=
  let same (e : SQ) : Bool := e.grp == a.grp && e.pa == pa && match e.kind with
    | .rmw _ h _ _ => h == half
    | _ => false
  match (s.core w.core).sq.find? same with
  | some e =>
    (e.id, s.modCore w.core fun c => { c with sq := c.sq.map fun f =>
      if f.id == e.id then
        match f.kind with
        | .rmw o h ls r => { f with kind := .rmw o h (ls ++ [(a.lane, b, cmp)]) r }
        | _ => f
      else f })
  | none =>
    let (id, s) := s.fresh
    (id, s.enqueue w.core
      { id, grp := a.grp, lane := a.lane, pc := a.pc, slot := w.slot, gslot := w.gslot,
        asid := s.asidOf w, pa, kind := .rmw op half [(a.lane, b, cmp)] ret,
        needs := needs ++ w.after, va := a.va, word := a.word })

/-- Changes the results that an access returns. -/
def State.modHeld (s : State) (core slot : Nat) (a : Acc) (f : Part → Src) : State :=
  s.modWave core slot fun w =>
    { w with
      pend := w.pend.map fun p =>
        if p.belongs a then
          match p.src with
          | .held _ _ part => { p with src := f part }
          | _ => p
        else p }

/-- A window of the host or of a peer (Table 22-1). -/
def inWindow (pa : Nat) : Bool := inHost pa || inPeers pa

/-- The acquire of an instruction that reads a window of the host or of a peer acts at system scope (R233). -/
def Wave.acqFar (w : Wave) (grp pa : Nat) : Wave :=
  if inWindow pa then { w with acq := w.acq.map fun x => if x.1 == grp then (grp, true) else x } else w

/-- What an element that is popped must follow: the wave's earlier accesses to its bytes (R130, R195). -/
def State.beforePop (s : State) (w : Wave) (a : Acc) (pa len how : Nat) : List Todo :=
  ((w.loads.filter fun x => overlaps x.2.1 x.2.2.1 pa len).map fun x => Todo.load w.slot x.1 x.2.1) ++
  (((s.core w.core).sq.filter fun e => e.slot == w.slot && Nat.blt e.grp a.grp && (!e.isStore || Nat.ble 2 how) &&
    overlaps e.range.1 e.range.2 pa len).map fun e => Todo.entry e.id)

/-- Gives the results of a half of a packed atomic the entry that will perform it. -/
def Wave.moveHalf (w : Wave) (old new lane : Nat) : Wave :=
  { w with pend := w.pend.map fun p =>
      match p.src with
      | .halves g lo hi l a b =>
        if l == lane then { p with src := .halves g (if lo == old then new else lo) (if hi == old then new else hi) l a b }
        else p
      | _ => p }

/-- Makes an access whose place is known. -/
def State.makeAcc (s : State) (core slot : Nat) (a : Acc) (pa how : Nat) : State :=
  match s.wave? core slot with
  | none => s
  | some w =>
    let entry (kind : SKind) (needs : List Nat) : State :=
      let (id, s) := s.fresh
      s.enqueue core
        { id, grp := a.grp, lane := a.lane, pc := a.pc, slot, gslot := w.gslot, asid := s.asidOf w, pa,
          kind, needs := needs ++ w.after, va := a.va, word := a.word }
    match a.kind with
    | .load len bank =>
      (s.modHeld core slot a fun part => .mem a.grp a.va a.pc pa len (if bank then 3 else how) part).modWave core slot
        fun w => w.acqFar a.grp pa
    | .store bs needs => entry (.store bs) (needs ++ if inWindow pa then a.far else [])
    | .half op hi b ret id =>
      let (new, s) := s.addRmw w a (if hi then pa + 2 else pa) op (some hi) b 0 ret []
      s.modWave core slot fun w => w.moveHalf id new a.lane
    | .rmw op b cmp ret needs =>
      if op.packed then
        let (lo, s) := s.addRmw w a pa op (some false) (b &&& 0xFFFF) cmp ret needs
        let (hi, s) := s.addRmw w a (pa + 2) op (some true) (b >>> 16 &&& 0xFFFF) cmp ret needs
        s.modHeld core slot a fun _ => .halves a.grp lo hi a.lane none none
      else
        let (id, s) := s.addRmw w a pa op none b cmp ret needs
        s.modHeld core slot a fun part => .rmw a.grp id a.lane part.word
    | .ored kind i v => entry (.ored kind i v false) []
    | .element st n =>
      match assoc w.streams st with
      | none => s
      | some x =>
        let len := match x.size with
          | .b => 1
          | .sb => 1
          | .h => 2
          | .sh => 2
          | _ => 4
        let (bs, s) := (s.forceAll core (s.beforePop w a pa len how)).readNow core slot (s.asidOf w) a.va pa len how
        let v := Part.word32 ⟨x.size, 0⟩ bs
        s.modWave core slot fun w => { w with streams := w.streams.map fun e =>
          if e.1 == st then (st, { e.2 with buf := setAssoc e.2.buf n v }) else e }
    | .fetch => s
    | .cache op =>
      if !inDev pa then s
      else if op == 0 then s.modCore core fun c => { c with l1 := l1Drop c.l1 pa 1 }
      else entry (.cache (op == 3)) []
    | .joinw => s.modWave core slot fun w => { w with stat := .join a.va a.lane a.pc }
    | .cmd _ => s

/-- A result that an access would return becomes a value. -/
def State.giveHeld (s : State) (core slot : Nat) (a : Acc) (v : Word) : State :=
  s.modHeld core slot a fun _ => .val v

/-- An access is a violation of its own kind where it was translated: an element that is popped from a slice way that is not
locked for the context (R196). -/
def State.popBad (s : State) (w : Wave) (a : Acc) (pa : Nat) : Bool :=
  match a.kind with
  | .element _ _ => !s.windowOk (s.asidOf w) pa
  | _ => false

/-- Makes the accesses of one instruction, in lane order: an access to a page on which an earlier one is
held waits behind it (R264), a miss is held in a record (R263), and a violation freezes the wave (R402).
`again` is the record that a replay makes its accesses from: what still finds no entry stays in it, and its message is
posted again (R260). -/
def State.issueAccs (s : State) (core slot : Nat) (again : Option FRec) (accs : List Acc) : State :=
  let r := accs.foldl (fun (t : State × List (Acc × Nat) × List (Acc × Cause)) a =>
    let (s, miss, bad) := t
    match s.wave? core slot with
    | none => t
    | some w =>
      if again.isNone && s.pageHeld w a.va then
        (s.setWave { w with behind := w.behind ++ [a] }, miss, bad)
      else
        match s.resolve w a with
        | (.ok pa how, s) =>
          if s.popBad w a pa then (s, miss, bad ++ [(a, 0x142)]) else (s.makeAcc core slot a pa how, miss, bad)
        | (.miss k, s) => (s, miss ++ [(a, k)], bad)
        | (.viol c, s) => (s, miss, if a.kind.isCache then bad else bad ++ [(a, c)])) (s, [], [])
  let (s, miss, bad) := r
  let s := match s.wave? core slot, miss with
    | some w, m :: _ =>
      let held := miss.map fun x => x.1
      match again, s.freeRec core 0 with
      | some r, _ => s.addRec { r with kind := m.2, accs := held, ready := false, tlbis := [], posted := s.clock } m.2
      | none, some idx =>
        let r : FRec :=
          { src := 0, idx, core, kind := m.2, access := m.1.kind.code, asid := s.asidOf w,
            gslot := w.gslot, slot, pc := m.1.pc, accs := held, posted := s.clock }
        s.addRec r m.2
      | none, none => s.setWave { w with behind := w.behind ++ held }
    | _, _ => s
  match bad with
  | [] => s
  | b :: _ => s.freezeWave core slot b.2 (bad.map fun x => x.1)

/-- Accesses split by instruction, in order. -/
def batches : List Acc → List (List Acc)
  | [] => []
  | a :: t =>
    match batches t with
    | (b :: bs) :: r => if a.grp == b.grp then (a :: b :: bs) :: r else [a] :: (b :: bs) :: r
    | r => [a] :: r

/-- Makes the accesses that waited behind others, as far as they may now be made (R264). -/
def State.drainBehind (s : State) (core slot : Nat) : State :=
  match s.wave? core slot with
  | none => s
  | some w =>
    (batches w.behind).foldl (fun s b => s.issueAccs core slot none b)
      (s.setWave { w with behind := [] })

/-- What waits for a record of a core, or behind an access, is tried again (R263, R264). -/
def State.drainCore (s : State) (core : Nat) : State :=
  (s.waves.filter fun w => w.core == core && !w.behind.isEmpty).foldl (fun s w => s.drainBehind core w.slot) s

/-- Replays the record of a wave (R266). -/
def State.replayWave (s : State) (core : Nat) (r : FRec) : State :=
  let s := s.dropRec core r.src r.idx
  let s := (s.issueAccs r.core r.slot (some r) r.accs).drainBehind r.core r.slot
  match s.wave? r.core r.slot with
  | some w =>
    let w := if w.stat == .stall && !s.faulted w then { w with stat := .run } else w
    s.settle w
  | none => s

/-! ## Landing -/

/-- Bytes of a size (R34). -/
def Size.bytes (z : Size) : Nat :=
  match z with
  | .b => 1
  | .sb => 1
  | .h => 2
  | .sh => 2
  | .w => 4
  | .d => 8
  | .q => 16

/-- A known result lands (R134, R150); a push is stored (R127). -/
def State.landVal (s : State) (w : Wave) (k : Nat) (p : Pend) (v : Word) : State :=
  let w := { w with pend := w.pend.eraseIdx k }
  match p.dst with
  | .push va sz lane grp pc =>
    let s := (s.setWave w).issueAccs w.core w.slot none
      [{ grp, lane, va, pc, word := p.word, kind := .store (bytesLE (Size.bytes sz) v.toNat) [] }]
    match s.wave? w.core w.slot with
    | some w => s.settle w
    | none => s
  | d =>
    let old := w.readDst d
    let w := w.writeDst d v
    s.settle (if d.isNull || d == .fpsr || old == v then w else w.touchLanding d p.path)

/-- The k-th outstanding result of a wave lands, once its value is known; a load is read then at the
latest, and an RMW performed. -/
def State.landOne (s : State) (core slot k : Nat) : State :=
  let ready (s : State) : State :=
    match s.wave? core slot with
    | some w =>
      match w.pend[k]? with
      | some p => match p.src with
        | .val v => s.landVal w k p v
        | _ => s
      | none => s
    | none => s
  match s.wave? core slot with
  | none => s
  | some w =>
    match w.pend[k]? with
    | none => s
    | some p => match p.src with
      | .val v => s.landVal w k p v
      | .mem g _ _ pa _ _ _ => ready (s.forceAll core [.load slot g pa])
      | .rmw _ id _ _ => ready (s.forceAll core [.entry id])
      | .halves _ lo hi _ _ _ => ready (s.forceAll core [.entry lo, .entry hi])
      | .held _ _ _ => s
      | .reply _ => s

/-- Two ranges of virtual addresses name a common byte: by their addresses, or where both translate now
(R269). -/
def State.clashVa (s : State) (w : Wave) (a b : DWord × Nat) : Bool :=
  let pa (x : DWord × Nat) : Option Nat := s.peek (clusterOf w.core) (s.asidOf w) {} x.1
  overlaps a.1.toNat a.2 b.1.toNat b.2 || match pa a, pa b with
    | some x, some y => overlaps x a.2 y b.2
    | _, _ => false

/-- Outstanding pushes among results that name a byte of a range. -/
def State.pushesAt (s : State) (w : Wave) (ps : List Pend) (r : DWord × Nat) : List Dst :=
  (ps.map fun p => p.dst).filter fun d => match d.push? with
    | some x => s.clashVa w (x.1, x.2.1) r
    | none => false

/-- A push lands after the earlier ones of its wave to the same bytes (R195). -/
def State.landPush : Nat → State → Nat → Nat → Dst → State
  | 0, s, _, _, _ => s
  | n + 1, s, core, slot, d =>
    match s.wave? core slot, d.push? with
    | some w, some x =>
      let earlier (w : Wave) : List Dst :=
        s.pushesAt w (w.pend.takeWhile fun p => p.dst != d) (x.1, x.2.1)
      let s := (earlier w).foldl (fun s e => State.landPush n s core slot e) s
      match s.wave? core slot with
      | none => s
      | some w =>
        if (earlier w).isEmpty then
          (match w.pend.findIdx? fun p => p.dst == d with
            | some k => s.landOne core slot k
            | none => s)
        else s
    | _, _ => s

/-- The k-th outstanding result of a wave lands. -/
def State.land (s : State) (core slot k : Nat) : State :=
  match s.wave? core slot with
  | none => s
  | some w => match w.pend[k]? with
    | none => s
    | some p => if p.dst.push?.isSome then s.landPush w.pend.length core slot p.dst
        else s.landOne core slot k

/-- Lands the outstanding pushes of a wave that name a byte of given ranges, as far as they may: false
when one waits for a fault record (R195, R264). -/
def State.flushFor (s : State) (core slot : Nat) (rs : List (DWord × Nat)) : Bool × State :=
  let mine (s : State) (w : Wave) : List Dst := (rs.map fun r => s.pushesAt w w.pend r).flatten
  match s.wave? core slot with
  | none => (true, s)
  | some w =>
    let s := (mine s w).foldl (fun s d => s.landPush w.pend.length core slot d) s
    match s.wave? core slot with
    | none => (true, s)
    | some w => ((mine s w).isEmpty, s)

/-- Lands the outstanding pushes of a wave, as far as they may. -/
def State.flushAll (s : State) (core slot : Nat) : State :=
  match s.wave? core slot with
  | none => s
  | some w => (w.pend.filter fun p => p.dst.push?.isSome).foldl
      (fun s p => s.landPush w.pend.length core slot p.dst) s

/-- A wave has a push outstanding. -/
def Wave.pushing (w : Wave) : Bool := w.pend.any fun p => p.dst.push?.isSome

/-- A later access of a wave waits for its acquires (R220, R240): false when one is held. -/
def State.beginAccess (s : State) (w : Wave) : Bool × State :=
  if w.acq.isEmpty then (true, s)
  else
    let s := (s.forceGrps w.core (w.acq.map fun x => x.1)).finishAcq w.core w.slot
    match s.wave? w.core w.slot with
    | some w => (w.acq.isEmpty, s)
    | none => (true, s)

end Sys2Proof.Machine
end

