-- ==== Sys2Proof/Machine/Image.lean ====
section
/-! DEFINITION. Capsule images and their CRC (R292 to R294), packet headers (R271), the overflow rings
(R283, R297) and the parking of a capsule (R304). -/

namespace Sys2Proof.Machine

/-! ## Images -/

/-- One bit of the reflected CRC-32C register. -/
def crcBit (c : BitVec 32) : BitVec 32 :=
  if c.getLsbD 0 then (c >>> 1) ^^^ 0x82F63B78 else c >>> 1

/-- CRC-32C over bytes in address order (R294). -/
def crc32c (bs : List Byte) : BitVec 32 :=
  ~~~(bs.foldl (fun c b =>
    (List.range 8).foldl (fun c _ => crcBit c) (c ^^^ b.setWidth 32)) (0xFFFFFFFF : BitVec 32))

/-- Header bytes 0 to 59 (Table 13-1). -/
def Caps.header (c : Caps) : List Byte :=
  bytesLE 2 c.magic.toNat ++ [0, BitVec.ofNat 8 c.major] ++ bytesLE 2 c.asid ++
  bytesLE 2 c.flags.toNat ++ bytesLE 8 c.id.toNat ++
  [BitVec.ofNat 8 c.index, BitVec.ofNat 8 c.count] ++ bytesLE 2 c.len ++ bytesLE 4 c.origin ++
  bytesLE 8 c.park.toNat ++ (c.user ++ List.replicate 28 0).take 28

/-- The itinerary: stops at COUNT or above travel as zero (R293). -/
def Caps.itinerary (c : Caps) : List Byte :=
  ((List.range 8).map fun i =>
    bytesLE 8 (if Nat.blt i c.count then (c.stops.getD i 0).toNat else 0)).flatten

/-- The CRC of an image (R294). -/
def Caps.crcOf (c : Caps) : BitVec 32 := crc32c (c.header ++ c.itinerary)

/-- The image (R292). -/
def Caps.image (c : Caps) : List Byte :=
  c.header ++ bytesLE 4 c.crc.toNat ++ c.itinerary ++
    (c.tile ++ List.replicate (256 * c.len) 0).take (256 * c.len)

/-- Bytes of the image. -/
def Caps.size (c : Caps) : Nat := 128 + 256 * c.len

/-- An image that the device accepts (R294). -/
def Caps.good (c : Caps) : Bool := c.magic == 0xCA95 && c.major == 1 && c.crc == c.crcOf

/-- The capsule that image bytes hold; class, previous hop and order are those of its packet. -/
def capsOf (b : List Byte) (cls prev seq : Nat) : Caps :=
  { asid := fieldNat b 4 2, id := BitVec.ofNat 64 (fieldNat b 8 8),
    flags := BitVec.ofNat 16 (fieldNat b 6 2), index := fieldNat b 16 1, count := fieldNat b 17 1,
    len := fieldNat b 18 2, origin := fieldNat b 20 4, park := BitVec.ofNat 64 (fieldNat b 24 8),
    user := (b.drop 32).take 28,
    stops := (List.range 8).map fun i => BitVec.ofNat 64 (fieldNat b (64 + 8 * i) 8),
    tile := (b.drop 128).take (256 * fieldNat b 18 2),
    crc := BitVec.ofNat 32 (fieldNat b 60 4), magic := BitVec.ofNat 16 (fieldNat b 0 2),
    major := fieldNat b 3 1, cls, prev, seq }

/-- A stop that CAP commands accept (R293). -/
def stopValid (x : DWord) : Bool :=
  let v := x.toNat
  Nat.ble (v % 128) 79 && v / 2 ^ 13 % 8 == 0 && !(v / 2 ^ 12 % 2 == 1 && v / 2 ^ 7 % 2 == 1)

/-! ## Rings -/

/-- Where a record of `len` bytes goes in a ring of `size` bytes; records never wrap (R283, R297). -/
def ringPlace (size len : Nat) (recs : List RingRec) : Option Nat :=
  match recs.head?, recs.getLast? with
  | some a, some b =>
    let e := b.off + b.len
    if Nat.ble e a.off && a.off != b.off then (if Nat.ble (e + len) a.off then some e else none)
    else if Nat.ble (e + len) size then some e
    else if Nat.ble len a.off then some 0
    else none
  | _, _ => if Nat.ble len size then some 0 else none

/-- The header of Table 12-1. -/
def packetHeader (kind dest cls src asid len slot vc seq : Nat) : List Byte :=
  [BitVec.ofNat 8 kind, BitVec.ofNat 8 dest, BitVec.ofNat 8 cls, BitVec.ofNat 8 src] ++
  bytesLE 2 asid ++ bytesLE 2 len ++ [BitVec.ofNat 8 slot, BitVec.ofNat 8 vc] ++ bytesLE 2 seq ++
  List.replicate 20 0

/-- The CLASS byte of a header: the class and WK (Table 12-1). -/
def classByte (cls : Nat) (wk : Bool) : Nat := cls + if wk then 16 else 0

/-- A capsule's ring record: the header of its packet with byte 12 for a dead record, 32 zero bytes, image (R297). -/
def capsRecord (core : Nat) (c : Caps) (dead : Bool) : List Byte :=
  patch (packetHeader 3 core (classByte c.cls c.wk) c.prev c.asid c.size c.wslot c.vc c.seq) 12 [if dead then 1 else 0] ++
  List.replicate 32 0 ++ c.image

/-- A record that fills the gap at the end of a ring (R283). -/
def RingRec.skips (r : RingRec) : Bool := r.msg.isNone && r.caps.isNone

/-- A record goes to an offset of a ring of `size` bytes at `base`: a gap that it leaves at the end is filled by a skip
record, of which the spec gives no byte (R283; log entry 99). The records of the ring then, and the state. -/
def State.putRec (s : State) (base size : Nat) (recs : List RingRec) (r : RingRec) (b : List Byte) :
    List RingRec × State :=
  let e := match recs.getLast? with
    | some x => x.off + x.len
    | none => 0
  if r.off == 0 && e != 0 && Nat.blt e size then
    let (ws, s) := (List.range 8).foldl (fun (t : List Word × State) _ =>
      let (k, s) := t.2.freshFree
      (t.1 ++ [Config.freeWord k], s)) ([], s)
    (recs ++ [⟨e, size - e, none, none, false⟩, r], (s.bankWrite (base + e) (bytesOf ws)).bankWrite base b)
  else (recs ++ [r], s.bankWrite (base + r.off) b)

/-- The records of a ring when one has left it: skip records that are then the oldest leave too. -/
def ringDrop (recs : List RingRec) (gone : RingRec → Bool) : List RingRec :=
  (recs.eraseP gone).dropWhile RingRec.skips

/-- Writes a capsule into the capsule overflow ring of a core; none when there is no room. -/
def State.putCapsRing (s : State) (core : Nat) (c : Caps) (dead : Bool) : Option State :=
  match s.ctx? c.asid with
  | none => none
  | some x =>
    let recs := (assoc (s.core core).covf c.asid).getD []
    let b := capsRecord core c dead
    match ringPlace (1024 * x.covkb) b.length recs with
    | none => none
    | some off =>
      let (recs, s) := s.putRec (x.covbase + core * x.covkb * 1024) (1024 * x.covkb) recs
        ⟨off, b.length, none, some c, dead⟩ b
      some (s.modCore core fun k => { k with covf := setAssoc k.covf c.asid recs })

/-- The slot that a packet or a command has read out is free (R301). -/
def State.freeOut (s : State) (core gslot id : Nat) : State :=
  s.modGroup core gslot fun g => { g with
    caps := g.caps.filter fun e => match e.2 with
      | some x => x.out != some id
      | none => true }

/-- What a capsule kept while it was being parked is free (R304). -/
def State.parkedOut (s : State) (core : Nat) (slot : Option (Nat × Nat)) : State :=
  match slot with
  | some x => s.freeOut core x.1 x.2
  | none => s

/-- Answers a command: the results of a wave that wait for it (R23). -/
def State.reply (s : State) (core slot cmd : Nat) (v : Word) : State :=
  s.modWave core slot fun w =>
    { w with
      pend := w.pend.map fun p => if p.src == .reply cmd then { p with src := .val v } else p }

/-- Answers a command wherever its wave is. -/
def State.replyAll (s : State) (cmd : Nat) (v : Word) : State :=
  { s with
    waves := s.waves.map fun w =>
      { w with
        pend := w.pend.map fun p => if p.src == .reply cmd then { p with src := .val v } else p } }

/-! ## Engine accesses -/

/-- The physical pieces of a range of virtual addresses for an engine: each lies in one 4 KiB page. The
first piece that does not translate, or that lies in a way that is not locked for the context (R196), is given instead. -/
def State.pieces (s : State) (core : Nat) (via : Via) (asid : Nat) (n : Need) (va : DWord) (len : Nat) :
    Except (DWord × Tr) (List (Nat × Nat)) × State :=
  if len == 0 then (.ok [], s)
  else
    let first := va.toNat / 4096
    let last := (va.toNat + len - 1) / 4096
    (List.range (last - first + 1)).foldl (fun t i =>
      match t with
      | (.error e, s) => (.error e, s)
      | (.ok l, s) =>
        let lo := if i == 0 then va.toNat else (first + i) * 4096
        let hi := if first + i == last then va.toNat + len else (first + i + 1) * 4096
        let a : DWord := BitVec.ofNat 64 lo
        match s.translate core via asid n a with
        | (.ok pa _, s) => if s.windowOk asid pa then (.ok (l ++ [(pa, hi - lo)]), s) else (.error (a, .viol 0x142), s)
        | (r, s) => (.error (a, r), s)) ((.ok [], s) : Except (DWord × Tr) (List (Nat × Nat)) × State)

/-- Writes bytes over pieces. -/
def State.writePieces (s : State) (ps : List (Nat × Nat)) (bs : List Byte) : State :=
  (ps.foldl (fun (t : State × List Byte) p => (t.1.bankWrite p.1 (t.2.take p.2), t.2.drop p.2)) (s, bs)).1

/-- Reads bytes over pieces at the home banks. -/
def State.readPieces (s : State) (asid : Nat) (ps : List (Nat × Nat)) : List Byte × State :=
  ps.foldl (fun (t : List Byte × State) p =>
    let (b, s) := t.2.bankRead asid p.1 p.2
    (t.1 ++ b, s)) ([], s)

/-! ## Parking -/

/-- Ends the parking of a capsule that cannot be written to PARK (R304): a dead record, or only a fault
record with the header in it. -/
def State.parkDead (s : State) (core : Nat) (c : Caps) (cause : Cause) (cmd : Option Nat)
    (slot : Option (Nat × Nat)) : State :=
  let s := s.parkedOut core slot
  let rec0 : Async := { asid := c.asid, cause, engine := 5, core, addr := c.park, detail := c.id }
  let s := match s.putCapsRing core c true with
    | some s => s.postAsync rec0
    | none => s.postAsync { rec0 with image := some (c.image.take 64) }
  match cmd with
  | some k => s.replyAll k 0
  | none => s

/-- Parks a capsule (R304), or writes its image for CAP.PARK (`fault` false, R301). A write that misses
translation waits in a record of the core's load-store unit, that of index `again` if it has waited before, and the capsule
keeps its slot meanwhile. -/
def State.parkCaps (s : State) (core : Nat) (c : Caps) (cause : Cause) (fault : Bool)
    (cmd : Option Nat) (slot : Option (Nat × Nat)) (again : Option Nat) : State :=
  let c := if fault then { c with flags := c.flags ||| 2 } else c
  let c := if cause == 0x30B then c else { c with crc := c.crcOf }
  if cause == 0x30B && fault then s.parkDead core c cause cmd slot
  else if !canonical c.park || c.park.toNat % 64 != 0 then s.parkDead core c 0x30F cmd slot
  else
    let need : Need := { w := true }
    let (a, s) := s.pieces core .none c.asid need c.park c.size
    let (b, s) := s.pieces core .none c.asid need (c.park + 4224) (if fault then 64 else 0)
    let late (va : DWord) (k : Nat) : State :=
      match (match again with
        | some i => some i
        | none => s.freeRec core 0) with
      | none => s.modCore core fun x => { x with parking := x.parking ++ [⟨recLimit 0, c, cause, fault, cmd, slot⟩] }
      | some idx =>
        let r : FRec := { src := 0, idx, core, kind := k, access := 5, asid := c.asid, gslot := 0,
                          slot := 256, pc := 0, posted := s.clock,
                          accs := [{ grp := 0, lane := 32, va, pc := 0, kind := .cmd 0 }] }
        (s.modCore core fun x => { x with parking := x.parking ++ [⟨idx, c, cause, fault, cmd, slot⟩] }).addRec r k
    match a, b with
    | .ok pa, .ok pb =>
      let s := (s.writePieces pa c.image).parkedOut core slot
      let rec0 : Async := { asid := c.asid, cause, engine := 5, core, addr := c.park, detail := c.id }
      let s := if fault then
          let seq := match s.ctx? c.asid with
            | some x => x.recSeq
            | none => 0
          (s.writePieces pb (rec0.bytes false seq s.clock)).postAsync rec0
        else s
      match cmd with
      | some k => s.replyAll k 0
      | none => s
    | .error (va, .miss k), _ => late va k
    | _, .error (va, .miss k) => late va k
    | _, _ => s.parkDead core c 0x30F cmd slot

/-- Replays the parking that waits for a record, or for want of one (R304). -/
def State.replayPark (s : State) (core idx : Nat) : State :=
  let (mine, rest) := (s.core core).parking.partition fun p => p.idx == idx
  mine.foldl (fun s p => s.parkCaps core p.caps p.cause p.fault p.cmd p.slot (if idx == recLimit 0 then none else some idx))
    (s.modCore core fun x => { x with parking := rest })

end Sys2Proof.Machine
end

