-- ==== Sys2Proof/Machine/Paths.lean ====
section
/-! DEFINITION. The path table of a wave: divergence and joins (R137 to R141), branches and the spin
detector (R142, R143, R151). -/

namespace Sys2Proof.Machine

/-- A path that can issue. -/
def Path.ready (p : Path) : Bool := !p.reconv && !p.waiting && p.mask != 0

/-- A resident entry. -/
def Path.resident (p : Path) : Bool := p.spill.isNone

/-- The best of some paths: lowest PC, then created earlier (R140). -/
def bestPath (ps : List Path) : Option Path :=
  ps.foldl (fun a p => match a with
    | none => some p
    | some b =>
      if Nat.blt p.pc.toNat b.pc.toNat || (p.pc == b.pc && Nat.blt p.made b.made) then some p else a) none

/-- The path that issues next (R140). -/
def Wave.choose (w : Wave) : Option Path :=
  let ps := w.paths.filter fun p => p.ready && p.resident
  match bestPath (ps.filter fun p => !p.demoted) with
  | some p => some p
  | none => bestPath ps

/-- The oldest of some entries. -/
def oldestPath (ps : List Path) : Option Path :=
  ps.foldl (fun a p => match a with
    | none => some p
    | some b => if Nat.blt p.made b.made then some p else a) none

/-- The most recently spilled of some entries. -/
def lastSpilled (ps : List Path) : Option Path :=
  ps.foldl (fun a p => match a with
    | none => some p
    | some b => if Nat.blt (b.spill.getD 0) (p.spill.getD 0) then some p else a) none

/-- Marks an entry spilled or resident. -/
def Wave.setSpill (w : Wave) (made : Nat) (x : Option Nat) : Wave :=
  w.modPath made fun p => { p with spill := x }

/-- Spills the oldest resident entry (R141). -/
def Wave.spillOldest (w : Wave) : Wave :=
  match oldestPath (w.paths.filter Path.resident) with
  | some p => { w.setSpill p.made (some w.made) with made := w.made + 1 }
  | none => w

/-- Adds an entry, spilling the oldest resident one when all eight are full (R141). -/
def Wave.addPath (w : Wave) (pc join : DWord) (mask : Lanes) : Wave :=
  let w := if Nat.ble 8 (w.paths.filter Path.resident).length then w.spillOldest else w
  { w with paths := w.paths ++ [{ pc, join, mask, made := w.made }], made := w.made + 1 }

/-- Refills freed resident entries by the most recently spilled ones (R141). -/
def Wave.refill : Nat → Wave → Wave
  | 0, w => w
  | n + 1, w =>
    if Nat.ble 8 (w.paths.filter Path.resident).length then w
    else match lastSpilled (w.paths.filter fun p => !p.resident) with
      | some p => Wave.refill n (w.setSpill p.made none)
      | none => w

/-- The distinct targets of lanes, by ascending target PC, with their lanes. -/
def splitTargets (ts : List (Nat × DWord)) : List (DWord × Lanes) :=
  let pcs := ts.foldl (fun l t =>
    if l.any fun x => x == t.2 then l
    else (l.filter fun x => Nat.blt x.toNat t.2.toNat) ++ [t.2] ++
      l.filter fun x => !Nat.blt x.toNat t.2.toNat) []
  pcs.map fun pc => (pc, maskOf fun l => ts.any fun t => t.1 == l && t.2 == pc)

/-- Whether a divergence would make more than 64 entries (R141). -/
def Wave.overflows (w : Wave) (p : Path) (targets : List (DWord × Lanes)) : Bool :=
  Nat.blt 1 targets.length &&
    Nat.blt 64 (w.paths.length + targets.length - (if p.armed then 0 else 1))

/-- Replaces the entry of a path that diverges (R138). -/
def Wave.diverge (w : Wave) (p : Path) (targets : List (DWord × Lanes)) : Wave :=
  let (w, join) :=
    if p.armed then
      (w.modPath p.made fun q =>
        { pc := q.armPc, join := q.join, mask := q.mask, reconv := true, made := q.made }, p.armPc)
    else ({ w with paths := w.paths.filter fun q => q.made != p.made }, p.join)
  (targets.foldl (fun w t => w.addPath t.1 join t.2) w).refill 64

/-- The spin detector at a branch of a path to one target (R151). -/
def Path.spin (p : Path) (target : DWord) : Path :=
  if Nat.ble target.toNat p.pc.toNat then
    let n := if p.pc == p.loopb && !p.changed then (if Nat.blt 1 (p.spins + 1) then 2 else p.spins + 1)
      else 0
    { p with spins := n, loopb := p.pc, changed := false,
             demoted := n == 2 || (p.demoted && p.pc == p.loopb) }
  else if p.pc == p.loopb then { p with demoted := false }
  else p

/-- A branch of the lanes of a path: each lane has its next PC. The armed join is consumed (R138). -/
def Wave.branch (w : Wave) (p : Path) (targets : List (DWord × Lanes)) : Wave :=
  match targets with
  | [] => w.modPath p.made fun q => { q with pc := q.pc + 4, armed := false }
  | [(pc, _)] =>
    w.modPath p.made fun q => { Path.spin q pc with pc := pc, armed := false }
  | _ => w.diverge p targets

/-- Live lanes of a mask. -/
def Wave.liveOf (w : Wave) (p : Path) : Lanes := p.mask &&& w.live

/-- A reconvergence entry whose live lanes all wait at its PC (R139). -/
def Wave.canRejoin (w : Wave) (r : Path) : Bool :=
  let there := w.paths.filter fun q => q.waiting && q.join == r.pc
  r.reconv && w.liveOf r != 0 &&
    (w.liveOf r &&& ~~~(there.foldl (fun m q => m ||| q.mask) (0 : Lanes))) == 0

/-- Two ready paths that merge: equal PC and equal JOIN (R139). -/
def Wave.canMerge (w : Wave) : Option (Path × Path) :=
  (w.paths.filter Path.ready).foldl (fun a p =>
    match a with
    | some x => some x
    | none =>
      match w.paths.find? fun q =>
          q.ready && Nat.blt p.made q.made && q.pc == p.pc && q.join == p.join with
      | some q => some (p, q)
      | none => none) none

/-- The reconvergence entry that comes first of those that are due: the one of fewest lanes, and then the one made
last, so that nested arms that join at one PC meet from the inside out (R139; log entry 94). -/
def Wave.dueRejoin? (w : Wave) : Option Path :=
  let size (p : Path) : Nat := (lanesOf p.mask).length
  (w.paths.filter w.canRejoin).foldl (fun a p => match a with
    | none => some p
    | some b =>
      if Nat.blt (size p) (size b) || (size p == size b && Nat.blt b.made p.made) then some p else a) none

/-- One merge or reconvergence, if one is due (R139). After it the wave has no current path until it issues,
so that a run begins (R131). Of two equal paths the entry made earlier stays, with its armed join, SPINS, CHANGED,
DEMOTED and LOOPB: the spec gives the union of the masks alone (DESIGN CHOICE, log entry 94). At a reconvergence the
lanes of the entry leave the paths that wait for them; a path that waits with other lanes too keeps those. -/
def Wave.reconverge? (w : Wave) : Option Wave :=
  match w.canMerge with
  | some (p, q) =>
    some (Wave.refill 64 { w with
      cur := w.made
      made := w.made + 1
      paths := (w.paths.filter fun (x : Path) => x.made != q.made).map fun (x : Path) =>
        if x.made == p.made then { x with mask := x.mask ||| q.mask } else x })
  | none =>
    match w.dueRejoin? with
    | some r =>
      some (Wave.refill 64 { w with
        paths := (w.paths.map fun q =>
          if q.made == r.made then { q with reconv := false }
          else if q.waiting && q.join == r.pc then { q with mask := q.mask &&& ~~~r.mask } else q).filter
            fun q => q.mask != 0 })
    | none => none

/-- A spilled entry must be restored: no resident entry can issue and a spilled one is ready (R141). -/
def Wave.restore? (w : Wave) : Option Wave :=
  if w.paths.any fun p => p.resident && p.ready then none
  else match lastSpilled (w.paths.filter fun p => !p.resident && p.ready) with
    | some p =>
      let w := if Nat.ble 8 (w.paths.filter Path.resident).length then w.spillOldest else w
      some (w.setSpill p.made none)
    | none => none

/-- Lanes end: they leave every mask, and helper lanes of a quad that has no other lane end too (R144). -/
def Wave.endLanes (w : Wave) (m : Lanes) : Wave :=
  let live := w.live &&& ~~~m
  let real := live &&& ~~~w.helper
  let live := live &&& ~~~(maskOf fun l =>
    w.helper.getLsbD l && !((List.range 4).any fun k => real.getLsbD (l / 4 * 4 + k)))
  Wave.refill 64 { w with
    live
    paths := ((w.paths.map fun p => { p with mask := p.mask &&& live }).filter fun p => p.mask != 0) }

/-- The next run begins (R131): nothing is pending, and the count starts again. -/
def Wave.newRun (w : Wave) : Wave := { w with count := 0, haz := [], stat := .run }

end Sys2Proof.Machine
end

