-- ==== Sys2Proof/Machine/Groups.lean ====
section
/-! DEFINITION. Groups and the life of waves: starting a wave (R159), outstanding accesses of a group
(R238), barriers (R146), and the end of a wave (R144, R173, R305). -/

namespace Sys2Proof.Machine

/-! ## Starting -/

/-- Helper lanes that fill the partial quads of a mask (R20). -/
def helperFill (m : Lanes) : Lanes :=
  maskOf fun l => !m.getLsbD l && (List.range 4).any fun k => m.getLsbD (l / 4 * 4 + k)

/-- A wave as it starts (R159). A firmware wave has no helper lanes (R24). -/
def newWave (core slot gslot idx : Nat) (kind : WKind) (m : Lanes) (pc : DWord) (prio : BitVec 2)
    (fpcr : Word) (ws : Tab Word) : Wave :=
  let h := match kind with
    | .firmware => 0
    | _ => helperFill m
  { core, slot, gslot, idx, kind, w := ws, live := m ||| h, helper := h,
    paths := [{ pc, join := BitVec.allOnes 64, mask := m ||| h, made := 0 }], fpcr, prio }

/-- w registers as a table. -/
def wregs (kvs : List (Nat × Word)) : Tab Word := Tab.putAll 0 [] kvs

/-- The words of a pair of w registers. -/
def wpair (r : Nat) (v : DWord) : List (Nat × Word) :=
  [(r, v.setWidth 32), (r + 1, v.extractLsb' 32 32)]

/-- A slot holds no wave, or one that has ended and has nothing outstanding. -/
def State.slotFree (s : State) (core slot : Nat) : Bool :=
  match s.wave? core slot with
  | none => true
  | some w => w.stat == .ended && w.pend.isEmpty && w.behind.isEmpty && (s.recsOf w).isEmpty &&
      !s.cmds.any fun c => c.core == core && c.slot == slot

/-- Puts a wave into its slot. -/
def State.placeWave (s : State) (w : Wave) : State :=
  { s with waves := (s.waves.filter fun v => !v.at w.core w.slot) ++ [w] }

/-- A wave starts in its slot. -/
def State.startWave (s : State) (w : Wave) : State :=
  let (born, s) := s.fresh
  s.placeWave { w with born }

/-! ## The save area -/

/-- The number of a group slot as an owner of format contexts. -/
def ownerCode (core gslot : Nat) : Nat := 32 * (core % 2) + gslot

/-- A format context of a cluster. -/
def State.fctx (s : State) (cl k : Nat) : FCtx := (s.cluster cl).fctx.getD k {}

/-- The format contexts that a group owns, by number. -/
def State.ownedFctx (s : State) (g : Group) : List (Nat × FCtx) :=
  (List.range 4).filterMap fun k =>
    let f := s.fctx (clusterOf g.core) k
    if f.owner == some (ownerCode g.core g.gslot) then some (k, f) else none

/-- A number rounded up to a multiple. -/
def roundUp (n k : Nat) : Nat := (n + k - 1) / k * k

/-- Where the format-context block lies in the save region of a group (Table 17-9). -/
def Group.fctxOff (g : Group) : Nat := roundUp (0x2400 + 1024 * g.localkb) 4096

/-- Where the wave blocks lie, with or without a format-context block. -/
def Group.wavesOff (g : Group) (fc : Bool) : Nat := roundUp (g.fctxOff + (if fc then 0x16000 else 0)) 1024

/-- Bytes of the region of a group. -/
def Group.saveSize (g : Group) (fc : Bool) : Nat := g.wavesOff fc + 0x2C00 * g.slots.length

/-- Where the save region of a group lies (R406). -/
def Ctx.saveAt (c : Ctx) (g : Group) : Nat := c.save + (32 * g.core + g.gslot) * c.sstride

/-- The region of a group fits, and lies in device memory (R406). -/
def State.saveOk (s : State) (c : Ctx) (g : Group) : Bool :=
  let n := g.saveSize !(s.ownedFctx g).isEmpty
  Nat.ble n c.sstride && inDev (c.saveAt g) && inDev (c.saveAt g + n - 1)

/-- The path table of a wave in the save region of its group, when the region holds it (R137, R406). -/
def State.pathTable (s : State) (w : Wave) : Option Nat :=
  match s.groupOf w with
  | none => none
  | some g => match s.ctx? g.asid with
    | none => none
    | some c =>
      if s.saveOk c g then some (c.saveAt g + g.wavesOff (!(s.ownedFctx g).isEmpty) + 0x2C00 * w.idx + 0x400)
      else none

/-- A path entry (Table 6-2). -/
def Path.bytes32 (p : Path) : List Byte :=
  let bit (b : Bool) (k : Nat) : Nat := if b then 2 ^ k else 0
  bytesLE 8 p.pc.toNat ++ bytesLE 8 p.join.toNat ++ bytesLE 4 p.mask.toNat ++
  bytesLE 1 (bit p.reconv 0 + bit p.waiting 1 + bit p.demoted 2 + bit p.changed 3 + p.spins % 4 * 16 + bit p.armed 6) ++
  bytesLE 3 0 ++ bytesLE 8 (if p.armed && p.loopb == 0 then p.armPc.toNat else p.loopb.toNat)

/-- The spilled entries of a wave lie in its save area, each in its place in the path table (R137, R141; log entry
98). -/
def State.storeSpills (s : State) (w : Wave) : State :=
  let out := (w.paths.zipIdx.filter fun e => !e.1.resident)
  if out.isEmpty then s
  else match s.pathTable w with
    | none => s
    | some at_ => out.foldl (fun s e => s.bankWrite (at_ + 32 * e.2) e.1.bytes32) s

/-! ## What a group has outstanding -/

/-- The instructions of the waves of some slots that have accesses outstanding. -/
def State.grpsOf (s : State) (core : Nat) (mine : Nat → Bool) : List Nat :=
  let a := ((s.core core).sq.filter fun e => mine e.slot).map fun e => e.grp
  let b := ((s.waves.filter fun w => w.core == core && mine w.slot).map fun w =>
    (w.pend.filterMap fun p => p.src.grp?) ++ (w.pend.filterMap fun p => p.dst.push?.map fun x => x.2.2) ++
      w.behind.map fun a => a.grp).flatten
  let c := (((s.core (recHome core)).recs.filter fun r =>
    r.src == 0 && r.core == core && !r.frozen && mine r.slot).map fun r => r.accs.map fun a => a.grp).flatten
  (a ++ b ++ c).eraseDups

/-- The wave slots of the group of a wave; a firmware wave stands alone. -/
def State.groupSlotsOf (s : State) (w : Wave) (slot : Nat) : Bool :=
  match s.groupOf w with
  | some g => g.slots.any fun k => k == slot
  | none => slot == w.slot

/-- The accesses that come before a release of a wave (R235, R238): what its group has outstanding, and the stores of other
groups of the core that a wave of the group has read. -/
def State.groupGrps (s : State) (w : Wave) : List Nat :=
  (s.grpsOf w.core (s.groupSlotsOf w) ++
    ((s.waves.filter fun v => v.core == w.core && s.groupSlotsOf w v.slot).map fun v =>
      v.seen.filter (s.outstanding w.core)).flatten).eraseDups

/-- Some wave of the group holds a faulted access that is not replayed. -/
def State.groupFaulted (s : State) (w : Wave) : Bool :=
  s.waves.any fun v => v.core == w.core && s.groupSlotsOf w v.slot && s.faulted v

/-! ## Barriers -/

/-- The waves that barriers count: live waves of the group that are no task waves (R146, R173). -/
def State.barrierWaves (s : State) (core gslot : Nat) : List Wave :=
  s.waves.filter fun w => w.core == core && w.gslot == gslot && w.live != 0 && match w.kind with
    | .launched => true
    | .handler => true
    | _ => false

/-- A wait that the completion of a phase of a barrier ends. -/
def WStat.barDone (x : WStat) (n phase : Nat) : WStat :=
  match x with
  | .barrier m ph => if m == n && Nat.blt ph phase then .switch else x
  | _ => x

/-- A wait that a zero pending-byte counter ends. -/
def WStat.bytesDone (x : WStat) (n : Nat) : WStat :=
  match x with
  | .bytes m => if m == n then .switch else x
  | _ => x

/-- Changes the statuses of the waves of a group, parked ones included. -/
def State.modStats (s : State) (core gslot : Nat) (f : WStat → WStat) : State :=
  { s with
    waves := s.waves.map fun w =>
      if w.core == core && w.gslot == gslot then { w with stat := f w.stat, prev := f w.prev } else w }

/-- The barrier completes its phase if it may (R146). The watchdog restarts (R155). `acq`: the counter
came to zero by a copy or a wake, so that the completion acquires at device scope. -/
def State.checkBarrier (s : State) (core gslot n : Nat) (acq : Bool) : State :=
  match s.group? core gslot with
  | none => s
  | some g =>
    let b := Tab.get {} g.barriers n
    let s := if b.bytes == 0 then s.modStats core gslot fun x => x.bytesDone n else s
    let s := if b.bytes == 0 && acq then s.l1Clear core else s
    let live := s.barrierWaves core gslot
    if live.isEmpty || b.bytes != 0 || !live.all fun w => b.arrivals.any fun k => k == w.slot then s
    else
      let s := s.modGroup core gslot fun g =>
        { g with barriers := Tab.put {} g.barriers n { b with phase := b.phase + 1, arrivals := [] } }
      let s := s.modStats core gslot fun x => x.barDone n (b.phase + 1)
      s.modCtx g.asid fun c => { c with wdog := 0 }

/-- Adds to a pending-byte counter (R288). -/
def State.addBytes (s : State) (core gslot n : Nat) (k : Int) (acq : Bool) : State :=
  let s := s.modGroup core gslot fun g =>
    let b := Tab.get {} g.barriers n
    { g with barriers := Tab.put {} g.barriers n { b with bytes := b.bytes + k } }
  s.checkBarrier core gslot n acq

/-- The pending-byte counter of a barrier. -/
def Group.bytesAt (g : Group) (n : Nat) : Int := (Tab.get {} g.barriers n).bytes

/-! ## Capsule slots -/

/-- The group-local offset of a capsule-window slot (R184). -/
def Group.slotBase (g : Group) (k : Nat) : Nat := 1024 * g.localkb - 4352 * (g.cslots - k)

/-- The capsule in a slot: the kept fields, and the bytes as they stand (R295, R301). -/
def Group.capsAt (g : Group) (k : Nat) (x : CSlot) : Caps :=
  let b := g.loc.read (g.slotBase k) 4224
  { capsOf b x.cls g.core x.seq with
    asid := x.asid, id := x.id, flags := x.flags, index := x.index, count := x.count, len := x.len,
    origin := x.origin, magic := 0xCA95, major := 1, tile := (b.drop 128).take (256 * x.len) }

/-- Parks the capsules that a wave of a group still owns, by a cause (R305). -/
def State.parkOwned (s : State) (core gslot slot : Nat) (cause : Cause) : State :=
  match s.group? core gslot with
  | none => s
  | some g =>
    g.caps.foldl (fun s e =>
      match e.2 with
      | some x =>
        if x.owner == some slot then
          let (id, s) := s.fresh
          (s.modGroup core gslot fun g => { g with
            caps := Tab.put none g.caps e.1 (some { x with owner := none, out := some id }) }).parkCaps core
              (g.capsAt e.1 x) cause true none (some (gslot, id)) none
        else s
      | none => s) s

/-! ## The end of a wave -/

/-- The decrement of a task's join counter, a release (R173, R242). -/
def State.joinDown (s : State) (w : Wave) (join : DWord) : State :=
  let needs := s.groupGrps w
  let (grp, s) := s.fresh
  s.issueAccs w.core w.slot none
    [{ grp, lane := 0, va := join, pc := 0,
       kind := .rmw .addSi32 0xFFFFFFFF 0 false needs }]

/-- A wave has no live lane: its arrivals leave the barriers, its capsules are parked, a task's counter
goes down, and the group ends with its last wave (R144, R146, R173). An enabled floating-point exception that still waits
for a switch point has no wave to park, and no message of it is sent (DESIGN CHOICE, log entry 97; R95). -/
def State.endWave (s : State) (core slot : Nat) (cause : Cause) : State :=
  match s.wave? core slot with
  | none => s
  | some w =>
    let s := s.setWave { w with live := 0, paths := [], stat := .ended, excs := [] }
    let s := match w.kind with
      | .task join _ => if join == 0 then s else s.joinDown w join
      | _ => s
    if isService core then s
    else
      let s := s.parkOwned core w.gslot slot cause
      let s := s.modGroup core w.gslot fun g =>
        { g with barriers := Tab.update {} (fun b =>
            { b with arrivals := b.arrivals.filter fun k => k != slot }) g.barriers }
      let s := (List.range 16).foldl (fun s n => s.checkBarrier core w.gslot n false) s
      let s := s.modCtx (s.asidOf w) fun c => { c with wdog := 0 }
      if s.waves.any fun v => v.core == core && v.gslot == w.gslot && v.live != 0 then s
      else s.modGroup core w.gslot fun g => { g with ended := g.hgd.isNone }

/-- Lanes of a wave execute EXIT (R144). -/
def State.exitLanes (s : State) (w : Wave) (m : Lanes) (cause : Cause) : State :=
  let w := w.endLanes m
  if w.live == 0 then (s.setWave w).endWave w.core w.slot cause else (s.settle w).storeSpills w

end Sys2Proof.Machine
end

