-- ==== Sys2Proof/Machine/Ops.lean ====
section
/-! DEFINITION. Taking a trap at issue (R395) and the return from one (R398), the elements of
streams (R127), and what every X form does (R29, R150). -/

namespace Sys2Proof.Machine

/-! ## Traps -/

/-- Takes a trap at issue: the outstanding results are written first, then the record is sent to the
service core and the wave parks (R43, R395). The instruction has no effect. -/
def State.trap (s : State) (w : Wave) (p : Path) (t : Trap) : State :=
  s.settle { w with stat := .trapping t (w.lanesOfPath p) p.pc }

/-- A trap that carries only its cause. -/
def State.trapBy (s : State) (w : Wave) (p : Path) (c : Cause) : State := s.trap w p { cause := c }

/-- Puts an instruction off: the wave issues it again when its faulted accesses are replayed (R264). -/
def State.stallWave (s : State) (w : Wave) : State :=
  s.setWave { w with stat := if w.stat == .run then .stall else w.stat }

/-! ## Streams -/

/-- The registers of an operand include g(60 + st). -/
def covers (r : Reg × Nat) (st : Nat) : Bool :=
  Nat.ble r.1.toNat (60 + st) && Nat.blt (60 + st) (r.1.toNat + r.2)

/-- Element (L, i) exists (R127). -/
def Stream.has (x : Stream) (l : Nat) : Bool := Nat.blt (32 * x.pos + l) x.count

/-- The address of element (L, POS). -/
def Stream.va (x : Stream) (l : Nat) : DWord :=
  x.base + BitVec.ofNat 64 l * x.lstride.signExtend 64 + BitVec.ofNat 64 x.pos * x.estride.signExtend 64

/-- A destination that a write stream takes: the push to its element (R127). -/
def Wave.pushOf (w : Wave) (grp : Nat) (pc : DWord) (d : Dst) : Option Dst :=
  match d with
  | .g r l =>
    if Nat.blt r.toNat 60 then none
    else match assoc w.streams (r.toNat - 60) with
      | some x => if x.push then some (.push (x.va l) x.size l grp pc) else none
      | none => none
  | _ => none

/-- Results, with pushes in the place of the registers that write streams take; helper lanes do not
push (R127). -/
def Wave.routed {α : Type} (w : Wave) (grp : Nat) (pc : DWord) (rs : List (Dst × α)) : List (Dst × α) :=
  rs.filterMap fun r => match w.pushOf grp pc r.1 with
    | none => some r
    | some d => match d.lane? with
      | some l => if w.helper.getLsbD l then none else some (d, r.2)
      | none => some (d, r.2)

/-- The wave before its streams' last step: where the instruction that has just stepped them acted (R127). -/
def Wave.stepBack (w : Wave) : Wave :=
  { w with streams := w.streams.map fun e => (e.1, { e.2 with pos := e.2.pos - 1 }) }

/-! ## The return from a trap -/

/-- The message that a wave waits on (R395, R402). -/
def WStat.waiting? (x : WStat) : Option Waiting :=
  match x with
  | .trapped m => some m
  | .frozen m => some m
  | _ => none

/-- The status of a wave that goes on at a time: a wait that it was in goes on (R402). -/
def WStat.goOn (prev : WStat) (time : Nat) : WStat :=
  match prev with
  | .run => .resume time
  | .switch => .resume time
  | .stall => .resume time
  | x => x

/-- Whether an access belongs to an instruction that has not issued: an element of a stream that is
waited for, or a fetch. -/
def Acc.early (a : Acc) : Bool :=
  match a.kind with
  | .element _ _ => true
  | .fetch => true
  | _ => false

/-- The accesses of a wave that records hold are abandoned, with the commands that they belong to and the results that they
were to give (R398): the accesses, the wave, and the state without the records. -/
def State.abandon (s : State) (w : Wave) (mine : FRec → Bool) : List Acc × Wave × State :=
  let home := recHome w.core
  let accs := (((s.core home).recs.filter mine).map fun r => r.accs).flatten
  let s := s.modCore home fun c => { c with recs := c.recs.filter fun r => !mine r }
  let gone (id : Nat) : Bool := accs.any fun a => a.kind == .cmd id
  (accs, { w with
    pend := w.pend.filter fun q => !(accs.any fun a => q.belongs a) && match q.src with
      | .reply id => !gone id
      | _ => true }, { s with cmds := s.cmds.filter fun c => !gone c.id })

/-- A frozen wave is answered: RETRY replays the frozen accesses from their record, NEXT abandons them
and their registers stay as they are (Table 17-4). -/
def State.answerFrozen (s : State) (w : Wave) (retry : Bool) (time : Nat) : State :=
  let home := recHome w.core
  let mine (r : FRec) : Bool := r.src == 0 && r.core == w.core && r.slot == w.slot && r.frozen && r.told
  if retry then
    let s := s.modCore home fun c =>
      { c with recs := c.recs.map fun r =>
          if mine r then { r with frozen := false, ready := true, told := false } else r }
    (s.settle { w with stat := w.prev.goOn time, prev := .run }).tellFrozen w.core w.slot
  else
    let (accs, w, s) := s.abandon w mine
    let w := { w with stat := w.prev.goOn time, prev := .run }
    let w := if accs.any Acc.early then w.modCur fun p => { p with pc := p.pc + 4 } else w
    ((((s.setWave w).finishAcq w.core w.slot).drainCore w.core).resettle w.core w.slot).tellFrozen w.core w.slot

/-- A wave that took a trap, an exception or a service call is answered by RETRY (0), NEXT (1) or VALUE
(2) (Table 17-4). After an exception both actions let it go on where it parked. The value goes to the destination of
the SVCALL in its lanes, or to the elements of a write stream bound there, at the step of the SVCALL (R127, R397). -/
def State.answerTrap (s : State) (w : Wave) (m : Waiting) (action : Nat) (v : Word) (time : Nat) :
    State :=
  if m.kind == 1 then
    if !w.excs.isEmpty && w.prev.atSwitch then s.sendExc { w with stat := w.prev, prev := .run }
    else (s.setWave { w with stat := w.prev.goOn time, prev := .run }).tellFrozen w.core w.slot
  else if action == 0 then (s.setWave { w with stat := .resume time }).tellFrozen w.core w.slot
  else
    let (grp, s) := s.fresh
    let w := if action == 2 then
        (w.stepBack.routed grp m.pc ((lanesOf (m.lanes &&& w.live)).map fun l => (Dst.g m.dst l, Src.val v))).foldl
          (fun w r => w.addPend false r.1 r.2) w
      else w
    (s.setWave { w.modCur (fun p => { p with pc := p.pc + 4 }) with stat := .resume time }).tellFrozen w.core w.slot

/-- The return from a trap: the answer to a wave that waits on a message (R398). -/
def State.returnFrom (s : State) (w : Wave) (action : Nat) (v : Word) (time : Nat) : State :=
  match w.stat with
  | .trapped m => s.answerTrap w m action v time
  | .frozen _ => s.answerFrozen w (action == 0) time
  | _ => s

/-- Actions that Table 17-4 allows for a waiting message: TERMINATE and ENDGROUP for any, VALUE for a
service call, RETRY and NEXT for the others. -/
def actionAllowed (kind action : Nat) : Bool :=
  Nat.ble 3 action || (if kind == 2 then action == 2 else Nat.blt action 2)

/-- The records of a wave that hold violating lanes are dropped. -/
def State.dropFrozen (s : State) (w : Wave) : State :=
  let (_, w, s) := s.abandon w fun r => r.src == 0 && r.core == w.core && r.slot == w.slot && r.frozen
  s.setWave w

/-- A format context that is owned no longer: its state is that of reset, and what waits in its inbox stays (R310). -/
def FCtx.released (f : FCtx) : FCtx := { inbox := f.inbox }

/-- The format contexts of a group slot are released (R310). -/
def State.releaseFctx (s : State) (core gslot : Nat) : State :=
  s.modCluster (clusterOf core) fun c =>
    { c with fctx := c.fctx.map fun f => if f.owner == some (ownerCode core gslot) then f.released else f }

/-- ENDGROUP: every wave of the group ends as by EXIT, and a format context that the group owns is
released (R398). -/
def State.endGroup (s : State) (w : Wave) : State :=
  let mine := s.waves.filter fun v => v.core == w.core && s.groupSlotsOf w v.slot
  let s := mine.foldl (fun (s : State) v => match s.wave? v.core v.slot with
    | none => s
    | some v =>
      let s := s.dropFrozen v
      if v.live != 0 then (s.endWave v.core v.slot 0x30D).drainBehind v.core v.slot
      else s.modWave v.core v.slot fun v => { v with stat := if v.stat.waits then .ended else v.stat }) s
  if isService w.core then s else s.releaseFctx w.core w.gslot

/-! ## X forms -/

/-- The path holds an active lane that is not a helper lane (R29). -/
def Wave.anyLane (w : Wave) (p : Path) : Bool := (w.lanesOfPath p &&& ~~~w.helper) != 0

/-- The wave after an X form has issued (R150). -/
def Wave.issued (w : Wave) (sw : Bool) : Wave := w.touch.retire sw

end Sys2Proof.Machine
end

