-- ==== Sys2Proof/Machine/Operands.lean ====
section
/-! DEFINITION. The operands of wave instructions: the registers that an instruction reads and writes
(R31, R32), checked issue (R136), streams (R127, R128), and the shared forms of an instruction that acts
per lane (R27), once per wave (R28) or as an X form (R29). -/

namespace Sys2Proof.Machine

/-- The operands of an instruction: its g sources and g destinations with their numbers of registers, its guard,
and the register lanes that it reads and writes when some lanes act. -/
structure Use where
  srcs : List (Reg × Nat) := []
  dsts : List (Reg × Nat) := []
  /-- The guard of the instruction (R27). -/
  guard : BitVec 3 := 7
  reads : Lanes → List Dst
  writes : Lanes → List Dst

/-- The 32-bit registers of operands, in some lanes. -/
def gLanes (rs : List (Reg × Nat)) (m : Lanes) : List Dst :=
  ((lanesOf m).map fun l => (rs.map fun r =>
    (List.range r.2).map fun k => Dst.g (r.1 + BitVec.ofNat 6 k) l).flatten).flatten

/-- The registers of w operands. -/
def wRegs (rs : List (Reg × Nat)) : List Dst :=
  (rs.map fun r => (List.range r.2).map fun k => Dst.w (r.1 + BitVec.ofNat 6 k)).flatten

/-- Predicates in some lanes. -/
def pLanes (ps : List (BitVec 3)) (m : Lanes) : List Dst :=
  ((lanesOf m).map fun l => ps.map fun p => Dst.p p l).flatten

/-- The operands of an instruction that acts per lane. -/
def laneUse (g : BitVec 3) (srcs dsts : List (Reg × Nat)) (ps pds : List (BitVec 3)) : Use where
  srcs := srcs
  dsts := dsts
  guard := g
  reads := fun m => gLanes srcs m ++ pLanes (g :: ps) m
  writes := fun m => gLanes dsts m ++ pLanes pds m

/-! ## Streams -/

/-- The bound streams that an instruction names. -/
def Wave.named (w : Wave) (u : Use) : List (Nat × Stream) :=
  w.streams.filter fun e => (u.srcs ++ u.dsts).any fun r => covers r e.1

/-- A use of a bound stream register that traps STREAM_USE (R128). -/
def Wave.badUse (w : Wave) (u : Use) : Bool :=
  w.streams.any fun e =>
    (u.srcs.any fun r => covers r e.1 && (e.2.push || r.2 != 1)) ||
    (u.dsts.any fun r => covers r e.1 && (!e.2.push || r.2 != 1))

/-- The lanes that have an element of every stream named: the others are tail lanes. -/
def Wave.notTail (w : Wave) (u : Use) : Lanes := maskOf fun l => (w.named u).all fun e => e.2.has l

/-- Elements that an instruction pops and that have not arrived. -/
def Wave.missing (w : Wave) (u : Use) (m : Lanes) : List (Nat × Nat) :=
  let rd := u.reads m
  ((w.named u).map fun e =>
    if e.2.push then []
    else ((List.range 32).filter fun l =>
      e.2.has l && (rd.any fun d => d == .g (BitVec.ofNat 6 (60 + e.1)) l) &&
      (assoc e.2.buf (32 * e.2.pos + l)).isNone).map fun l => (e.1, l)).flatten

/-- Gives an element a value. -/
def Wave.putElem (w : Wave) (st n : Nat) (v : Word) : Wave :=
  { w with
    streams := w.streams.map fun e =>
      if e.1 == st then (st, { e.2 with buf := setAssoc e.2.buf n v }) else e }

/-- A stream at a step: elements of earlier steps have gone. -/
def Stream.goTo (x : Stream) (pos : Nat) : Stream :=
  { x with pos, buf := x.buf.filter fun e => Nat.ble (32 * pos) e.1 }

/-- Fetches elements: an element of a helper lane that cannot be read is zero, the others are accesses
of the wave (R130). -/
def State.fetchElems (s : State) (w : Wave) (pc : DWord) (ms : List (Nat × Nat)) : State :=
  let (grp, s) := s.fresh
  let accs := ms.filterMap fun e => match assoc w.streams e.1 with
    | some x => some ({ grp, lane := e.2, va := x.va e.2, pc, word := w.word
                        kind := .element e.1 (32 * x.pos + e.2) } : Acc)
    | none => none
  let s := accs.foldl (fun s a =>
    if w.helper.getLsbD a.lane then
      match s.wave? w.core w.slot with
      | none => s
      | some v =>
        let zero (s : State) : State := match a.kind with
          | .element st n => s.modWave w.core w.slot fun v => v.putElem st n 0
          | _ => s
        match s.resolve v a with
        | (.ok pa how, s) => if s.popBad v a pa then zero s else s.makeAcc w.core w.slot a pa how
        | (_, s) => zero s
    else s) s
  s.issueAccs w.core w.slot none (accs.filter fun a => !w.helper.getLsbD a.lane)

/-- The bytes of elements. -/
def Wave.elemRanges (w : Wave) (ms : List (Nat × Nat)) : List (DWord × Nat) :=
  ms.filterMap fun e => match assoc w.streams e.1 with
    | some x => some (x.va e.2, Size.bytes x.size)
    | none => none

/-- The wave as an instruction reads it: a popped element stands in its stream register. In a tail lane, which has no
element, an XCHG of another lane reads the register under the stream (DESIGN CHOICE, log entry 96; R117, R127). -/
def Wave.view (w : Wave) (u : Use) : Wave :=
  (w.named u).foldl (fun w e =>
    if e.2.push then w
    else (e.2.buf.filter fun x => x.1 / 32 == e.2.pos).foldl (fun w x =>
      w.writeDst (.g (BitVec.ofNat 6 (60 + e.1)) (x.1 % 32)) x.2) w) w

/-- The streams that an instruction names go on by one step (R127). -/
def Wave.bump (w : Wave) (u : Use) : Wave :=
  let ns := (w.named u).map fun e => e.1
  if ns.isEmpty then w
  else
    { w with
      streams := w.streams.map fun (e : Nat × Stream) =>
        if ns.any (fun n => n == e.1) then (e.1, e.2.goTo (e.2.pos + 1)) else e : Wave }.touch

/-! ## Checked issue -/

/-- The first pending register that an instruction names, sources first (R136). -/
def Wave.hazard (w : Wave) (u : Use) (m : Lanes) : Option Dst :=
  if w.haz.isEmpty then none
  else (u.reads m ++ u.writes m).find? fun d => !d.isNull && w.haz.any fun h => h == d

/-- The lanes of a path whose guard is pending. They count as acting, so that a program traps in the same place
whether the predicate has landed or not (R136). -/
def Wave.unsure (w : Wave) (p : Path) (u : Use) : Lanes :=
  if u.guard == 7 || w.haz.isEmpty then 0
  else maskOf fun l => (w.lanesOfPath p).getLsbD l && w.haz.any fun d => d == .p u.guard l

/-- The register as a HAZARD record names it (Table 17-3). -/
def Dst.code (d : Dst) : Word :=
  match d with
  | .g r _ => r.setWidth 32
  | .w r => r.setWidth 32 ||| 64
  | .p r _ => r.setWidth 32
  | _ => 0

/-! ## Issue -/

/-- What becomes of an instruction before its effect: it traps or waits, or it goes on with the wave,
the wave as it is read, and the lanes that act. -/
inductive Ready where
  | stop (s : State)
  | go (s : State) (w view : Wave) (act : Lanes)

/-- An instruction that goes on: its context consumes what is poisoned of the registers that it reads, and the registers
that it writes hold poison no longer (R407). -/
def State.soak (s : State) (w : Wave) (u : Use) (m : Lanes) : Wave × State :=
  if w.poison.isEmpty then (w, s)
  else
    let s := if !isService w.core && (w.poison.any fun d => (u.reads m).any fun x => x == d) then
        s.modCtx (s.asidOf w) fun c => { c with soft := true }
      else s
    let w := { w with poison := w.poison.filter fun d => !(u.writes m).any fun x => x == d }
    (w, s.setWave w)

/-- The tests before an effect: STREAM_USE, STREAM_OVERRUN, HAZARD, then the wait for popped elements
(R127, R128, R136; log entry 30). -/
def State.ready (s : State) (w : Wave) (p : Path) (u : Use) (m : Lanes) : Ready :=
  if w.badUse u then .stop (s.trapBy w p 0x122)
  else if (w.named u).any fun e => Nat.ble e.2.count (32 * e.2.pos) then .stop (s.trapBy w p 0x120)
  else
    let act := m &&& w.notTail u
    match w.hazard u ((m ||| w.unsure p u) &&& w.notTail u) with
    | some d => .stop (s.trap w p { cause := 0x010, x := d.code })
    | none =>
      if (w.named u).isEmpty then
        let (w, s) := s.soak w u act
        .go s w w act
      else
        match s.beginAccess w with
        | (false, s) => .stop (s.modWave w.core w.slot fun w => { w with stat := .stall })
        | (true, s) =>
          match s.wave? w.core w.slot with
          | none => .stop s
          | some w =>
            let ms := w.missing u act
            let s := if ms.isEmpty then s
              else match s.flushFor w.core w.slot (w.elemRanges ms) with
                | (true, s) => s.fetchElems w p.pc ms
                | (false, s) => s
            match s.wave? w.core w.slot with
            | none => .stop s
            | some w =>
              if (w.missing u act).isEmpty then
                let (w, s) := s.soak w u act
                .go s w (w.view u) act
              else .stop (s.stallWave w)

/-- The stores of pushed results. -/
def pushAccs (rs : List (Dst × Word)) : List Acc :=
  rs.filterMap fun r => match r.1 with
    | .push va sz lane grp pc =>
      some { grp, lane, va, pc, kind := .store (bytesLE (Size.bytes sz) r.2.toNat) [] }
    | _ => none

/-- A push to the bytes of an outstanding push of its wave (R195). -/
def State.latePush (s : State) (w : Wave) (d : Dst) : Bool :=
  match d.push? with
  | some x => w.pushing && !(s.pushesAt w w.pend (x.1, x.2.1)).isEmpty
  | none => false

/-- Writes the results of an A-class instruction, goes on, and parks on an enabled exception (R92, R95,
R134). -/
def State.finishA (s : State) (w : Wave) (p : Path) (u : Use) (sw : Bool) (rs : List (Dst × Word))
    (fl : List (Nat × Flags)) : State :=
  let (grp, s) := s.fresh
  let rs := w.routed grp p.pc rs
  let fl := fl.filter fun x => !w.helper.getLsbD x.1
  let late (r : Dst × Word) : Bool := s.latePush w r.1
  let w := (w.bump u).writeAll (rs.filter fun r => r.1.push?.isNone)
  let w := { w with fpsr := w.fpsr ||| (allFlags fl).setWidth 32 }
  let w := (rs.filter late).foldl (fun w r => w.addPend false r.1 (.val r.2)) w
  let w := w.retire sw
  let accs := (pushAccs (rs.filter fun r => !late r)).map fun a => { a with word := w.word }
  let s := if accs.isEmpty then s.setWave w else (s.setWave w).issueAccs w.core w.slot none accs
  match s.wave? w.core w.slot with
  | none => s
  | some w =>
    match fpExc w.fpcr fl false p.pc with
    | some e => s.sendExc { w with excs := e :: w.excs }
    | none => s.settle w

/-- The results of an L-class instruction are outstanding; its exception waits for the switch point
(R86, R95, R134). -/
def State.finishL (s : State) (w : Wave) (p : Path) (u : Use) (sw : Bool) (rs : List (Dst × Src))
    (fl : List (Nat × Flags)) : State :=
  let checked := s.checkedOf w
  let (grp, s) := s.fresh
  let fl := fl.filter fun x => !w.helper.getLsbD x.1
  let w := (w.routed grp p.pc rs).foldl (fun w r => w.addPend checked r.1 r.2) (w.bump u)
  let w := if allFlags fl == 0 then w
    else w.addPend false .fpsr (.val ((allFlags fl).setWidth 32))
  let w := match fpExc w.fpcr fl true p.pc with
    | some e => { w with excs := w.excs ++ [e] }
    | none => w
  s.settle (w.retire sw)

/-- An instruction that acts per lane (R27): `f` gives a lane's results and flags. -/
def laneOp (s : State) (sw : Bool) (g : BitVec 3) (u : Use) (lcls : Bool)
    (f : Wave → Lanes → Nat → List (Dst × Word) × Flags) : Out :=
  withWave s fun w p =>
    match s.ready w p u (w.guarded g (w.lanesOfPath p)) with
    | .stop s => s
    | .go s w v act =>
      let rs := (lanesOf act).map fun l => (l, f v act l)
      let ws := (rs.map fun r => r.2.1).flatten
      let fl := rs.map fun r => (r.1, r.2.2)
      if lcls then s.finishL w p u sw (ws.map fun x => (x.1, Src.val x.2)) fl
      else s.finishA w p u sw ws fl

/-- The lane in which an instruction that acts once per wave reads its guard and its g operands (R28),
among lanes that are no tail lanes. -/
def Wave.actsIn (w : Wave) (g : BitVec 3) (m : Lanes) : Option Nat :=
  match lowest (m &&& ~~~w.helper) with
  | some l => if w.readP g l then some l else none
  | none => none

/-- The lane whose registers an instruction that acts once per wave reads: the lane in which it acts, or in which its
guard is pending (R28, R136). -/
def Wave.namesIn (w : Wave) (g : BitVec 3) (m : Lanes) : Option Nat :=
  match lowest (m &&& ~~~w.helper) with
  | some l => if w.readP g l || (g != 7 && w.haz.any fun d => d == .p g l) then some l else none
  | none => none

/-- The operands of an instruction that acts once per wave: g sources in its lane, w operands, and
destinations in given lanes. A pending guard is read, whatever it holds now (R136). -/
def waveUse (w : Wave) (g : BitVec 3) (srcs dsts wsrcs wdsts : List (Reg × Nat)) (ps pds : List (BitVec 3)) :
    Use where
  srcs := srcs
  dsts := dsts
  reads := fun m => match w.namesIn g m with
    | none => []
    | some l => gLanes srcs (BitVec.ofNat 32 (2 ^ l)) ++ pLanes (g :: ps) (BitVec.ofNat 32 (2 ^ l)) ++
        wRegs wsrcs
  writes := fun m => match w.actsIn g m with
    | none => []
    | some _ => gLanes dsts m ++ pLanes pds m ++ wRegs wdsts

/-- Goes on with an instruction that has no effect but its place in the run. -/
def State.passBy (s : State) (w : Wave) (u : Use) (sw : Bool) : State := s.settle ((w.bump u).retire sw)

/-- An instruction that acts once per wave (R28): when it acts, `f` gives the next state from the
wave, the wave as it is read, the lane of the operands, and the lanes of the path that are no tail lanes. -/
def waveOp (s : State) (sw : Bool) (g : BitVec 3) (srcs dsts wsrcs wdsts : List (Reg × Nat))
    (ps pds : List (BitVec 3)) (f : State → Wave → Wave → Path → Use → Nat → Lanes → State) : Out :=
  withWave s fun w p =>
    let u := waveUse w g srcs dsts wsrcs wdsts ps pds
    match s.ready w p u (w.lanesOfPath p) with
    | .stop s => s
    | .go s w v act =>
      match w.actsIn g act with
      | none => s.passBy w u sw
      | some l => f s w v p u l act

/-- An A-class instruction that acts once per wave and gives results. -/
def waveResult (s : State) (sw : Bool) (g : BitVec 3) (srcs dsts wsrcs wdsts : List (Reg × Nat))
    (ps pds : List (BitVec 3)) (f : Wave → Nat → Lanes → List (Dst × Word)) : Out :=
  waveOp s sw g srcs dsts wsrcs wdsts ps pds fun s w v p u l act =>
    s.finishA w p u sw (f v l act) []

/-- An X form (R29): when the path holds a lane, `f` gives the next state. Every X form sets CHANGED
(R150). -/
def xOp (s : State) (sw : Bool) (wsrcs wdsts : List (Reg × Nat)) (f : State → Wave → Path → State) :
    Out :=
  withWave s fun w p =>
    let u : Use := { reads := fun _ => wRegs wsrcs, writes := fun _ => wRegs wdsts }
    if w.anyLane p then
      match w.hazard u (w.lanesOfPath p) with
      | some d => s.trap w p { cause := 0x010, x := d.code }
      | none =>
        let (w, s) := s.soak w u (w.lanesOfPath p)
        f s w p
    else s.settle (w.retire sw)

/-- An X form's command has gone and its reply is outstanding (R23). -/
def State.xReply (s : State) (w : Wave) (sw : Bool) (d : Reg) (src : Src) : State :=
  s.settle ((w.addPend (s.checkedOf w) (.w d) src).issued sw)

end Sys2Proof.Machine
end

