-- ==== Sys2Proof/Machine/Integer.lean ====
section
/-! DEFINITION. The meanings of IARITH, IBIT, I64, the immediate forms, the compares, PRED and SEL
(R61 to R77). -/

namespace Sys2Proof.Machine

/-! ## Shared forms -/

/-- A lane writes one g register. -/
def laneG (c : Ctl) (d : Reg) (srcs : List (Reg × Nat)) (f : Wave → Nat → Word) (s : State) : Out :=
  laneOp s c.s c.p (laneUse c.p srcs [(d, 1)] [] []) false fun v _ l => ([(.g d l, f v l)], 0)

/-- The two words of a pair (R32). -/
def pairOf (d : Reg) (l : Nat) (v : DWord) : List (Dst × Word) :=
  [(.g d l, v.setWidth 32), (.g (d + 1) l, v.extractLsb' 32 32)]

/-- A lane writes a g pair. -/
def laneG2 (c : Ctl) (d : Reg) (srcs : List (Reg × Nat)) (f : Wave → Nat → DWord) (s : State) : Out :=
  laneOp s c.s c.p (laneUse c.p srcs [(d, 2)] [] []) false fun v _ l => (pairOf d l (f v l), 0)

/-- A lane writes a predicate. -/
def laneP (c : Ctl) (pd : BitVec 3) (srcs : List (Reg × Nat)) (ps : List (BitVec 3))
    (f : Wave → Nat → Bool) (s : State) : Out :=
  laneOp s c.s c.p (laneUse c.p srcs [] ps [pd]) false
    fun v _ l => ([(.p pd l, if f v l then 1 else 0)], 0)

/-- A function of two g registers (R66). -/
def alu (c : Ctl) (d a b : Reg) (f : Word → Word → Word) (s : State) : Out :=
  laneG c d [(a, 1), (b, 1)] (fun v l => f (v.readG a l) (v.readG b l)) s

/-- A function of one g register (R67). -/
def alu1 (c : Ctl) (d a : Reg) (f : Word → Word) (s : State) : Out :=
  laneG c d [(a, 1)] (fun v l => f (v.readG a l)) s

/-! ## The functions of Table 3-4 -/

def shlF {n : Nat} (a : BitVec n) (k : Word) : BitVec n := if k.toNat < n then a <<< k.toNat else 0
def shrF {n : Nat} (a : BitVec n) (k : Word) : BitVec n := a >>> k.toNat
def sraF {n : Nat} (a : BitVec n) (k : Word) : BitVec n := a.sshiftRight k.toNat
def minF (a b : Word) : Word := if a.slt b then a else b
def maxF (a b : Word) : Word := if a.slt b then b else a
def minuF {n : Nat} (a b : BitVec n) : BitVec n := if a.ult b then a else b
def maxuF {n : Nat} (a b : BitVec n) : BitVec n := if a.ult b then b else a
def mulhF (a b : Word) : Word := (a.signExtend 64 * b.signExtend 64).extractLsb' 32 32
def mulhuF (a b : Word) : Word := (a.setWidth 64 * b.setWidth 64).extractLsb' 32 32

/-- ADD (R66). -/
def execAddR (c : Ctl) (d a b : Reg) (s : State) : Out := alu c d a b (fun x y => x + y) s
/-- SUB (R66). -/
def execSubR (c : Ctl) (d a b : Reg) (s : State) : Out := alu c d a b (fun x y => x - y) s
/-- AND (R66). -/
def execAndR (c : Ctl) (d a b : Reg) (s : State) : Out := alu c d a b (fun x y => x &&& y) s
/-- OR (R66). -/
def execOrR (c : Ctl) (d a b : Reg) (s : State) : Out := alu c d a b (fun x y => x ||| y) s
/-- XOR (R66). -/
def execXorR (c : Ctl) (d a b : Reg) (s : State) : Out := alu c d a b (fun x y => x ^^^ y) s
/-- ANDN (R66). -/
def execAndn (c : Ctl) (d a b : Reg) (s : State) : Out := alu c d a b (fun x y => x &&& ~~~y) s
/-- SHL (R62). -/
def execShl (c : Ctl) (d a b : Reg) (s : State) : Out := alu c d a b shlF s
/-- SHR (R62). -/
def execShr (c : Ctl) (d a b : Reg) (s : State) : Out := alu c d a b shrF s
/-- SRA (R62). -/
def execSra (c : Ctl) (d a b : Reg) (s : State) : Out := alu c d a b sraF s
/-- MIN (R66). -/
def execMinR (c : Ctl) (d a b : Reg) (s : State) : Out := alu c d a b minF s
/-- MAX (R66). -/
def execMaxR (c : Ctl) (d a b : Reg) (s : State) : Out := alu c d a b maxF s
/-- MINU (R66). -/
def execMinu (c : Ctl) (d a b : Reg) (s : State) : Out := alu c d a b minuF s
/-- MAXU (R66). -/
def execMaxu (c : Ctl) (d a b : Reg) (s : State) : Out := alu c d a b maxuF s
/-- MUL (R66). -/
def execMulR (c : Ctl) (d a b : Reg) (s : State) : Out := alu c d a b (fun x y => x * y) s
/-- MULH (R66). -/
def execMulh (c : Ctl) (d a b : Reg) (s : State) : Out := alu c d a b mulhF s
/-- MULHU (R66). -/
def execMulhu (c : Ctl) (d a b : Reg) (s : State) : Out := alu c d a b mulhuF s

/-! ## IBIT -/

/-- Leading zeros. -/
def clzF (a : Word) : Word :=
  BitVec.ofNat 32 (((List.range 32).find? fun i => a.getLsbD (31 - i)).getD 32)
/-- One bits. -/
def popcF (a : Word) : Word := BitVec.ofNat 32 ((List.range 32).filter fun i => a.getLsbD i).length

/-- The field of R68: position and effective width. -/
def bfPos (b : Word) : Nat := (b.extractLsb' 0 5).toNat
def bfWidth (b : Word) : Nat := min (min (b.extractLsb' 8 6).toNat 32) (32 - bfPos b)

/-- BFXU (R68). -/
def bfxuF (a b : Word) : Word := BitVec.ofNat 32 (a.toNat / 2 ^ bfPos b % 2 ^ bfWidth b)
/-- BFX: the field sign-extended from its top bit; 0 for an empty field (R68). -/
def bfxF (a b : Word) : Word :=
  let w := bfWidth b
  let v := a.toNat / 2 ^ bfPos b % 2 ^ w
  if w == 0 then 0
  else if v / 2 ^ (w - 1) == 1 then BitVec.ofNat 32 (v + 2 ^ 32 - 2 ^ w) else BitVec.ofNat 32 v
/-- BFI: the field of `d` replaced (R68). -/
def bfiF (d a b : Word) : Word :=
  let m : Word := BitVec.ofNat 32 ((2 ^ bfWidth b - 1) * 2 ^ bfPos b)
  (d &&& ~~~m) ||| ((a <<< bfPos b) &&& m)

/-- CLZ (R67). -/
def execClz (c : Ctl) (d a : Reg) (s : State) : Out := alu1 c d a clzF s
/-- POPC (R67). -/
def execPopc (c : Ctl) (d a : Reg) (s : State) : Out := alu1 c d a popcF s
/-- BREV (R67). -/
def execBrev (c : Ctl) (d a : Reg) (s : State) : Out := alu1 c d a (fun x => x.reverse) s
/-- BFX (R68). -/
def execBfx (c : Ctl) (d a b : Reg) (s : State) : Out := alu c d a b bfxF s
/-- BFXU (R68). -/
def execBfxu (c : Ctl) (d a b : Reg) (s : State) : Out := alu c d a b bfxuF s
/-- BFI (R68). -/
def execBfi (c : Ctl) (d a b : Reg) (s : State) : Out :=
  laneG c d [(d, 1), (a, 1), (b, 1)]
    (fun v l => bfiF (v.readG d l) (v.readG a l) (v.readG b l)) s
/-- ABSD (R69). -/
def execAbsd (c : Ctl) (d a b : Reg) (s : State) : Out :=
  alu c d a b (fun x y => if x.slt y then y - x else x - y) s

/-- The carry chains write p6 too (R70). -/
def chain (c : Ctl) (d a b : Reg) (f : Word → Word → Bool → Word × Bool) (s : State) : Out :=
  laneOp s c.s c.p (laneUse c.p [(a, 1), (b, 1)] [(d, 1)] [6] [6]) false fun v _ l =>
    let r := f (v.readG a l) (v.readG b l) (v.readP 6 l)
    ([(.g d l, r.1), (.p 6 l, if r.2 then 1 else 0)], 0)

/-- ADDC (R70). -/
def execAddc (c : Ctl) (d a b : Reg) (s : State) : Out := chain c d a b addCarry s
/-- SUBB (R70). -/
def execSubb (c : Ctl) (d a b : Reg) (s : State) : Out := chain c d a b subBorrow s

/-- LEA with a shift (R71). -/
def leaOp (k : Nat) (c : Ctl) (d a b : Reg) (s : State) : Out :=
  laneG2 c d [(a, 2), (b, 1)]
    (fun v l => v.readG2 a l + ((v.readG b l).signExtend 64 <<< k)) s

/-- LEA (R71). -/
def execLea (c : Ctl) (d a b : Reg) (s : State) : Out := leaOp 0 c d a b s
/-- LEA.2 (R71). -/
def execLea2 (c : Ctl) (d a b : Reg) (s : State) : Out := leaOp 1 c d a b s
/-- LEA.4 (R71). -/
def execLea4 (c : Ctl) (d a b : Reg) (s : State) : Out := leaOp 2 c d a b s
/-- LEA.8 (R71). -/
def execLea8 (c : Ctl) (d a b : Reg) (s : State) : Out := leaOp 3 c d a b s

/-! ## I64 -/

/-- A function of two pairs. -/
def alu64 (c : Ctl) (d a b : Reg) (f : DWord → DWord → DWord) (s : State) : Out :=
  laneG2 c d [(a, 2), (b, 2)] (fun v l => f (v.readG2 a l) (v.readG2 b l)) s
/-- A shift of a pair by one register. -/
def shift64 (c : Ctl) (d a b : Reg) (f : DWord → Word → DWord) (s : State) : Out :=
  laneG2 c d [(a, 2), (b, 1)] (fun v l => f (v.readG2 a l) (v.readG b l)) s

/-- ADD64 (R72). -/
def execAdd64 (c : Ctl) (d a b : Reg) (s : State) : Out := alu64 c d a b (fun x y => x + y) s
/-- SUB64 (R72). -/
def execSub64 (c : Ctl) (d a b : Reg) (s : State) : Out := alu64 c d a b (fun x y => x - y) s
/-- SHL64 (R72). -/
def execShl64 (c : Ctl) (d a b : Reg) (s : State) : Out := shift64 c d a b shlF s
/-- SHR64 (R72). -/
def execShr64 (c : Ctl) (d a b : Reg) (s : State) : Out := shift64 c d a b shrF s
/-- SRA64 (R72). -/
def execSra64 (c : Ctl) (d a b : Reg) (s : State) : Out := shift64 c d a b sraF s
/-- MUL32W (R72). -/
def execMul32w (c : Ctl) (d a b : Reg) (s : State) : Out :=
  laneG2 c d [(a, 1), (b, 1)]
    (fun v l => (v.readG a l).setWidth 64 * (v.readG b l).setWidth 64) s
/-- MINU64 (R72). -/
def execMinu64 (c : Ctl) (d a b : Reg) (s : State) : Out := alu64 c d a b minuF s
/-- MAXU64 (R72). -/
def execMaxu64 (c : Ctl) (d a b : Reg) (s : State) : Out := alu64 c d a b maxuF s

/-! ## Immediate forms -/

/-- ADDI (R73). -/
def execAddi (c : Ctl) (d a : Reg) (imm : BitVec 10) (s : State) : Out :=
  alu1 c d a (fun x => x + imm.signExtend 32) s
/-- ANDI (R73). -/
def execAndi (c : Ctl) (d a : Reg) (imm : BitVec 10) (s : State) : Out :=
  alu1 c d a (fun x => x &&& imm.signExtend 32) s
/-- ORI (R73). -/
def execOri (c : Ctl) (d a : Reg) (imm : BitVec 10) (s : State) : Out :=
  alu1 c d a (fun x => x ||| imm.setWidth 32) s
/-- XORI (R73). -/
def execXori (c : Ctl) (d a : Reg) (imm : BitVec 10) (s : State) : Out :=
  alu1 c d a (fun x => x ^^^ imm.setWidth 32) s
/-- SHLI (R73). -/
def execShli (c : Ctl) (d a : Reg) (n : BitVec 5) (s : State) : Out :=
  alu1 c d a (fun x => x <<< n.toNat) s
/-- SHRI (R73). -/
def execShri (c : Ctl) (d a : Reg) (n : BitVec 5) (s : State) : Out :=
  alu1 c d a (fun x => x >>> n.toNat) s
/-- SRAI (R73). -/
def execSrai (c : Ctl) (d a : Reg) (n : BitVec 5) (s : State) : Out :=
  alu1 c d a (fun x => x.sshiftRight n.toNat) s
/-- ROLI (R73). -/
def execRoli (c : Ctl) (d a : Reg) (n : BitVec 5) (s : State) : Out :=
  alu1 c d a (fun x => x.rotateLeft n.toNat) s
/-- MULI (R73). -/
def execMuli (c : Ctl) (d a : Reg) (imm : BitVec 10) (s : State) : Out :=
  alu1 c d a (fun x => x * imm.signExtend 32) s
/-- MOVI (R74). -/
def execMovi (c : Ctl) (d : Reg) (imm : BitVec 16) (s : State) : Out :=
  laneG c d [] (fun _ _ => imm.signExtend 32) s
/-- MOVHI (R74). -/
def execMovhi (c : Ctl) (d : Reg) (imm : BitVec 16) (s : State) : Out :=
  laneG c d [(d, 1)] (fun v l => imm ++ (v.readG d l).extractLsb' 0 16) s

/-! ## Compares -/

/-- The condition of ICMP and ICMPI (R75). -/
def icond (k : ICond) (a b : Word) : Bool :=
  match k with
  | .eq => a == b
  | .ne => a != b
  | .lt => a.slt b
  | .le => a.sle b
  | .gt => b.slt a
  | .ge => b.sle a
  | .ltu => a.ult b
  | .leu => a.ule b
  | .gtu => b.ult a
  | .geu => b.ule a

/-- The combine of a compare with the old predicate (R75). -/
def combine (k : Cmb) (old c : Bool) : Bool :=
  match k with
  | .set => c
  | .and => old && c
  | .or => old || c
  | .xor => old != c

/-- The predicate that a combine reads. -/
def cmbReads (k : Cmb) (pd : BitVec 3) : List (BitVec 3) :=
  match k with
  | .set => []
  | _ => [pd]

/-- ICMP (R75). -/
def execIcmp (c : Ctl) (pd : BitVec 3) (cond : ICond) (a b : Reg) (cmb : Cmb) (s : State) : Out :=
  laneP c pd [(a, 1), (b, 1)] (cmbReads cmb pd)
    (fun v l => combine cmb (v.readP pd l) (icond cond (v.readG a l) (v.readG b l))) s
/-- ICMPI (R75). -/
def execIcmpi (c : Ctl) (pd : BitVec 3) (cond : ICond) (a : Reg) (imm : BitVec 6) (cmb : Cmb)
    (s : State) : Out :=
  laneP c pd [(a, 1)] (cmbReads cmb pd)
    (fun v l => combine cmb (v.readP pd l) (icond cond (v.readG a l) (imm.signExtend 32))) s

/-! ## PRED and SEL -/

/-- A function of two predicates. -/
def predOp (c : Ctl) (pd pa pb : BitVec 3) (f : Bool → Bool → Bool) (s : State) : Out :=
  laneP c pd [] [pa, pb] (fun v l => f (v.readP pa l) (v.readP pb l)) s

/-- PAND (R76). -/
def execPand (c : Ctl) (pd pa pb : BitVec 3) (s : State) : Out := predOp c pd pa pb (fun x y => x && y) s
/-- POR (R76). -/
def execPor (c : Ctl) (pd pa pb : BitVec 3) (s : State) : Out := predOp c pd pa pb (fun x y => x || y) s
/-- PXOR (R76). -/
def execPxor (c : Ctl) (pd pa pb : BitVec 3) (s : State) : Out := predOp c pd pa pb (fun x y => x != y) s
/-- PNOT (R76). -/
def execPnot (c : Ctl) (pd pa : BitVec 3) (s : State) : Out :=
  laneP c pd [] [pa] (fun v l => !v.readP pa l) s
/-- P2G (R76). -/
def execP2g (c : Ctl) (d : Reg) (pa : BitVec 3) (s : State) : Out :=
  laneOp s c.s c.p (laneUse c.p [] [(d, 1)] [pa] []) false
    fun v _ l => ([(.g d l, if v.readP pa l then 1 else 0)], 0)
/-- G2P (R76). -/
def execG2p (c : Ctl) (pd : BitVec 3) (a : Reg) (s : State) : Out :=
  laneP c pd [(a, 1)] [] (fun v l => v.readG a l != 0) s
/-- SEL: unguarded, its P field selects (R30, R77). -/
def execSel (sw : Bool) (ps : BitVec 3) (d a b : Reg) (s : State) : Out :=
  laneOp s sw 7 (laneUse 7 [(a, 1), (b, 1)] [(d, 1)] [ps] []) false
    fun v _ l => ([(.g d l, if v.readP ps l then v.readG a l else v.readG b l)], 0)

end Sys2Proof.Machine
end

