-- ==== Sys2Proof/Machine/Sfn.lean ====
section
/-! DEFINITION. The special functions (R113 to R115), the BX blocks (R96 to R99) and the short dot
products (R116). A special function whose result Table 4-13 only bounds takes the free value of
Config.sfn where that lies within the bound (log entry 10). -/

namespace Sys2Proof.Machine

/-! ## EX2 -/

/-- T[i] = RoundNE(2^(i/64)) (R115). -/
def ex2Table : List Nat :=
  [0x3F800000, 0x3F8164D2, 0x3F82CD87, 0x3F843A29, 0x3F85AAC3, 0x3F871F62, 0x3F88980F, 0x3F8A14D5] ++
  [0x3F8B95C2, 0x3F8D1ADF, 0x3F8EA43A, 0x3F9031DC, 0x3F91C3D3, 0x3F935A2B, 0x3F94F4F0, 0x3F96942D] ++
  [0x3F9837F0, 0x3F99E046, 0x3F9B8D3A, 0x3F9D3EDA, 0x3F9EF532, 0x3FA0B051, 0x3FA27043, 0x3FA43516] ++
  [0x3FA5FED7, 0x3FA7CD94, 0x3FA9A15B, 0x3FAB7A3A, 0x3FAD583F, 0x3FAF3B79, 0x3FB123F6, 0x3FB311C4] ++
  [0x3FB504F3, 0x3FB6FD92, 0x3FB8FBAF, 0x3FBAFF5B, 0x3FBD08A4, 0x3FBF179A, 0x3FC12C4D, 0x3FC346CD] ++
  [0x3FC5672A, 0x3FC78D75, 0x3FC9B9BE, 0x3FCBEC15, 0x3FCE248C, 0x3FD06334, 0x3FD2A81E, 0x3FD4F35B] ++
  [0x3FD744FD, 0x3FD99D16, 0x3FDBFBB8, 0x3FDE60F5, 0x3FE0CCDF, 0x3FE33F89, 0x3FE5B907, 0x3FE8396A] ++
  [0x3FEAC0C7, 0x3FED4F30, 0x3FEFE4BA, 0x3FF28177, 0x3FF5257D, 0x3FF7D0DF, 0x3FFA83B3, 0x3FFD3E0C]

/-- The value y * 2^e rounded to FP32, for the fixed steps of R115. -/
def ex2Steps (x : FNum) : Nat :=
  match x with
  | .fin s m e =>
    let c1 := f32.num 0x3F317218
    let c2 := f32.num 0x3E75FDF0
    let one := f32.num 0x3F800000
    let j := (roundInt .rne s m (e + 6)).1
    let (d, g) := dyAdd s m (e + 6) (decide (0 < j)) j.natAbs 0
    let f : FNum := .fin (decide (d < 0)) d.natAbs (g - 6)
    let i := (j % 64).toNat
    let ex := (j - (i : Int)) / 64
    let rn (v : Nat × Flags) : FNum := f32.num v.1
    let q1 := rn (f32.mul .rne false c2 f)
    let q2 := rn (f32.add .rne false q1 c1)
    let q3 := rn (f32.mul .rne false q2 f)
    let p := rn (f32.add .rne false q3 one)
    let y := rn (f32.mul .rne false (f32.num (ex2Table.getD i 0)) p)
    match y with
    | .fin t n g => (f32.round .rne t n (g + ex) false).1
    | _ => 0
  | _ => 0

/-- EX2 with its flags, judged against the exact value (R114): 2^x is rational only for an integer x. -/
def ex2 (b : Nat) : Nat × Flags :=
  match f32.num b with
  | .nan sg => (f32.qnan, if sg then fNV else 0)
  | .inf s => (if s then 0 else f32.inf false, 0)
  | .fin s m e =>
    let (i, frac) := roundInt .rtz s m e
    if 128 ≤ i then (f32.inf false, fOF ||| fNX)
    else if i < -150 || (i == -150 && frac) then (0, fUF ||| fNX)
    else
      let r := ex2Steps (.fin s m e)
      let exact := !frac && f32.num r == (f32.num (f32.round .rtz false 1 i false).1) && -149 ≤ i
      let small := Nat.blt r (2 ^ 23)
      (r, if exact then 0 else if small then fNX ||| fUF else fNX)

/-! ## The bounded functions -/

/-- A finite FP32 value in units of 2^-k, for k at least 149. -/
def inUnits (k : Nat) (b : Nat) : Option Int :=
  match f32.num b with
  | .fin s m e => let v : Int := (m : Int) * 2 ^ (e + (k : Int)).toNat; some (if s then -v else v)
  | _ => none

/-- The free value when it lies within `bound` of every value of the enclosure [lo, hi] of the exact one (units of 2^-k),
so that it never passes the bound, and else the value nearest to the exact one. -/
def bounded (k : Nat) (cand : Nat) (lo hi bound : Int) : Nat :=
  match inUnits k cand with
  | some v =>
    if hi - bound ≤ v && v ≤ lo + bound then cand
    else (f32.round .rne (decide (lo < 0)) lo.natAbs (-(k : Int)) (hi != lo)).1
  | none => (f32.round .rne (decide (lo < 0)) lo.natAbs (-(k : Int)) (hi != lo)).1

/-- One unit in the last place of a value, in units of 2^-k. -/
def ulpUnits (k : Nat) (v : Int) : Int :=
  let l := bitLen v.natAbs
  let low := k - 149
  if l ≤ low + 24 then (2 ^ low : Nat) else (2 ^ (l - 24) : Nat)

/-- NX and UF of an inexact result of a function whose exact value is not zero (R114). -/
def inexactFlags (r : Nat) : Flags :=
  if Nat.blt (r % 2 ^ 31) (2 ^ 23) then fNX ||| fUF else fNX

/-- The free value of a function. -/
def sfnFree (fn b : Nat) : Nat := (Config.sfn fn (BitVec.ofNat 32 b)).toNat

/-- RCP: within 1 ulp of the rational value. -/
def rcpFn (b : Nat) : Nat × Flags :=
  match f32.num b with
  | .nan sg => (f32.qnan, if sg then fNV else 0)
  | .inf s => (f32.zero s, 0)
  | .fin s m e =>
    if m == 0 then (f32.inf s, fDZ)
    else
      let k : Nat := 300
      let num := 2 ^ ((k : Int) - e).toNat
      let q := num / m
      let top := (2 ^ 24 - 1) * 2 ^ (104 + k)
      if Nat.blt top q || (q == top && num % m != 0) then (f32.inf s, fOF ||| fNX)
      else
        let exact := num % m == 0
        let sg (v : Int) : Int := if s then -v else v
        let (lo, hi) : Int × Int := if exact then (sg q, sg q) else if s then (-((q : Int) + 1), -(q : Int)) else (q, q + 1)
        let r := bounded k (sfnFree 0 b) lo hi (ulpUnits k q)
        (r, if exact && inUnits k r == some lo then 0 else inexactFlags r)

/-- RSQ: within 2 ulp. -/
def rsqFn (b : Nat) : Nat × Flags :=
  match f32.num b with
  | .nan sg => (f32.qnan, if sg then fNV else 0)
  | .inf s => if s then (f32.qnan, fNV) else (0, 0)
  | .fin s m e =>
    if m == 0 then (f32.inf s, fDZ)
    else if s then (f32.qnan, fNV)
    else
      let k : Nat := 200
      let num := 2 ^ (2 * (k : Int) - e).toNat
      let r := isqrt 280 (num / m)
      let exact := r * r * m == num
      let lo : Int := r
      let hi : Int := if exact then r else r + 1
      let z := bounded k (sfnFree 1 b) lo hi (2 * ulpUnits k lo)
      (z, if exact && inUnits k z == some lo then 0 else inexactFlags z)

/-- SQRT: correctly rounded to nearest. -/
def sqrtFn (b : Nat) : Nat × Flags :=
  match f32.num b with
  | .nan sg => (f32.qnan, if sg then fNV else 0)
  | .inf s => if s then (f32.qnan, fNV) else (f32.inf false, 0)
  | .fin s m e =>
    if m == 0 then (f32.zero s, 0)
    else if s then (f32.qnan, fNV)
    else f32.sqrt m e

/-- Fraction bits of log2 of z / 2^256 with 1 <= z / 2^256 < 2, by repeated squaring. -/
def lg2Bits : Nat → Nat → Nat → Nat
  | 0, _, acc => acc
  | n + 1, z, acc =>
    let y := z * z / 2 ^ 256
    if Nat.blt y (2 ^ 257) then lg2Bits n y (2 * acc) else lg2Bits n (y / 2) (2 * acc + 1)

/-- LG2: within 2^-22 for inputs in [0.5, 2], within 2 ulp elsewhere; of 8.0 it is 3.0 (R114). -/
def lg2Fn (b : Nat) : Nat × Flags :=
  if b == 0x41000000 then (0x40400000, 0) else
  match f32.num b with
  | .nan sg => (f32.qnan, if sg then fNV else 0)
  | .inf s => if s then (f32.qnan, fNV) else (f32.inf false, 0)
  | .fin s m e =>
    if m == 0 then (f32.inf true, fDZ)
    else if s then (f32.qnan, fNV)
    else
      let k : Nat := 200
      let l := bitLen m - 1
      let whole : Int := e + (l : Int)
      let exact := m == 2 ^ l
      let fr := lg2Bits 96 (m * 2 ^ (256 - l)) 0
      let lo : Int := (whole * (2 ^ 96 : Nat) + (fr : Int)) * (2 ^ 104 : Nat)
      let hi : Int := if exact then lo else lo + (2 ^ 105 : Nat)
      let near := (-1 ≤ whole && whole < 1) || (whole == 1 && exact)
      let bound : Int := if near then (2 ^ (k - 22) : Nat) else 2 * ulpUnits k lo
      let r := bounded k (sfnFree 4 b) lo hi bound
      (r, if exact && inUnits k r == some lo then 0
        else if exact && whole == 0 then fNX
        else inexactFlags r)

/-- Pi in units of 2^-200. -/
def piUnits : Nat := 5048344754617993871973410141242436836214643421488662971535368

/-- The Taylor sum of terms t, t * y / (a (a + 1)), ... with alternating or equal signs, in units of
2^-160: `y` is the factor, `a` the first divisor. -/
def taylor : Nat → Int → Int → Nat → Int → Int
  | 0, _, _, _, acc => acc
  | n + 1, t, y, a, acc =>
    let t' := t * y / (2 ^ 160 : Nat) / ((a * (a + 1) : Nat) : Int)
    taylor n t' y (a + 2) (acc + t')

/-- SIN and COS: within 2^-21 up to 2^20, a value in [-1, 1] beyond. -/
def sinCosFn (isCos : Bool) (b : Nat) : Nat × Flags :=
  let fn := if isCos then 6 else 5
  match f32.num b with
  | .nan sg => (f32.qnan, if sg then fNV else 0)
  | .inf _ => (f32.qnan, fNV)
  | .fin s m e =>
    let one := 2 ^ 160
    let k : Nat := 160
    if 21 < e + (bitLen m : Int) || (e + (bitLen m : Int) == 21 && m != 2 ^ (bitLen m - 1)) then
      let c := sfnFree fn b
      let r := match inUnits k c with
        | some v => if -(one : Int) ≤ v && v ≤ (one : Int) then c else 0
        | none => 0
      (r, inexactFlags r)
    else
      let x0 := if 0 ≤ e + 200 then m * 2 ^ (e + 200).toNat else 0
      let x : Int := if s then -(x0 : Int) else x0
      let half : Int := (piUnits / 2 : Nat)
      let q := (2 * x + half) / (2 * half)
      let r := (x - q * half) / (2 ^ 40 : Nat)
      let y := -(r * r / (one : Int))
      let sn := taylor 24 r y 2 r
      let cs := taylor 24 one y 1 one
      let q4 := (q + (if isCos then 1 else 0)) % 4
      let v := if q4 == 0 then sn else if q4 == 1 then cs else if q4 == 2 then -sn else -cs
      let lo := if m == 0 then v else v - (2 ^ 30 : Nat)
      let hi := if m == 0 then v else v + (2 ^ 30 : Nat)
      let z := bounded k (sfnFree fn b) lo hi (2 ^ (k - 21) : Nat)
      (z, if m == 0 then
            (if inUnits k z == some v then 0 else if isCos then inexactFlags z else fNX)
          else inexactFlags z)

/-- TANH: within 2 ulp. -/
def tanhFn (b : Nat) : Nat × Flags :=
  match f32.num b with
  | .nan sg => (f32.qnan, if sg then fNV else 0)
  | .inf s => (f32.zero s + 0x3F800000, 0)
  | .fin s m e =>
    if m == 0 then (f32.zero s, 0)
    else
      let lead := e + (bitLen m : Int) - 1
      let k : Nat := 300
      let (lo, hi) : Int × Int :=
        if lead < -13 then
          let x : Int := (m : Int) * 2 ^ (e + (k : Int)).toNat
          let c := x * x / (2 ^ k : Nat) * x / (2 ^ k : Nat) / 3
          (x - c - 4, x - c + c * (x * x / (2 ^ k : Nat)) / (2 ^ k : Nat) + 4)
        else if lead < 4 then
          let one : Int := (2 ^ 160 : Nat)
          let x : Int := -((m : Int) * 2 ^ (e + 160 + 1 - 8).toNat)
          let t0 := (List.range 32).foldl (fun (p : Int × Int) i =>
            let t := p.1 * x / one / ((i + 1 : Nat) : Int)
            (t, p.2 + t)) (one, one)
          let t := (List.range 8).foldl (fun v _ => v * v / one) t0.2
          let v := (one - t) * one / (one + t) * (2 ^ 140 : Nat)
          (v - (2 ^ 170 : Nat), v + (2 ^ 170 : Nat))
        else ((2 ^ 300 - 2 ^ 256 : Nat), (2 ^ 300 : Nat))
      let u := 2 * ulpUnits k lo
      let r := if s then bounded k (sfnFree 7 b) (-hi) (-lo) u else bounded k (sfnFree 7 b) lo hi u
      (r, inexactFlags r)

/-- The special function of a code (Table 2-4). -/
def sfnEval (fn : Nat) (b : Nat) : Nat × Flags :=
  match fn with
  | 0 => rcpFn b
  | 1 => rsqFn b
  | 2 => sqrtFn b
  | 3 => ex2 b
  | 4 => lg2Fn b
  | 5 => sinCosFn false b
  | 6 => sinCosFn true b
  | _ => tanhFn b

/-! ## BX blocks -/

/-- A BX format: magnitude bits, gap and scale offset (Table 4-5). -/
structure Bx where
  mb : Nat
  gap : Nat
  sh : Nat
  deriving DecidableEq, Repr

def bx8 : Bx := ⟨6, 4, 132⟩
def bx4 : Bx := ⟨2, 2, 128⟩
/-- BX8 for 0 and BX4 for 1 (R108). -/
def bxOf (four : Bool) : Bx := if four then bx4 else bx8

/-- The value of an element with the exponents of its block (R97, R98). -/
def Bx.num (x : Bx) (e0 e1 el : Nat) : FNum :=
  let s := el / 2 ^ (x.mb + 1) % 2 == 1
  let sel := el / 2 ^ x.mb % 2 == 1
  if e1 == 0xFF || (!sel && e0 == 0xFF) then .nan false
  else .fin s (el % 2 ^ x.mb) (((if sel then e1 else e0 : Nat) : Int) - (x.sh : Int))

/-- Whether |x| is below n * 2^e. -/
def magBelow (m : Nat) (g : Int) (n : Nat) (e : Int) : Bool :=
  decide ((dyAdd false m g true n e).1 < 0)

/-- The conversion of R99: the exponents, and for each position its element and its flags. A position
that does not contribute is `none` and counts as +0.0. -/
def Bx.block (x : Bx) (xs : List (Option FNum)) : Nat × Nat × List (Nat × Flags) :=
  let bad (o : Option FNum) : Bool := match o with
    | some v => !v.isFin
    | none => false
  if xs.any bad then (0xFF, 0xFF, xs.map fun o => (0, if bad o then fNV else 0))
  else
    -- floor(log2 M), when some magnitude is not zero
    let lead := xs.foldl (fun (a : Option Int) o => match o with
      | some (.fin _ m e) =>
        if m == 0 then a
        else
          let l := e + (bitLen m : Int) - 1
          match a with
          | none => some l
          | some b => some (if b < l then l else b)
      | _ => a) none
    let e1 : Nat := match lead with
      | none => 0
      | some l => if l + 127 < 0 then 0 else if 254 < l + 127 then 254 else (l + 127).toNat
    let e0 := e1 - x.gap
    let mmax := 2 ^ x.mb - 1
    let el (o : Option FNum) : Nat × Flags := match o with
      | some (.fin s m e) =>
        let low : Int := (e0 : Int) - (x.sh : Int)
        let sel := !magBelow m e mmax low
        let scale : Int := ((if sel then e1 else e0 : Nat) : Int) - (x.sh : Int)
        let (q, inex) := roundInt .rne false m (e - scale)
        let past := Nat.blt mmax q.natAbs
        let n := if past then mmax else q.natAbs
        let zero := m == 0
        ((if s then 2 ^ (x.mb + 1) else 0) + (if sel && !zero then 2 ^ x.mb else 0) + n,
          (if inex then fNX else 0) ||| (if past then fSAT ||| fNX else 0))
      | _ => (0, 0)
    (e0, e1, xs.map el)

/-! ## Short dot products -/

/-- Element k of `w` bits, signed or not. -/
def elemInt (sgn : Bool) (w k : Nat) (v : Nat) : Int :=
  let e := v / 2 ^ (w * k) % 2 ^ w
  if sgn && 2 ^ (w - 1) ≤ e then (e : Int) - (2 ^ w : Nat) else e

/-- IDOT4, IDOT4U, IDOT8, IDOT8U (R116). -/
def idot (sgn : Bool) (w : Nat) (a b d : Word) : Word :=
  let s := (List.range (32 / w)).foldl
    (fun (t : Int) k => t + elemInt sgn w k a.toNat * elemInt sgn w k b.toNat) 0
  BitVec.ofInt 32 ((d.toNat : Int) + s)

/-- HDOT2 and BDOT2: the exact sum rounded once (R116). -/
def fdot2 (f : Fmt) (rm : Rm) (a b d : Nat) : Nat × Flags :=
  let (p0, g0) := FNum.mul (f.num (a % 2 ^ 16)) (f.num (b % 2 ^ 16))
  let (p1, g1) := FNum.mul (f.num (a / 2 ^ 16)) (f.num (b / 2 ^ 16))
  let (z, g) := sumNums rm [f32.num d, p0, p1]
  let (r, h) := f32.pack rm z
  (r, g0 ||| g1 ||| g ||| h)

/-- A packed operation: the two halves computed apart, the flags joined (R110). -/
def halves2 (op : Nat → Nat → Nat → Nat × Flags) (a b d : Nat) : Nat × Flags :=
  let (l, g) := op (a % 2 ^ 16) (b % 2 ^ 16) (d % 2 ^ 16)
  let (h, k) := op (a / 2 ^ 16) (b / 2 ^ 16) (d / 2 ^ 16)
  (h * 2 ^ 16 + l, g ||| k)

end Sys2Proof.Machine
end

