-- ==== Sys2Proof/Machine/Floating.lean ====
section
/-! DEFINITION. The meanings of the floating-point majors 10 to 17 (R101 to R116). -/

namespace Sys2Proof.Machine

/-! ## Shared forms -/

/-- A lane writes an FP32 or packed result with its flags. -/
def laneF (c : Ctl) (lcls : Bool) (d : Reg) (srcs : List (Reg × Nat)) (f : Wave → Nat → Nat × Flags)
    (s : State) : Out :=
  laneOp s c.s c.p (laneUse c.p srcs [(d, 1)] [] []) lcls
    fun v _ l => ([(.g d l, BitVec.ofNat 32 (f v l).1)], (f v l).2)

/-- A lane writes an FP64 or 64-bit result to a pair. -/
def laneF2 (c : Ctl) (lcls : Bool) (d : Reg) (srcs : List (Reg × Nat)) (f : Wave → Nat → Nat × Flags)
    (s : State) : Out :=
  laneOp s c.s c.p (laneUse c.p srcs [(d, 2)] [] []) lcls
    fun v _ l => (pairOf d l (BitVec.ofNat 64 (f v l).1), (f v l).2)

/-- The FP32 value of a register. -/
def Wave.f32At (w : Wave) (r : Reg) (l : Nat) : FNum := f32.num (w.readG r l).toNat
/-- The FP64 value of a pair. -/
def Wave.f64At (w : Wave) (r : Reg) (l : Nat) : FNum := f64.num (w.readG2 r l).toNat

/-- FARITH of two registers, under RM and FTZ (R101). -/
def farith (c : Ctl) (d a b : Reg) (f : Rm → Bool → FNum → FNum → Nat × Flags) (s : State) : Out :=
  laneF c false d [(a, 1), (b, 1)] (fun v l => f v.rm v.ftz (v.f32At a l) (v.f32At b l)) s

/-- FADD (R101). -/
def execFadd (c : Ctl) (d a b : Reg) (s : State) : Out := farith c d a b f32.add s
/-- FSUB (R101). -/
def execFsub (c : Ctl) (d a b : Reg) (s : State) : Out :=
  farith c d a b (fun rm z x y => f32.add rm z x y.neg) s
/-- FMUL (R101). -/
def execFmul (c : Ctl) (d a b : Reg) (s : State) : Out := farith c d a b f32.mul s
/-- FMIN (R101). -/
def execFmin (c : Ctl) (d a b : Reg) (s : State) : Out :=
  farith c d a b (fun _ z x y => f32.minmax z false x y) s
/-- FMAX (R101). -/
def execFmax (c : Ctl) (d a b : Reg) (s : State) : Out :=
  farith c d a b (fun _ z x y => f32.minmax z true x y) s

/-- The magnitude of an FP32 value with a sign; a NaN gives the canonical qNaN (R101). -/
def signed32 (ftz : Bool) (x : FNum) (neg : Bool) : Nat :=
  match f32.flushIn ftz x with
  | .nan _ => f32.qnan
  | .inf _ => f32.inf neg
  | .fin _ m e => (f32.pack .rne (.fin neg m e)).1

/-- The sign bit of a register. -/
def Wave.signAt (w : Wave) (r : Reg) (l : Nat) : Bool := (w.readG r l).msb

/-- FABS (R101). -/
def execFabs (c : Ctl) (d a : Reg) (s : State) : Out :=
  laneF c false d [(a, 1)] (fun v l => (signed32 v.ftz (v.f32At a l) false, 0)) s
/-- FNEG (R101). -/
def execFneg (c : Ctl) (d a : Reg) (s : State) : Out :=
  laneF c false d [(a, 1)] (fun v l => (signed32 v.ftz (v.f32At a l) (!v.signAt a l), 0)) s
/-- FCOPYSIGN (R101). -/
def execFcopysign (c : Ctl) (d a b : Reg) (s : State) : Out :=
  laneF c false d [(a, 1), (b, 1)] (fun v l => (signed32 v.ftz (v.f32At a l) (v.signAt b l), 0)) s

/-- FFMA and its kin: the product and the addend with signs, rounded once (R102). -/
def ffmaOp (np nd : Bool) (c : Ctl) (d a b : Reg) (s : State) : Out :=
  laneF c false d [(d, 1), (a, 1), (b, 1)] (fun v l =>
    let x := v.f32At a l
    let z := v.f32At d l
    f32.fma v.rm v.ftz (if np then x.neg else x) (v.f32At b l) (if nd then z.neg else z)) s

/-- FFMA (R102). -/
def execFfma (c : Ctl) (d a b : Reg) (s : State) : Out := ffmaOp false false c d a b s
/-- FFMS (R102). -/
def execFfms (c : Ctl) (d a b : Reg) (s : State) : Out := ffmaOp false true c d a b s
/-- FNMA (R102). -/
def execFnma (c : Ctl) (d a b : Reg) (s : State) : Out := ffmaOp true false c d a b s
/-- FNMS (R102). -/
def execFnms (c : Ctl) (d a b : Reg) (s : State) : Out := ffmaOp true true c d a b s

/-- FCMP (R103, R104). -/
def execFcmp (c : Ctl) (pd : BitVec 3) (cond : FCond) (a b : Reg) (cmb : Cmb) (s : State) : Out :=
  laneOp s c.s c.p (laneUse c.p [(a, 1), (b, 1)] [] (cmbReads cmb pd) [pd]) false fun v _ l =>
    let r := fcompare cond (f32.flushIn v.ftz (v.f32At a l)) (f32.flushIn v.ftz (v.f32At b l))
    ([(.p pd l, if combine cmb (v.readP pd l) r.1 then 1 else 0)], r.2)

/-! ## FCVT -/

/-- The rounding that a rounding code names (R105). -/
def Wave.rmOf (w : Wave) (r : BitVec 3) : Rm := if r == 4 then w.rm else Rm.ofBits r.toNat

/-- The half of D that a packing form writes, the other half kept (R106). -/
def packHalf (hi : Bool) (d : Word) (h : Nat) : Nat :=
  if hi then h * 2 ^ 16 + d.toNat % 2 ^ 16 else d.toNat / 2 ^ 16 * 2 ^ 16 + h

/-- The half of A that a widening form reads (R106). -/
def halfOf (r : BitVec 3) (a : Word) : Nat := if r == 0 then a.toNat % 2 ^ 16 else a.toNat / 2 ^ 16

/-- FCVT.FF: a narrowing form reads D. -/
def cvtPack (c : Ctl) (d a : Reg) (dst : Fmt) (hi : Bool) (r : BitVec 3) (s : State) : Out :=
  laneF c false d [(d, 1), (a, 1)] (fun v l =>
    let x := f32.convert dst (v.rmOf r) (v.readG a l).toNat
    (packHalf hi (v.readG d l) x.1, x.2)) s

/-- FCVT.FF (R106, Table 4-9). -/
def execFcvtFf (c : Ctl) (d a : Reg) (cv r : BitVec 3) (s : State) : Out :=
  match cv.toNat with
  | 0 => cvtPack c d a f16 false r s
  | 1 => cvtPack c d a f16 true r s
  | 2 => cvtPack c d a bf16 false r s
  | 3 => cvtPack c d a bf16 true r s
  | 4 => laneF c false d [(a, 1)] (fun v l => f16.convert f32 .rne (halfOf r (v.readG a l))) s
  | 5 => laneF c false d [(a, 1)] (fun v l => bf16.convert f32 .rne (halfOf r (v.readG a l))) s
  | 6 => laneF2 c true d [(a, 1)] (fun v l => f32.convert f64 .rne (v.readG a l).toNat) s
  | _ => laneF c true d [(a, 2)] (fun v l => f64.convert f32 (v.rmOf r) (v.readG2 a l).toNat) s

/-- FCVT.FI (R107, Table 4-10). -/
def execFcvtFi (c : Ctl) (d a : Reg) (cv r : BitVec 3) (s : State) : Out :=
  let sgn := !cv.getLsbD 0
  match cv.toNat / 2 with
  | 0 => laneF c false d [(a, 1)] (fun v l => f32.toInt (v.rmOf r) 32 sgn (v.readG a l).toNat) s
  | 1 => laneF c true d [(a, 2)] (fun v l => f64.toInt (v.rmOf r) 32 sgn (v.readG2 a l).toNat) s
  | 2 => laneF2 c false d [(a, 1)] (fun v l => f32.toInt (v.rmOf r) 64 sgn (v.readG a l).toNat) s
  | _ => laneF2 c true d [(a, 2)] (fun v l => f64.toInt (v.rmOf r) 64 sgn (v.readG2 a l).toNat) s

/-- FCVT.IF (R107, Table 4-10). -/
def execFcvtIf (c : Ctl) (d a : Reg) (cv r : BitVec 3) (s : State) : Out :=
  let sgn := !cv.getLsbD 0
  match cv.toNat / 2 with
  | 0 => laneF c false d [(a, 1)] (fun v l => f32.ofInt (v.rmOf r) 32 sgn (v.readG a l).toNat) s
  | 1 => laneF2 c true d [(a, 1)] (fun v l => f64.ofInt (v.rmOf r) 32 sgn (v.readG a l).toNat) s
  | 2 => laneF c false d [(a, 2)] (fun v l => f32.ofInt (v.rmOf r) 64 sgn (v.readG2 a l).toNat) s
  | _ => laneF2 c true d [(a, 2)] (fun v l => f64.ofInt (v.rmOf r) 64 sgn (v.readG2 a l).toNat) s

/-- FCVT.FX: the lanes of the wave as one block (R99, R108). -/
def execFcvtFx (c : Ctl) (d a : Reg) (cv : BitVec 3) (s : State) : Out :=
  laneOp s c.s c.p (laneUse c.p [(a, 1)] [(d, 1)] [] []) true fun v act l =>
    let xs := (List.range 32).map fun k =>
      if act.getLsbD k && !v.helper.getLsbD k then some (v.f32At a k) else none
    let r := (bxOf (cv == 1)).block xs
    let e := r.2.2.getD l (0, 0)
    ([(.g d l, BitVec.ofNat 32 (e.1 + r.1 * 2 ^ 8 + r.2.1 * 2 ^ 16))], e.2)

/-- FCVT.XF: each lane decodes its own element (R97, R98, R108). -/
def execFcvtXf (c : Ctl) (d a : Reg) (cv : BitVec 3) (s : State) : Out :=
  laneF c true d [(a, 1)] (fun v l =>
    let x := (v.readG a l).toNat
    let el := if cv == 1 then x % 16 else x % 256
    ((f32.pack .rne ((bxOf (cv == 1)).num (x / 2 ^ 8 % 256) (x / 2 ^ 16 % 256) el)).1, 0)) s

/-- FCVT.RI (R109). -/
def execFcvtRi (c : Ctl) (d a : Reg) (cv r : BitVec 3) (s : State) : Out :=
  if cv == 0 then
    laneF c false d [(a, 1)] (fun v l => f32.toIntegral (v.rmOf r) (v.readG a l).toNat) s
  else laneF2 c true d [(a, 2)] (fun v l => f64.toIntegral (v.rmOf r) (v.readG2 a l).toNat) s

/-! ## HARITH -/

/-- A packed operation of a half format; `acc` says that D is read (R110). -/
def harith (c : Ctl) (acc : Bool) (d a b : Reg) (f : Rm → Nat → Nat → Nat → Nat × Flags) (s : State) :
    Out :=
  laneF c false d ((if acc then [(d, 1)] else []) ++ [(a, 1), (b, 1)]) (fun v l =>
    halves2 (f v.rm) (v.readG a l).toNat (v.readG b l).toNat (v.readG d l).toNat) s

/-- The functions of R110 on one half. -/
def hAdd (f : Fmt) (rm : Rm) (a b _d : Nat) : Nat × Flags := f.add rm false (f.num a) (f.num b)
def hSub (f : Fmt) (rm : Rm) (a b _d : Nat) : Nat × Flags := f.add rm false (f.num a) (f.num b).neg
def hMul (f : Fmt) (rm : Rm) (a b _d : Nat) : Nat × Flags := f.mul rm false (f.num a) (f.num b)
def hFma (f : Fmt) (rm : Rm) (a b d : Nat) : Nat × Flags := f.fma rm false (f.num a) (f.num b) (f.num d)
def hMin (f : Fmt) (_rm : Rm) (a b _d : Nat) : Nat × Flags := f.minmax false false (f.num a) (f.num b)
def hMax (f : Fmt) (_rm : Rm) (a b _d : Nat) : Nat × Flags := f.minmax false true (f.num a) (f.num b)

/-- HADD2 (R110). -/
def execHadd2 (c : Ctl) (d a b : Reg) (s : State) : Out := harith c false d a b (hAdd f16) s
/-- HSUB2 (R110). -/
def execHsub2 (c : Ctl) (d a b : Reg) (s : State) : Out := harith c false d a b (hSub f16) s
/-- HMUL2 (R110). -/
def execHmul2 (c : Ctl) (d a b : Reg) (s : State) : Out := harith c false d a b (hMul f16) s
/-- HFMA2 (R110). -/
def execHfma2 (c : Ctl) (d a b : Reg) (s : State) : Out := harith c true d a b (hFma f16) s
/-- HMIN2 (R110). -/
def execHmin2 (c : Ctl) (d a b : Reg) (s : State) : Out := harith c false d a b (hMin f16) s
/-- HMAX2 (R110). -/
def execHmax2 (c : Ctl) (d a b : Reg) (s : State) : Out := harith c false d a b (hMax f16) s
/-- HADD2.BF (R110). -/
def execHadd2Bf (c : Ctl) (d a b : Reg) (s : State) : Out := harith c false d a b (hAdd bf16) s
/-- HSUB2.BF (R110). -/
def execHsub2Bf (c : Ctl) (d a b : Reg) (s : State) : Out := harith c false d a b (hSub bf16) s
/-- HMUL2.BF (R110). -/
def execHmul2Bf (c : Ctl) (d a b : Reg) (s : State) : Out := harith c false d a b (hMul bf16) s
/-- HFMA2.BF (R110). -/
def execHfma2Bf (c : Ctl) (d a b : Reg) (s : State) : Out := harith c true d a b (hFma bf16) s
/-- HMIN2.BF (R110). -/
def execHmin2Bf (c : Ctl) (d a b : Reg) (s : State) : Out := harith c false d a b (hMin bf16) s
/-- HMAX2.BF (R110). -/
def execHmax2Bf (c : Ctl) (d a b : Reg) (s : State) : Out := harith c false d a b (hMax bf16) s

/-! ## DARITH -/

/-- FP64 of two pairs (R111). -/
def darith (c : Ctl) (d a b : Reg) (f : Rm → FNum → FNum → Nat × Flags) (s : State) : Out :=
  laneF2 c true d [(a, 2), (b, 2)] (fun v l => f v.rm (v.f64At a l) (v.f64At b l)) s

/-- DADD (R111). -/
def execDadd (c : Ctl) (d a b : Reg) (s : State) : Out :=
  darith c d a b (fun rm x y => f64.add rm false x y) s
/-- DSUB (R111). -/
def execDsub (c : Ctl) (d a b : Reg) (s : State) : Out :=
  darith c d a b (fun rm x y => f64.add rm false x y.neg) s
/-- DMUL (R111). -/
def execDmul (c : Ctl) (d a b : Reg) (s : State) : Out :=
  darith c d a b (fun rm x y => f64.mul rm false x y) s
/-- DFMA (R111). -/
def execDfma (c : Ctl) (d a b : Reg) (s : State) : Out :=
  laneF2 c true d [(d, 2), (a, 2), (b, 2)] (fun v l =>
    f64.fma v.rm false (v.f64At a l) (v.f64At b l) (v.f64At d l)) s
/-- DMIN (R111). -/
def execDmin (c : Ctl) (d a b : Reg) (s : State) : Out :=
  darith c d a b (fun _ x y => f64.minmax false false x y) s
/-- DMAX (R111). -/
def execDmax (c : Ctl) (d a b : Reg) (s : State) : Out :=
  darith c d a b (fun _ x y => f64.minmax false true x y) s
/-- DCMP (R112). -/
def execDcmp (c : Ctl) (pd : BitVec 3) (cond : FCond) (a b : Reg) (s : State) : Out :=
  laneOp s c.s c.p (laneUse c.p [(a, 2), (b, 2)] [] [] [pd]) true fun v _ l =>
    let r := fcompare cond (v.f64At a l) (v.f64At b l)
    ([(.p pd l, if r.1 then 1 else 0)], r.2)

/-! ## SFN and IDOT -/

/-- A special function (R113). -/
def sfnOp (fn : Nat) (c : Ctl) (d a : Reg) (s : State) : Out :=
  laneF c true d [(a, 1)] (fun v l => sfnEval fn (v.readG a l).toNat) s

/-- RCP (R113). -/
def execRcp (c : Ctl) (d a : Reg) (s : State) : Out := sfnOp 0 c d a s
/-- RSQ (R113). -/
def execRsq (c : Ctl) (d a : Reg) (s : State) : Out := sfnOp 1 c d a s
/-- SQRT (R113). -/
def execSqrt (c : Ctl) (d a : Reg) (s : State) : Out := sfnOp 2 c d a s
/-- EX2 (R115). -/
def execEx2 (c : Ctl) (d a : Reg) (s : State) : Out := sfnOp 3 c d a s
/-- LG2 (R113). -/
def execLg2 (c : Ctl) (d a : Reg) (s : State) : Out := sfnOp 4 c d a s
/-- SIN (R113). -/
def execSin (c : Ctl) (d a : Reg) (s : State) : Out := sfnOp 5 c d a s
/-- COS (R113). -/
def execCos (c : Ctl) (d a : Reg) (s : State) : Out := sfnOp 6 c d a s
/-- TANH (R113). -/
def execTanh (c : Ctl) (d a : Reg) (s : State) : Out := sfnOp 7 c d a s

/-- A short dot product accumulated into D (R116). -/
def dotOp (c : Ctl) (d a b : Reg) (f : Rm → Word → Word → Word → Nat × Flags) (s : State) : Out :=
  laneF c true d [(d, 1), (a, 1), (b, 1)] (fun v l =>
    f v.rm (v.readG a l) (v.readG b l) (v.readG d l)) s

/-- IDOT4 (R116). -/
def execIdot4 (c : Ctl) (d a b : Reg) (s : State) : Out :=
  dotOp c d a b (fun _ x y z => ((idot true 8 x y z).toNat, 0)) s
/-- IDOT4U (R116). -/
def execIdot4u (c : Ctl) (d a b : Reg) (s : State) : Out :=
  dotOp c d a b (fun _ x y z => ((idot false 8 x y z).toNat, 0)) s
/-- IDOT8 (R116). -/
def execIdot8 (c : Ctl) (d a b : Reg) (s : State) : Out :=
  dotOp c d a b (fun _ x y z => ((idot true 4 x y z).toNat, 0)) s
/-- IDOT8U (R116). -/
def execIdot8u (c : Ctl) (d a b : Reg) (s : State) : Out :=
  dotOp c d a b (fun _ x y z => ((idot false 4 x y z).toNat, 0)) s
/-- HDOT2 (R116). -/
def execHdot2 (c : Ctl) (d a b : Reg) (s : State) : Out :=
  dotOp c d a b (fun rm x y z => fdot2 f16 rm x.toNat y.toNat z.toNat) s
/-- BDOT2 (R116). -/
def execBdot2 (c : Ctl) (d a b : Reg) (s : State) : Out :=
  dotOp c d a b (fun rm x y z => fdot2 bf16 rm x.toNat y.toNat z.toNat) s

end Sys2Proof.Machine
end

