-- ==== Sys2Proof/Machine/Exchange.lean ====
section
/-! DEFINITION. The meanings of XCHG, WAVE and STREAM, majors 18 to 1A, and of STRCFG (R117 to R130). -/

namespace Sys2Proof.Machine

/-! ## XCHG -/

/-- The operands of an exchange: each destination lane reads its source lane (R117). -/
def xchgUse (g : BitVec 3) (d a : Reg) (bs : List (Reg × Nat)) (src : Nat → Nat) : Use where
  srcs := (a, 1) :: bs
  dsts := [(d, 1)]
  guard := g
  reads := fun m => pLanes [g] m ++ gLanes bs m ++
    gLanes [(a, 1)] (maskOf fun k => (lanesOf m).any fun l => src l == k)
  writes := fun m => gLanes [(d, 1)] m

/-- Each destination lane takes the A register of a source lane; a source outside the wave is the lane
itself (R121). -/
def xchg (c : Ctl) (d a : Reg) (src : Nat → Nat) (s : State) : Out :=
  laneOp s c.s c.p (xchgUse c.p d a [] src) true fun v _ l => ([(.g d l, v.readG a (src l))], 0)

/-- The lane that XOR names. -/
def xorLane (n l : Nat) : Nat := Nat.xor l n
/-- A lane if it is one, else the lane itself (R121). -/
def orSelf (l : Nat) (k : Int) : Nat := if 0 ≤ k ∧ k < 32 then k.toNat else l

/-- QSWPX (R120). -/
def execQswpx (c : Ctl) (d a : Reg) (s : State) : Out := xchg c d a (xorLane 1) s
/-- QSWPY (R120). -/
def execQswpy (c : Ctl) (d a : Reg) (s : State) : Out := xchg c d a (xorLane 2) s
/-- QSWPD (R120). -/
def execQswpd (c : Ctl) (d a : Reg) (s : State) : Out := xchg c d a (xorLane 3) s
/-- QBCAST (R120). -/
def execQbcast (c : Ctl) (d a : Reg) (n : BitVec 2) (s : State) : Out :=
  xchg c d a (fun l => l / 4 * 4 + n.toNat) s

/-- The lane that SHFLI reads: its gB, as it stands at issue (R121). -/
def shfliSrc (w : Wave) (b : Reg) (l : Nat) : Nat := orSelf l ((w.readG b l).toNat : Int)

/-- SHFLI (R121). A gB that is a popped stream may name any lane. -/
def execShfli (c : Ctl) (d a b : Reg) (s : State) : Out :=
  let u : Use := match s.wave? s.selCore s.selSlot with
    | none => xchgUse c.p d a [(b, 1)] id
    | some w =>
      if w.streams.any fun e => covers (b, 1) e.1 then
        { xchgUse c.p d a [(b, 1)] id with
          reads := fun m => pLanes [c.p] m ++ gLanes [(b, 1)] m ++ gLanes [(a, 1)] (BitVec.allOnes 32) }
      else xchgUse c.p d a [(b, 1)] (shfliSrc w b)
  laneOp s c.s c.p u true fun v _ l => ([(.g d l, v.readG a (shfliSrc v b l))], 0)
/-- SHFLU (R121). -/
def execShflu (c : Ctl) (d a : Reg) (n : BitVec 5) (s : State) : Out :=
  xchg c d a (fun l => orSelf l ((l : Int) - n.toNat)) s
/-- SHFLD (R121). -/
def execShfld (c : Ctl) (d a : Reg) (n : BitVec 5) (s : State) : Out :=
  xchg c d a (fun l => orSelf l ((l : Int) + n.toNat)) s
/-- SHFLX (R121). -/
def execShflx (c : Ctl) (d a : Reg) (n : BitVec 5) (s : State) : Out := xchg c d a (xorLane n.toNat) s

/-! ## WAVE -/

/-- Contributing lanes (R117). -/
def contributing (w : Wave) (act : Lanes) : Lanes := act &&& ~~~w.helper

/-- A wave-wide result of g values, in every destination lane. -/
def waveG (c : Ctl) (d : Reg) (srcs : List (Reg × Nat)) (ps : List (BitVec 3))
    (f : Wave → Lanes → Nat → Word) (s : State) : Out :=
  laneOp s c.s c.p (laneUse c.p srcs [(d, 1)] ps []) true
    fun v act l => ([(.g d l, f v (contributing v act) l)], 0)

/-- A vote, in every destination lane. -/
def voteOp (c : Ctl) (pd pa : BitVec 3) (f : Wave → Lanes → Bool) (s : State) : Out :=
  laneOp s c.s c.p (laneUse c.p [] [] [pa] [pd]) true
    fun v act l => ([(.p pd l, if f v (contributing v act) then 1 else 0)], 0)

/-- VOTEANY (R122). -/
def execVoteany (c : Ctl) (pd pa : BitVec 3) (s : State) : Out :=
  voteOp c pd pa (fun v m => (lanesOf m).any fun k => v.readP pa k) s
/-- VOTEALL (R122). -/
def execVoteall (c : Ctl) (pd pa : BitVec 3) (s : State) : Out :=
  voteOp c pd pa (fun v m => (lanesOf m).all fun k => v.readP pa k) s
/-- BALLOT (R122). -/
def execBallot (c : Ctl) (d : Reg) (pa : BitVec 3) (s : State) : Out :=
  waveG c d [] [pa] (fun v m _ => maskOf fun k => m.getLsbD k && v.readP pa k) s
/-- MATCH (R122). -/
def execMatchI (c : Ctl) (d a : Reg) (s : State) : Out :=
  waveG c d [(a, 1)] [] (fun v m l => maskOf fun k => m.getLsbD k && v.readG a k == v.readG a l) s
/-- POPM (R122). -/
def execPopm (c : Ctl) (d : Reg) (pa : BitVec 3) (s : State) : Out :=
  waveG c d [] [pa] (fun v m l =>
    BitVec.ofNat 32 ((lanesOf m).filter fun k => Nat.blt k l && v.readP pa k).length) s

/-- A reduction over the contributing lanes (R123). -/
def redux (c : Ctl) (d a : Reg) (f : Word → Word → Word) (unit_ : Word) (s : State) : Out :=
  waveG c d [(a, 1)] [] (fun v m _ => (lanesOf m).foldl (fun x k => f x (v.readG a k)) unit_) s

/-- REDUXADD (R123). -/
def execReduxadd (c : Ctl) (d a : Reg) (s : State) : Out := redux c d a (fun x y => x + y) 0 s
/-- REDUXMIN (R123). -/
def execReduxmin (c : Ctl) (d a : Reg) (u : Bool) (s : State) : Out :=
  if u then redux c d a minuF 0xFFFFFFFF s else redux c d a minF 0x7FFFFFFF s
/-- REDUXMAX (R123). -/
def execReduxmax (c : Ctl) (d a : Reg) (u : Bool) (s : State) : Out :=
  if u then redux c d a maxuF 0 s else redux c d a maxF 0x80000000 s

/-- One level of the tree of R124: adjacent nodes, with their flags. -/
def treeLevel (op : Nat → Nat → Nat × Flags) : List Nat → List Nat × Flags
  | a :: b :: t =>
    let r := op a b
    let q := treeLevel op t
    (r.1 :: q.1, r.2 ||| q.2)
  | l => (l, 0)

/-- Several levels. -/
def treeLevels (op : Nat → Nat → Nat × Flags) : Nat → List Nat → List Nat × Flags
  | 0, l => (l, 0)
  | n + 1, l =>
    let r := treeLevel op l
    let q := treeLevels op n r.1
    (q.1, r.2 ||| q.2)

/-- The node operation of FREDUX and its identity (R124). -/
def fredNode (op : RedOp) (rm : Rm) (ftz : Bool) (a b : Nat) : Nat × Flags :=
  match op with
  | .add => f32.add rm ftz (f32.num a) (f32.num b)
  | .min => f32.minmax ftz false (f32.num a) (f32.num b)
  | .max => f32.minmax ftz true (f32.num a) (f32.num b)
def fredUnit (op : RedOp) : Nat :=
  match op with
  | .add => 0x80000000
  | .min => 0x7F800000
  | .max => 0xFF800000

/-- The value and the flags of FREDUX over contributing lanes (R124). -/
def fredux (op : RedOp) (w : Wave) (a : Reg) (m : Lanes) : Word × Flags :=
  if m == 0 then (BitVec.ofNat 32 (fredUnit op), 0)
  else
    let vs := (List.range 32).map fun k => if m.getLsbD k then (w.readG a k).toNat else fredUnit op
    let r := treeLevels (fredNode op w.rm w.ftz) 5 vs
    (BitVec.ofNat 32 (r.1.headD 0), r.2)

/-- FREDUX (R124). Its flags count for every contributing lane (log entry 31). -/
def execFredux (c : Ctl) (d a : Reg) (op : RedOp) (s : State) : Out :=
  laneOp s c.s c.p (laneUse c.p [(a, 1)] [(d, 1)] [] []) true fun v act l =>
    let r := fredux op v a (contributing v act)
    ([(.g d l, r.1)], r.2)

/-! ## STREAM -/

/-- Unbinds a stream; its POS stays in its descriptor (R126). -/
def Wave.unbind (w : Wave) (st : Nat) : Wave :=
  match assoc w.streams st with
  | none => w
  | some x =>
    { w with
      streams := w.streams.filter fun e => e.1 != st
      sd := Tab.put 0 w.sd (4 * st + 3) (BitVec.ofNat 64 x.pos) }

/-- Changes the position of a bound stream. -/
def Wave.setPos (w : Wave) (st : Nat) (f : Stream → Nat) : Wave :=
  { w with
    streams := w.streams.map fun e => if e.1 == st then (st, e.2.goTo (f e.2)) else e }

/-- A STREAM function that acts on a bound stream (R128, R129). -/
def streamOp (c : Ctl) (st : BitVec 2) (dsts : List (Reg × Nat))
    (f : State → Wave → Path → Use → Lanes → Stream → State) (s : State) : Out :=
  waveOp s c.s c.p [] dsts [] [] [] [] fun s w _ p u _ act =>
    match assoc w.streams st.toNat with
    | none => s.trapBy w p 0x122
    | some x => f s w p u act x

/-- A value for every active lane. -/
def toLanes (d : Reg) (act : Lanes) (v : Word) : List (Dst × Src) :=
  (lanesOf act).map fun l => (.g d l, .val v)

/-- SCNT (R129). -/
def execScnt (c : Ctl) (d : Reg) (st : BitVec 2) (s : State) : Out :=
  streamOp c st [(d, 1)] (fun s w p u act x =>
    s.finishL w p u c.s (toLanes d act (BitVec.ofNat 32 (x.count - 32 * x.pos))) []) s
/-- SEND (R129). -/
def execSendS (c : Ctl) (d : Reg) (st : BitVec 2) (s : State) : Out :=
  streamOp c st [(d, 1)] (fun s w p u act x =>
    (s.finishL w p u c.s (toLanes d act (BitVec.ofNat 32 (min x.count (32 * x.pos)))) []).modWave
      w.core w.slot fun w => w.unbind st.toNat) s
/-- SREW (R129). -/
def execSrew (c : Ctl) (st : BitVec 2) (s : State) : Out :=
  streamOp c st [] (fun s w _ u _ _ => s.passBy (w.setPos st.toNat fun _ => 0) u c.s) s
/-- SSKIP (R129). -/
def execSskip (c : Ctl) (st : BitVec 2) (n : BitVec 6) (s : State) : Out :=
  streamOp c st [] (fun s w _ u _ _ =>
    s.passBy (w.setPos st.toNat fun x => min (x.pos + n.toNat) ((x.count + 31) / 32)) u c.s) s

/-- STREAM_ELEMENT_FETCH: an element of a bound read stream is read before it is popped, if its read would not fault: of
the current step (`lane` 0 to 31) or of a later one, 32 elements on for each step (R130). -/
def execStreamElementFetch (core slot st lane : Nat) (s : State) : Out :=
  match s.wave? core slot with
  | none => .next s
  | some w =>
    match assoc w.streams st with
    | none => .next s
    | some x =>
      let n := 32 * x.pos + lane
      let va := ({ x with pos := n / 32 } : Stream).va (n % 32)
      if x.push || Nat.ble x.count n || (assoc x.buf n).isSome || s.pageHeld w va ||
          !(s.pushesAt w w.pend (va, Size.bytes x.size)).isEmpty
      then .next s
      else
        let (grp, s) := s.fresh
        let a : Acc := { grp, lane := n % 32, va, pc := 0, kind := .element st n }
        match s.resolve w a with
        | (.ok pa how, s) => .next (if s.popBad w a pa then s else s.makeAcc core slot a pa how)
        | (_, s) => .next s

/-! ## STRCFG -/

/-- Bytes of an element by SIZE code, for the codes that a stream may have (Table 5-7). -/
def streamBytes (push : Bool) (sz : Nat) : Option (Size × Nat) :=
  match sz with
  | 0 => some (.b, 1)
  | 1 => if push then none else some (.sb, 1)
  | 2 => some (.h, 2)
  | 3 => if push then none else some (.sh, 2)
  | 4 => some (.w, 4)
  | _ => none

/-- The stream that the descriptors of stream `st` bind, if they are valid (R126). -/
def Wave.streamOf (w : Wave) (st : Nat) : Option Stream :=
  let sd (k : Nat) : DWord := Tab.get 0 w.sd (4 * st + k)
  let push := (sd 2).getLsbD 36
  match streamBytes push ((sd 2).toNat / 2 ^ 32 % 8) with
  | none => none
  | some (size, n) =>
    let ls : BitVec 32 := (sd 1).setWidth 32
    let es : BitVec 32 := (sd 1).extractLsb' 32 32
    if (sd 0).toNat % n != 0 || ls.toNat % n != 0 || es.toNat % n != 0 then none
    else some { base := sd 0, lstride := ls, estride := es, count := (sd 2).toNat % 2 ^ 32, size, push,
                pos := 0, buf := [] }

/-- STRCFG (R126): unbinding comes first, and an invalid descriptor changes no binding. -/
def execStrcfg (sw : Bool) (d a _b : Reg) (s : State) : Out :=
  xOp s sw [(a, 1)] [(d, 1)] fun s w p =>
    let v := w.readW a
    let binds := (List.range 4).filter fun k => v.getLsbD k
    if binds.any fun k => (w.streamOf k).isNone then s.trapBy w p 0x121
    else
      let w := ((List.range 4).filter fun k => v.getLsbD (4 + k)).foldl Wave.unbind w
      let w := binds.foldl (fun w k => match w.streamOf k with
        | some x => { w.unbind k with streams := (w.unbind k).streams ++ [(k, x)] }
        | none => w) w
      let now := (List.range 4).foldl (fun n k =>
        if w.streams.any fun e => e.1 == k then n + 2 ^ k else n) 0
      s.xReply w sw d (.val (BitVec.ofNat 32 now))

end Sys2Proof.Machine
end

