-- ==== Sys2Proof/WellFormed.lean ====
section
/-! DEFINITION. The checks that a well-formed instruction passes: the reserved values of fields (R33,
Table 16-4a) and the pair rules (R32). The types of the fields carry the rest. -/

namespace Sys2Proof

/-- A register that may name a pair (R32). -/
def even (r : Reg) : Bool := r &&& 1 == 0

/-- A register that may name a quadruple (R32). -/
def quadReg (r : Reg) : Bool := r &&& 3 == 0

/-- A register that may name a w block (R278). -/
def blockReg (r : Reg) : Bool := r &&& 15 == 0

/-- A traversal register that may name a pair (R366). -/
def tEven (r : TReg) : Bool := r &&& 1 == 0

/-- The pair rule of a data register of a load or store (R191). -/
def sizeReg (sz : Size) (r : Reg) : Bool :=
  match sz with
  | .d => even r
  | .q => quadReg r
  | _ => true

/-- No field holds a reserved value (R33, R83, R105, Table 16-4a). -/
def fieldsOk : Instr → Bool
  | .nop _ => true
  | .exit _ => true
  | .yield _ => true
  | .trap _ _ => true
  | .rdsr _ _ idx => idx < 18
  | .wrsr _ _ idx => idx == 10 || idx == 11 || idx == 13 || idx == 16
  | .eret _ _ _ _ => true
  | .halt _ _ => true
  | .tlbw _ _ _ => true
  | .tlbi _ _ _ => true
  | .tlbsync _ => true
  | .cacheL1inv _ _ => true
  | .cacheL1all _ => true
  | .cacheWb _ _ => true
  | .cacheWbinv _ _ => true
  | .cacheLock _ _ => true
  | .cacheUnlock _ _ => true
  | .svcall _ _ _ _ => true
  | .bkpt _ _ => true
  | .addR _ _ _ _ => true
  | .subR _ _ _ _ => true
  | .andR _ _ _ _ => true
  | .orR _ _ _ _ => true
  | .xorR _ _ _ _ => true
  | .andn _ _ _ _ => true
  | .shl _ _ _ _ => true
  | .shr _ _ _ _ => true
  | .sra _ _ _ _ => true
  | .minR _ _ _ _ => true
  | .maxR _ _ _ _ => true
  | .minu _ _ _ _ => true
  | .maxu _ _ _ _ => true
  | .mulR _ _ _ _ => true
  | .mulh _ _ _ _ => true
  | .mulhu _ _ _ _ => true
  | .clz _ _ _ => true
  | .popc _ _ _ => true
  | .brev _ _ _ => true
  | .bfx _ _ _ _ => true
  | .bfxu _ _ _ _ => true
  | .bfi _ _ _ _ => true
  | .absd _ _ _ _ => true
  | .addc _ _ _ _ => true
  | .subb _ _ _ _ => true
  | .lea _ _ _ _ => true
  | .lea2 _ _ _ _ => true
  | .lea4 _ _ _ _ => true
  | .lea8 _ _ _ _ => true
  | .add64 _ _ _ _ => true
  | .sub64 _ _ _ _ => true
  | .shl64 _ _ _ _ => true
  | .shr64 _ _ _ _ => true
  | .sra64 _ _ _ _ => true
  | .mul32w _ _ _ _ => true
  | .minu64 _ _ _ _ => true
  | .maxu64 _ _ _ _ => true
  | .addi _ _ _ _ => true
  | .andi _ _ _ _ => true
  | .ori _ _ _ _ => true
  | .xori _ _ _ _ => true
  | .shli _ _ _ _ => true
  | .shri _ _ _ _ => true
  | .srai _ _ _ _ => true
  | .roli _ _ _ _ => true
  | .muli _ _ _ _ => true
  | .movi _ _ _ => true
  | .movhi _ _ _ => true
  | .icmp _ _ _ _ _ _ => true
  | .icmpi _ _ _ _ _ _ => true
  | .pand _ _ _ _ => true
  | .por _ _ _ _ => true
  | .pxor _ _ _ _ => true
  | .pnot _ _ _ => true
  | .p2g _ _ _ => true
  | .g2p _ _ _ => true
  | .sel _ _ _ _ _ => true
  | .fadd _ _ _ _ => true
  | .fsub _ _ _ _ => true
  | .fmul _ _ _ _ => true
  | .fmin _ _ _ _ => true
  | .fmax _ _ _ _ => true
  | .fabs _ _ _ => true
  | .fneg _ _ _ => true
  | .fcopysign _ _ _ _ => true
  | .ffma _ _ _ _ => true
  | .ffms _ _ _ _ => true
  | .fnma _ _ _ _ => true
  | .fnms _ _ _ _ => true
  | .fcmp _ _ _ _ _ _ => true
  | .fcvtFf _ _ _ cv r => if cv < 4 || cv == 7 then r < 5 else if cv == 6 then r == 0 else r < 2
  | .fcvtFi _ _ _ _ r => r < 5
  | .fcvtIf _ _ _ _ r => r < 5
  | .fcvtFx _ _ _ cv => cv < 2
  | .fcvtXf _ _ _ cv => cv < 2
  | .fcvtRi _ _ _ cv r => cv < 2 && r < 5
  | .hadd2 _ _ _ _ => true
  | .hsub2 _ _ _ _ => true
  | .hmul2 _ _ _ _ => true
  | .hfma2 _ _ _ _ => true
  | .hmin2 _ _ _ _ => true
  | .hmax2 _ _ _ _ => true
  | .hadd2Bf _ _ _ _ => true
  | .hsub2Bf _ _ _ _ => true
  | .hmul2Bf _ _ _ _ => true
  | .hfma2Bf _ _ _ _ => true
  | .hmin2Bf _ _ _ _ => true
  | .hmax2Bf _ _ _ _ => true
  | .dadd _ _ _ _ => true
  | .dsub _ _ _ _ => true
  | .dmul _ _ _ _ => true
  | .dfma _ _ _ _ => true
  | .dmin _ _ _ _ => true
  | .dmax _ _ _ _ => true
  | .dcmp _ _ _ _ _ => true
  | .rcp _ _ _ => true
  | .rsq _ _ _ => true
  | .sqrt _ _ _ => true
  | .ex2 _ _ _ => true
  | .lg2 _ _ _ => true
  | .sin _ _ _ => true
  | .cos _ _ _ => true
  | .tanh _ _ _ => true
  | .idot4 _ _ _ _ => true
  | .idot4u _ _ _ _ => true
  | .hdot2 _ _ _ _ => true
  | .bdot2 _ _ _ _ => true
  | .idot8 _ _ _ _ => true
  | .idot8u _ _ _ _ => true
  | .qswpx _ _ _ => true
  | .qswpy _ _ _ => true
  | .qswpd _ _ _ => true
  | .qbcast _ _ _ _ => true
  | .shfli _ _ _ _ => true
  | .shflu _ _ _ _ => true
  | .shfld _ _ _ _ => true
  | .shflx _ _ _ _ => true
  | .voteany _ _ _ => true
  | .voteall _ _ _ => true
  | .ballot _ _ _ => true
  | .matchI _ _ _ => true
  | .reduxadd _ _ _ => true
  | .reduxmin _ _ _ _ => true
  | .reduxmax _ _ _ _ => true
  | .fredux _ _ _ _ => true
  | .popm _ _ _ => true
  | .scnt _ _ _ => true
  | .sendS _ _ _ => true
  | .srew _ _ => true
  | .sskip _ _ _ => true
  | .streamElementFetch _ _ _ _ => true
  | .wadd _ _ _ _ => true
  | .wsub _ _ _ _ => true
  | .wand _ _ _ _ => true
  | .wor _ _ _ _ => true
  | .wxor _ _ _ _ => true
  | .wandn _ _ _ _ => true
  | .wshl _ _ _ _ => true
  | .wshr _ _ _ _ => true
  | .wsra _ _ _ _ => true
  | .wmin _ _ _ _ => true
  | .wmax _ _ _ _ => true
  | .wminu _ _ _ _ => true
  | .wmaxu _ _ _ _ => true
  | .wmul _ _ _ _ => true
  | .wmulh _ _ _ _ => true
  | .wmulhu _ _ _ _ => true
  | .waddi _ _ _ _ => true
  | .g2w _ _ _ => true
  | .w2g _ _ _ => true
  | .wcmp _ _ _ _ _ => true
  | .wmovi _ _ _ => true
  | .ldg _ _ _ _ _ => true
  | .stg _ _ _ sz _ => sz != .sb && sz != .sh
  | .ldl _ _ _ _ _ => true
  | .stl _ _ _ sz _ => sz != .sb && sz != .sh
  | .ldwg _ _ _ _ _ => true
  | .ldwl _ _ _ _ _ => true
  | .ldacq _ _ _ _ _ => true
  | .strel _ _ _ _ _ => true
  | .atomAddSi32 _ _ _ _ => true
  | .atomAddF32 _ _ _ _ => true
  | .atomAddBf16x2 _ _ _ _ => true
  | .atomAddF16x2 _ _ _ _ => true
  | .atomMinSi32 _ _ _ _ => true
  | .atomMaxSi32 _ _ _ _ => true
  | .atomMinUi32 _ _ _ _ => true
  | .atomMaxUi32 _ _ _ _ => true
  | .atomMinF32 _ _ _ _ => true
  | .atomMaxF32 _ _ _ _ => true
  | .atomAnd _ _ _ _ => true
  | .atomOr _ _ _ _ => true
  | .atomXor _ _ _ _ => true
  | .atomExch _ _ _ _ => true
  | .atomCas _ _ _ _ => true
  | .atomAddSi64 _ _ _ _ => true
  | .atomaAddSi32 _ _ _ _ => true
  | .atomaAddF32 _ _ _ _ => true
  | .atomaAddBf16x2 _ _ _ _ => true
  | .atomaAddF16x2 _ _ _ _ => true
  | .atomaMinSi32 _ _ _ _ => true
  | .atomaMaxSi32 _ _ _ _ => true
  | .atomaMinUi32 _ _ _ _ => true
  | .atomaMaxUi32 _ _ _ _ => true
  | .atomaMinF32 _ _ _ _ => true
  | .atomaMaxF32 _ _ _ _ => true
  | .atomaAnd _ _ _ _ => true
  | .atomaOr _ _ _ _ => true
  | .atomaXor _ _ _ _ => true
  | .atomaExch _ _ _ _ => true
  | .atomaCas _ _ _ _ => true
  | .atomaAddSi64 _ _ _ _ => true
  | .redAddSi32 _ _ _ => true
  | .redAddF32 _ _ _ => true
  | .redAddBf16x2 _ _ _ => true
  | .redAddF16x2 _ _ _ => true
  | .redMinSi32 _ _ _ => true
  | .redMaxSi32 _ _ _ => true
  | .redMinUi32 _ _ _ => true
  | .redMaxUi32 _ _ _ => true
  | .redMinF32 _ _ _ => true
  | .redMaxF32 _ _ _ => true
  | .redAnd _ _ _ => true
  | .redOr _ _ _ => true
  | .redXor _ _ _ => true
  | .redExch _ _ _ => true
  | .redCas _ _ _ _ => true
  | .redAddSi64 _ _ _ => true
  | .atomlAddSi32 _ _ _ _ => true
  | .atomlAddF32 _ _ _ _ => true
  | .atomlAddBf16x2 _ _ _ _ => true
  | .atomlAddF16x2 _ _ _ _ => true
  | .atomlMinSi32 _ _ _ _ => true
  | .atomlMaxSi32 _ _ _ _ => true
  | .atomlMinUi32 _ _ _ _ => true
  | .atomlMaxUi32 _ _ _ _ => true
  | .atomlMinF32 _ _ _ _ => true
  | .atomlMaxF32 _ _ _ _ => true
  | .atomlAnd _ _ _ _ => true
  | .atomlOr _ _ _ _ => true
  | .atomlXor _ _ _ _ => true
  | .atomlExch _ _ _ _ => true
  | .atomlCas _ _ _ _ => true
  | .sliceRmw _ _ => true
  | .oredF32 _ _ _ _ => true
  | .oredBf16x2 _ _ _ _ => true
  | .oredF64 _ _ _ _ => true
  | .oreContribution _ _ => true
  | .oredRefusalRetry _ _ => true
  | .fenceFull _ _ => true
  | .fenceAcq _ _ => true
  | .fenceRel _ _ => true
  | .tfence _ _ => true
  | .cfence _ _ => true
  | .drainCpl _ => true
  | .drainCpg _ => true
  | .drainSlice _ => true
  | .drainMsg _ => true
  | .drainMx _ => true
  | .drainTrav _ => true
  | .drainWalk _ => true
  | .drainAll _ => true
  | .bra _ _ => true
  | .jpt _ _ => true
  | .call _ _ => true
  | .brx _ _ => true
  | .callx _ _ _ => true
  | .ret _ _ => true
  | .barSync _ _ => true
  | .barArrive _ _ => true
  | .barWait _ _ => true
  | .barxExpect _ _ _ => true
  | .barxWait _ _ => true
  | .joinw _ _ => true
  | .joinwRecheck _ _ => true
  | .cpLd _ _ _ => true
  | .cpSt _ _ _ => true
  | .cpLdz _ _ _ => true
  | .cpFill _ _ _ => true
  | .cpCpy _ _ _ => true
  | .cpSlw _ _ _ => true
  | .cpGather _ _ _ => true
  | .cpScatter _ _ _ => true
  | .cpStatus _ _ _ => true
  | .copyCompletion _ _ => true
  | .mxCtx _ _ => true
  | .mxLda _ _ _ _ => true
  | .mxLdb _ _ _ => true
  | .mxMma _ _ _ _ => true
  | .mxMmaR _ _ _ _ => true
  | .mxMmas _ _ _ _ => true
  | .mxMmasR _ _ _ _ => true
  | .mxZero _ _ _ => true
  | .mxStacc _ _ _ _ => true
  | .mxLdacc _ _ _ _ => true
  | .mxScale _ _ _ _ => true
  | .mxSmax _ _ _ _ => true
  | .mxSnorm _ _ _ => true
  | .mxFence _ _ => true
  | .mxWait _ _ => true
  | .mxRel _ _ _ => true
  | .mxeDispatch _ => true
  | .dlBind _ _ _ _ => true
  | .dlRun _ _ _ _ => true
  | .dlFull _ _ _ _ => true
  | .dlInv _ _ _ => true
  | .dlQry _ _ _ _ => true
  | .dlCfg _ _ _ _ => true
  | .dlDropall _ _ _ => true
  | .trLaunch _ _ _ _ => true
  | .trResume _ _ _ _ => true
  | .trCqcfg _ _ _ _ => true
  | .trDtab _ _ _ _ => true
  | .trProg _ _ _ _ => true
  | .pfArm _ _ _ _ => true
  | .pfDisarm _ _ _ => true
  | .msgSend _ _ _ _ => true
  | .msgSendl _ _ _ _ => true
  | .msgMcast _ _ _ _ => true
  | .msgWake _ _ _ _ => true
  | .msgMask _ _ _ => true
  | .msgUnmask _ _ _ => true
  | .msgPend _ _ => true
  | .msgHbind _ _ _ _ => true
  | .messageArrival _ => true
  | .sendReply _ => true
  | .sendRetry _ => true
  | .overflowRecordMove _ _ _ => true
  | .wakeArrival _ => true
  | .handlerWaveStart _ _ => true
  | .linkReplay _ => true
  | .capNew _ _ _ _ => true
  | .capFwd _ _ _ => true
  | .capIns _ _ _ _ => true
  | .capDel _ _ _ => true
  | .capSet _ _ _ _ => true
  | .capRet _ _ _ => true
  | .capPark _ _ _ => true
  | .capLoad _ _ _ _ => true
  | .capsuleArrival _ => true
  | .capsuleSlotEntry _ _ => true
  | .launch _ _ _ => true
  | .forkL _ _ _ _ => true
  | .forkG _ _ _ _ => true
  | .engw _ _ _ _ => true
  | .engr _ _ _ => true
  | .strcfg _ _ _ _ => true
  | .prio _ _ _ => true
  | .lClassResultWrite _ _ _ => true
  | .implicitSwitch _ _ => true
  | .reconvergence _ _ => true
  | .pathRestore _ _ => true
  | .ageingPromotion _ _ => true
  | .yieldRelease _ _ => true
  | .watchdogExpiry _ => true
  | .hostLaunchRead _ _ => true
  | .gangPlacement _ => true
  | .launchCompletion _ => true
  | .groupResourceRelease _ _ => true
  | .taskWaveStart _ _ => true
  | .dequeSteal _ _ => true
  | .hawkerInterval _ => true
  | .dequeShipmentArrival _ => true
  | .preemption _ => true
  | .gangResume _ => true
  | .gangSwitchOut _ _ => true
  | .faultReplay _ _ _ => true
  | .storePerform _ _ => true
  | .mergeWindowClose _ _ => true
  | .prefetchThreadStart _ _ => true
  | .trpThreadStart _ => true
  | .cqBatchForm _ _ => true
  | .cqBatchTimeout _ _ => true
  | .cqPostResume _ _ => true
  | .handoffArrival _ => true
  | .handoffReturn _ => true
  | .ualinkLinkDown => true
  | .peerRequest _ _ => true
  | .peerAtomicRequest _ _ => true
  | .contextTermination _ _ => true
  | .softError _ => true
  | .hostMemoryRequest _ => true
  | .doorbell _ _ => true
  | .versionSelect _ _ _ => true
  | .registerWrite _ _ => true
  | .droopRead _ => true
  | .functionLevelReset => true
  | .verticalBlank _ => true
  | .powerManagerDecision => true
  | .thermalTrip _ => true
  | .deviceReset _ => true
  | .getVersion => true
  | .getCapabilities => true
  | .negotiateAlgorithms _ _ => true
  | .getDigests => true
  | .getCertificate _ _ _ => true
  | .challenge _ _ => true
  | .getMeasurements _ => true
  | .spdmUnsupportedRequest _ => true
  | .tnop => true
  | .tadd _ _ _ => true
  | .tsub _ _ _ => true
  | .tand _ _ _ => true
  | .tor _ _ _ => true
  | .txor _ _ _ => true
  | .tshl _ _ _ => true
  | .tshr _ _ _ => true
  | .tsra _ _ _ => true
  | .tmin _ _ _ => true
  | .tmax _ _ _ => true
  | .tminu _ _ _ => true
  | .tmaxu _ _ _ => true
  | .tmul _ _ _ => true
  | .tfadd _ _ _ => true
  | .tfsub _ _ _ => true
  | .tfmul _ _ _ => true
  | .tfmin _ _ _ => true
  | .tfmax _ _ _ => true
  | .taddi _ _ _ => true
  | .tandi _ _ _ => true
  | .tori _ _ _ => true
  | .tshli _ _ _ => true
  | .tshri _ _ _ => true
  | .tsrai _ _ _ => true
  | .troli _ _ _ => true
  | .tlui _ _ => true
  | .tbr cond a b _ => cond != .al || a == 0 && b == 0
  | .trsrReclo _ => true
  | .trsrRechi _ => true
  | .trsrTag _ => true
  | .trsrThread _ => true
  | .nfetch _ _ => true
  | .ndec _ => true
  | .ngetKind _ => true
  | .ngetCnt _ => true
  | .ngetChild _ _ => true
  | .ngetKeylo _ _ => true
  | .ngetKeyhi _ _ => true
  | .ngetPeer _ => true
  | .ngetRemote _ => true
  | .ngetWord _ _ => true
  | .tld _ _ _ => true
  | .tqld _ _ => true
  | .tpfNc _ => true
  | .tpfL1 _ => true
  | .tbox _ a => a == 0 || a == 8
  | .ttri _ a _ => a == 0 || a == 8
  | .tdistL2 _ _ _ => true
  | .tdistDot _ _ _ => true
  | .tkeyLt _ _ => true
  | .tkeyLe _ _ => true
  | .tpush _ => true
  | .tpushc _ => true
  | .tpop _ _ => true
  | .tdepth _ => true
  | .emit a => a < 14
  | .endDone a => a < 14
  | .endMiss a => a < 14
  | .susp _ a _ => a < 14
  | .thand => true
  | .decodeTrap _ => true
  | .traversalWordNotInstruction _ => true
  | .instructionFetchFault _ => true
  | .reservingGang _ => true
  | .driverRequest _ => true
  | .ualinkLinkUp _ _ _ => true
  | .uncorrectableError _ _ => true
  | .droopEvent _ => true

/-- Every pair, quadruple and block rule holds (R32, R278, R366). -/
def pairsOk : Instr → Bool
  | .nop _ => true
  | .exit _ => true
  | .yield _ => true
  | .trap _ _ => true
  | .rdsr _ d idx => idx != 9 || even d
  | .wrsr _ _ _ => true
  | .eret _ _ _ _ => true
  | .halt _ _ => true
  | .tlbw _ a _ => quadReg a
  | .tlbi _ a _ => even a
  | .tlbsync _ => true
  | .cacheL1inv _ a => even a
  | .cacheL1all _ => true
  | .cacheWb _ a => even a
  | .cacheWbinv _ a => even a
  | .cacheLock _ _ => true
  | .cacheUnlock _ _ => true
  | .svcall _ _ _ _ => true
  | .bkpt _ _ => true
  | .addR _ _ _ _ => true
  | .subR _ _ _ _ => true
  | .andR _ _ _ _ => true
  | .orR _ _ _ _ => true
  | .xorR _ _ _ _ => true
  | .andn _ _ _ _ => true
  | .shl _ _ _ _ => true
  | .shr _ _ _ _ => true
  | .sra _ _ _ _ => true
  | .minR _ _ _ _ => true
  | .maxR _ _ _ _ => true
  | .minu _ _ _ _ => true
  | .maxu _ _ _ _ => true
  | .mulR _ _ _ _ => true
  | .mulh _ _ _ _ => true
  | .mulhu _ _ _ _ => true
  | .clz _ _ _ => true
  | .popc _ _ _ => true
  | .brev _ _ _ => true
  | .bfx _ _ _ _ => true
  | .bfxu _ _ _ _ => true
  | .bfi _ _ _ _ => true
  | .absd _ _ _ _ => true
  | .addc _ _ _ _ => true
  | .subb _ _ _ _ => true
  | .lea _ d a _ => even d && even a
  | .lea2 _ d a _ => even d && even a
  | .lea4 _ d a _ => even d && even a
  | .lea8 _ d a _ => even d && even a
  | .add64 _ d a b => even d && even a && even b
  | .sub64 _ d a b => even d && even a && even b
  | .shl64 _ d a _ => even d && even a
  | .shr64 _ d a _ => even d && even a
  | .sra64 _ d a _ => even d && even a
  | .mul32w _ d _ _ => even d
  | .minu64 _ d a b => even d && even a && even b
  | .maxu64 _ d a b => even d && even a && even b
  | .addi _ _ _ _ => true
  | .andi _ _ _ _ => true
  | .ori _ _ _ _ => true
  | .xori _ _ _ _ => true
  | .shli _ _ _ _ => true
  | .shri _ _ _ _ => true
  | .srai _ _ _ _ => true
  | .roli _ _ _ _ => true
  | .muli _ _ _ _ => true
  | .movi _ _ _ => true
  | .movhi _ _ _ => true
  | .icmp _ _ _ _ _ _ => true
  | .icmpi _ _ _ _ _ _ => true
  | .pand _ _ _ _ => true
  | .por _ _ _ _ => true
  | .pxor _ _ _ _ => true
  | .pnot _ _ _ => true
  | .p2g _ _ _ => true
  | .g2p _ _ _ => true
  | .sel _ _ _ _ _ => true
  | .fadd _ _ _ _ => true
  | .fsub _ _ _ _ => true
  | .fmul _ _ _ _ => true
  | .fmin _ _ _ _ => true
  | .fmax _ _ _ _ => true
  | .fabs _ _ _ => true
  | .fneg _ _ _ => true
  | .fcopysign _ _ _ _ => true
  | .ffma _ _ _ _ => true
  | .ffms _ _ _ _ => true
  | .fnma _ _ _ _ => true
  | .fnms _ _ _ _ => true
  | .fcmp _ _ _ _ _ _ => true
  | .fcvtFf _ d a cv _ => (cv != 6 || even d) && (cv != 7 || even a)
  | .fcvtFi _ d a cv _ => (cv < 2 || 3 < cv && cv < 6 || even a) && (cv < 4 || even d)
  | .fcvtIf _ d a cv _ => (cv < 4 || even a) && (cv < 2 || 3 < cv && cv < 6 || even d)
  | .fcvtFx _ _ _ _ => true
  | .fcvtXf _ _ _ _ => true
  | .fcvtRi _ d a cv _ => cv == 0 || even d && even a
  | .hadd2 _ _ _ _ => true
  | .hsub2 _ _ _ _ => true
  | .hmul2 _ _ _ _ => true
  | .hfma2 _ _ _ _ => true
  | .hmin2 _ _ _ _ => true
  | .hmax2 _ _ _ _ => true
  | .hadd2Bf _ _ _ _ => true
  | .hsub2Bf _ _ _ _ => true
  | .hmul2Bf _ _ _ _ => true
  | .hfma2Bf _ _ _ _ => true
  | .hmin2Bf _ _ _ _ => true
  | .hmax2Bf _ _ _ _ => true
  | .dadd _ d a b => even d && even a && even b
  | .dsub _ d a b => even d && even a && even b
  | .dmul _ d a b => even d && even a && even b
  | .dfma _ d a b => even d && even a && even b
  | .dmin _ d a b => even d && even a && even b
  | .dmax _ d a b => even d && even a && even b
  | .dcmp _ _ _ a b => even a && even b
  | .rcp _ _ _ => true
  | .rsq _ _ _ => true
  | .sqrt _ _ _ => true
  | .ex2 _ _ _ => true
  | .lg2 _ _ _ => true
  | .sin _ _ _ => true
  | .cos _ _ _ => true
  | .tanh _ _ _ => true
  | .idot4 _ _ _ _ => true
  | .idot4u _ _ _ _ => true
  | .hdot2 _ _ _ _ => true
  | .bdot2 _ _ _ _ => true
  | .idot8 _ _ _ _ => true
  | .idot8u _ _ _ _ => true
  | .qswpx _ _ _ => true
  | .qswpy _ _ _ => true
  | .qswpd _ _ _ => true
  | .qbcast _ _ _ _ => true
  | .shfli _ _ _ _ => true
  | .shflu _ _ _ _ => true
  | .shfld _ _ _ _ => true
  | .shflx _ _ _ _ => true
  | .voteany _ _ _ => true
  | .voteall _ _ _ => true
  | .ballot _ _ _ => true
  | .matchI _ _ _ => true
  | .reduxadd _ _ _ => true
  | .reduxmin _ _ _ _ => true
  | .reduxmax _ _ _ _ => true
  | .fredux _ _ _ _ => true
  | .popm _ _ _ => true
  | .scnt _ _ _ => true
  | .sendS _ _ _ => true
  | .srew _ _ => true
  | .sskip _ _ _ => true
  | .streamElementFetch _ _ _ _ => true
  | .wadd _ _ _ _ => true
  | .wsub _ _ _ _ => true
  | .wand _ _ _ _ => true
  | .wor _ _ _ _ => true
  | .wxor _ _ _ _ => true
  | .wandn _ _ _ _ => true
  | .wshl _ _ _ _ => true
  | .wshr _ _ _ _ => true
  | .wsra _ _ _ _ => true
  | .wmin _ _ _ _ => true
  | .wmax _ _ _ _ => true
  | .wminu _ _ _ _ => true
  | .wmaxu _ _ _ _ => true
  | .wmul _ _ _ _ => true
  | .wmulh _ _ _ _ => true
  | .wmulhu _ _ _ _ => true
  | .waddi _ _ _ _ => true
  | .g2w _ _ _ => true
  | .w2g _ _ _ => true
  | .wcmp _ _ _ _ _ => true
  | .wmovi _ _ _ => true
  | .ldg _ d a sz _ => even a && sizeReg sz d
  | .stg _ d a sz _ => even a && sizeReg sz d
  | .ldl _ d _ sz _ => sizeReg sz d
  | .stl _ d _ sz _ => sizeReg sz d
  | .ldwg _ d a sz _ => even a && sizeReg sz d
  | .ldwl _ d _ sz _ => sizeReg sz d
  | .ldacq _ d a dw _ => even a && (!dw || even d)
  | .strel _ a b dw _ => even a && (!dw || even b)
  | .atomAddSi32 _ _ a _ => even a
  | .atomAddF32 _ _ a _ => even a
  | .atomAddBf16x2 _ _ a _ => even a
  | .atomAddF16x2 _ _ a _ => even a
  | .atomMinSi32 _ _ a _ => even a
  | .atomMaxSi32 _ _ a _ => even a
  | .atomMinUi32 _ _ a _ => even a
  | .atomMaxUi32 _ _ a _ => even a
  | .atomMinF32 _ _ a _ => even a
  | .atomMaxF32 _ _ a _ => even a
  | .atomAnd _ _ a _ => even a
  | .atomOr _ _ a _ => even a
  | .atomXor _ _ a _ => even a
  | .atomExch _ _ a _ => even a
  | .atomCas _ _ a _ => even a
  | .atomAddSi64 _ d a b => even a && even d && even b
  | .atomaAddSi32 _ _ a _ => even a
  | .atomaAddF32 _ _ a _ => even a
  | .atomaAddBf16x2 _ _ a _ => even a
  | .atomaAddF16x2 _ _ a _ => even a
  | .atomaMinSi32 _ _ a _ => even a
  | .atomaMaxSi32 _ _ a _ => even a
  | .atomaMinUi32 _ _ a _ => even a
  | .atomaMaxUi32 _ _ a _ => even a
  | .atomaMinF32 _ _ a _ => even a
  | .atomaMaxF32 _ _ a _ => even a
  | .atomaAnd _ _ a _ => even a
  | .atomaOr _ _ a _ => even a
  | .atomaXor _ _ a _ => even a
  | .atomaExch _ _ a _ => even a
  | .atomaCas _ _ a _ => even a
  | .atomaAddSi64 _ d a b => even a && even d && even b
  | .redAddSi32 _ a _ => even a
  | .redAddF32 _ a _ => even a
  | .redAddBf16x2 _ a _ => even a
  | .redAddF16x2 _ a _ => even a
  | .redMinSi32 _ a _ => even a
  | .redMaxSi32 _ a _ => even a
  | .redMinUi32 _ a _ => even a
  | .redMaxUi32 _ a _ => even a
  | .redMinF32 _ a _ => even a
  | .redMaxF32 _ a _ => even a
  | .redAnd _ a _ => even a
  | .redOr _ a _ => even a
  | .redXor _ a _ => even a
  | .redExch _ a _ => even a
  | .redCas _ _ a _ => even a
  | .redAddSi64 _ a b => even a && even b
  | .atomlAddSi32 _ _ _ _ => true
  | .atomlAddF32 _ _ _ _ => true
  | .atomlAddBf16x2 _ _ _ _ => true
  | .atomlAddF16x2 _ _ _ _ => true
  | .atomlMinSi32 _ _ _ _ => true
  | .atomlMaxSi32 _ _ _ _ => true
  | .atomlMinUi32 _ _ _ _ => true
  | .atomlMaxUi32 _ _ _ _ => true
  | .atomlMinF32 _ _ _ _ => true
  | .atomlMaxF32 _ _ _ _ => true
  | .atomlAnd _ _ _ _ => true
  | .atomlOr _ _ _ _ => true
  | .atomlXor _ _ _ _ => true
  | .atomlExch _ _ _ _ => true
  | .atomlCas _ _ _ _ => true
  | .sliceRmw _ _ => true
  | .oredF32 _ _ a _ => even a
  | .oredBf16x2 _ _ a _ => even a
  | .oredF64 _ _ a b => even a && even b
  | .oreContribution _ _ => true
  | .oredRefusalRetry _ _ => true
  | .fenceFull _ _ => true
  | .fenceAcq _ _ => true
  | .fenceRel _ _ => true
  | .tfence _ _ => true
  | .cfence _ _ => true
  | .drainCpl _ => true
  | .drainCpg _ => true
  | .drainSlice _ => true
  | .drainMsg _ => true
  | .drainMx _ => true
  | .drainTrav _ => true
  | .drainWalk _ => true
  | .drainAll _ => true
  | .bra _ _ => true
  | .jpt _ _ => true
  | .call _ _ => true
  | .brx _ a => even a
  | .callx _ d a => even d && even a
  | .ret _ a => even a
  | .barSync _ _ => true
  | .barArrive _ _ => true
  | .barWait _ _ => true
  | .barxExpect _ _ _ => true
  | .barxWait _ _ => true
  | .joinw _ a => even a
  | .joinwRecheck _ _ => true
  | .cpLd _ _ _ => true
  | .cpSt _ _ _ => true
  | .cpLdz _ _ _ => true
  | .cpFill _ _ _ => true
  | .cpCpy _ _ _ => true
  | .cpSlw _ _ _ => true
  | .cpGather _ _ _ => true
  | .cpScatter _ _ _ => true
  | .cpStatus _ _ _ => true
  | .copyCompletion _ _ => true
  | .mxCtx _ _ => true
  | .mxLda _ _ a _ => even a
  | .mxLdb _ _ a => even a
  | .mxMma _ _ _ _ => true
  | .mxMmaR _ _ _ _ => true
  | .mxMmas _ _ _ _ => true
  | .mxMmasR _ _ _ _ => true
  | .mxZero _ _ _ => true
  | .mxStacc _ _ _ _ => true
  | .mxLdacc _ _ _ _ => true
  | .mxScale _ _ _ _ => true
  | .mxSmax _ _ _ _ => true
  | .mxSnorm _ _ _ => true
  | .mxFence _ _ => true
  | .mxWait _ _ => true
  | .mxRel _ _ _ => true
  | .mxeDispatch _ => true
  | .dlBind _ _ a _ => even a
  | .dlRun _ _ a _ => even a
  | .dlFull _ _ a _ => even a
  | .dlInv _ _ _ => true
  | .dlQry _ _ _ _ => true
  | .dlCfg _ _ a _ => even a
  | .dlDropall _ _ _ => true
  | .trLaunch _ _ a _ => even a
  | .trResume _ _ a _ => even a
  | .trCqcfg _ _ a _ => even a
  | .trDtab _ _ a _ => even a
  | .trProg _ _ a _ => even a
  | .pfArm _ _ a _ => even a
  | .pfDisarm _ _ _ => true
  | .msgSend _ _ a _ => blockReg a
  | .msgSendl _ _ _ _ => true
  | .msgMcast _ _ a _ => blockReg a
  | .msgWake _ _ a _ => blockReg a
  | .msgMask _ _ _ => true
  | .msgUnmask _ _ _ => true
  | .msgPend _ _ => true
  | .msgHbind _ _ a _ => even a
  | .messageArrival _ => true
  | .sendReply _ => true
  | .sendRetry _ => true
  | .overflowRecordMove _ _ _ => true
  | .wakeArrival _ => true
  | .handlerWaveStart _ _ => true
  | .linkReplay _ => true
  | .capNew _ _ _ _ => true
  | .capFwd _ _ _ => true
  | .capIns _ _ a _ => even a
  | .capDel _ _ _ => true
  | .capSet _ _ a _ => even a
  | .capRet _ _ _ => true
  | .capPark _ _ _ => true
  | .capLoad _ _ a _ => even a
  | .capsuleArrival _ => true
  | .capsuleSlotEntry _ _ => true
  | .launch _ _ a => even a
  | .forkL _ _ a _ => even a
  | .forkG _ _ a _ => even a
  | .engw _ _ a _ => even a
  | .engr _ d _ => even d
  | .strcfg _ _ _ _ => true
  | .prio _ _ _ => true
  | .lClassResultWrite _ _ _ => true
  | .implicitSwitch _ _ => true
  | .reconvergence _ _ => true
  | .pathRestore _ _ => true
  | .ageingPromotion _ _ => true
  | .yieldRelease _ _ => true
  | .watchdogExpiry _ => true
  | .hostLaunchRead _ _ => true
  | .gangPlacement _ => true
  | .launchCompletion _ => true
  | .groupResourceRelease _ _ => true
  | .taskWaveStart _ _ => true
  | .dequeSteal _ _ => true
  | .hawkerInterval _ => true
  | .dequeShipmentArrival _ => true
  | .preemption _ => true
  | .gangResume _ => true
  | .gangSwitchOut _ _ => true
  | .faultReplay _ _ _ => true
  | .storePerform _ _ => true
  | .mergeWindowClose _ _ => true
  | .prefetchThreadStart _ _ => true
  | .trpThreadStart _ => true
  | .cqBatchForm _ _ => true
  | .cqBatchTimeout _ _ => true
  | .cqPostResume _ _ => true
  | .handoffArrival _ => true
  | .handoffReturn _ => true
  | .ualinkLinkDown => true
  | .peerRequest _ _ => true
  | .peerAtomicRequest _ _ => true
  | .contextTermination _ _ => true
  | .softError _ => true
  | .hostMemoryRequest _ => true
  | .doorbell _ _ => true
  | .versionSelect _ _ _ => true
  | .registerWrite _ _ => true
  | .droopRead _ => true
  | .functionLevelReset => true
  | .verticalBlank _ => true
  | .powerManagerDecision => true
  | .thermalTrip _ => true
  | .deviceReset _ => true
  | .getVersion => true
  | .getCapabilities => true
  | .negotiateAlgorithms _ _ => true
  | .getDigests => true
  | .getCertificate _ _ _ => true
  | .challenge _ _ => true
  | .getMeasurements _ => true
  | .spdmUnsupportedRequest _ => true
  | .tnop => true
  | .tadd _ _ _ => true
  | .tsub _ _ _ => true
  | .tand _ _ _ => true
  | .tor _ _ _ => true
  | .txor _ _ _ => true
  | .tshl _ _ _ => true
  | .tshr _ _ _ => true
  | .tsra _ _ _ => true
  | .tmin _ _ _ => true
  | .tmax _ _ _ => true
  | .tminu _ _ _ => true
  | .tmaxu _ _ _ => true
  | .tmul _ _ _ => true
  | .tfadd _ _ _ => true
  | .tfsub _ _ _ => true
  | .tfmul _ _ _ => true
  | .tfmin _ _ _ => true
  | .tfmax _ _ _ => true
  | .taddi _ _ _ => true
  | .tandi _ _ _ => true
  | .tori _ _ _ => true
  | .tshli _ _ _ => true
  | .tshri _ _ _ => true
  | .tsrai _ _ _ => true
  | .troli _ _ _ => true
  | .tlui _ _ => true
  | .tbr _ _ _ _ => true
  | .trsrReclo _ => true
  | .trsrRechi _ => true
  | .trsrTag _ => true
  | .trsrThread _ => true
  | .nfetch a _ => tEven a
  | .ndec _ => true
  | .ngetKind _ => true
  | .ngetCnt _ => true
  | .ngetChild d _ => tEven d
  | .ngetKeylo _ _ => true
  | .ngetKeyhi _ _ => true
  | .ngetPeer _ => true
  | .ngetRemote d => tEven d
  | .ngetWord _ _ => true
  | .tld _ a _ => tEven a
  | .tqld a _ => tEven a
  | .tpfNc a => tEven a
  | .tpfL1 a => tEven a
  | .tbox _ _ => true
  | .ttri d _ _ => tEven d
  | .tdistL2 _ a _ => tEven a
  | .tdistDot _ a _ => tEven a
  | .tkeyLt _ _ => true
  | .tkeyLe _ _ => true
  | .tpush a => tEven a
  | .tpushc _ => true
  | .tpop d _ => tEven d
  | .tdepth _ => true
  | .emit _ => true
  | .endDone _ => true
  | .endMiss _ => true
  | .susp _ _ _ => true
  | .thand => true
  | .decodeTrap _ => true
  | .traversalWordNotInstruction _ => true
  | .instructionFetchFault _ => true
  | .reservingGang _ => true
  | .driverRequest _ => true
  | .ualinkLinkUp _ _ _ => true
  | .uncorrectableError _ _ => true
  | .droopEvent _ => true

/-- A well-formed instruction. -/
def wellFormed (i : Instr) : Bool := fieldsOk i && pairsOk i

end Sys2Proof
end

