-- ==== Sys2Proof/Decode.lean ====
section
/-! DEFINITION. The decoder and the encoder of wave words (Tables 2-1 to 2-7) and of traversal
words (Tables 2-3 and 16-4). A word that is not an instruction is `bad` with the cause of the first
check that fails (R38, R42). -/

namespace Sys2Proof

/-- What a word is: an instruction, or the cause of the check that it fails. -/
inductive Decoded where
  | ok (i : Instr)
  | bad (cause : Cause)
  deriving DecidableEq, Repr

/-! Fields of a wave word (Table 2-1). -/
def fS (w : Word) : Bool := w.extractLsb' 31 1 == 1
def fMaj (w : Word) : BitVec 6 := w.extractLsb' 25 6
def fP (w : Word) : BitVec 3 := w.extractLsb' 22 3
def fC (w : Word) : Ctl := ⟨fS w, fP w⟩
def fD (w : Word) : Reg := w.extractLsb' 16 6
def fA (w : Word) : Reg := w.extractLsb' 10 6
def fB (w : Word) : Reg := w.extractLsb' 4 6
/-- The 12-bit index or code A:B (R36). -/
def fAB (w : Word) : BitVec 12 := w.extractLsb' 4 12
def fN (w : Word) : BitVec 4 := w.extractLsb' 0 4
def fImm10 (w : Word) : BitVec 10 := w.extractLsb' 0 10
def fImm16 (w : Word) : BitVec 16 := w.extractLsb' 0 16
def fSz (w : Word) : BitVec 3 := w.extractLsb' 7 3
def fOff7 (w : Word) : BitVec 7 := w.extractLsb' 0 7
def fPd (w : Word) : BitVec 3 := w.extractLsb' 19 3
def fCond (w : Word) : BitVec 4 := w.extractLsb' 15 4
def fCA (w : Word) : Reg := w.extractLsb' 9 6
def fCB (w : Word) : Reg := w.extractLsb' 3 6
def fCmb (w : Word) : BitVec 3 := w.extractLsb' 0 3
def fOff22 (w : Word) : BitVec 22 := w.extractLsb' 0 22
def fFn7 (w : Word) : BitVec 7 := w.extractLsb' 18 7
def fXD (w : Word) : Reg := w.extractLsb' 12 6
def fXA (w : Word) : Reg := w.extractLsb' 6 6
def fXB (w : Word) : Reg := w.extractLsb' 0 6
/-! Fields of a traversal word (Table 2-3). -/
def tOp (w : Word) : BitVec 6 := w.extractLsb' 26 6
def tD (w : Word) : TReg := w.extractLsb' 22 4
def tA (w : Word) : TReg := w.extractLsb' 18 4
def tB (w : Word) : TReg := w.extractLsb' 14 4
def tImm (w : Word) : BitVec 14 := w.extractLsb' 0 14
def tImm22 (w : Word) : BitVec 22 := w.extractLsb' 0 22
def tFn (w : Word) : BitVec 4 := w.extractLsb' 0 4

/-! Codes of the named fields (Tables 2-4, 10-1, 16-4; R34, R75, R80, R103, R124). -/
def ICond.toBits : ICond → BitVec 6
  | .eq => 0 | .ne => 1 | .lt => 2 | .le => 3 | .gt => 4 | .ge => 5
  | .ltu => 6 | .leu => 7 | .gtu => 8 | .geu => 9
def ICond.ofBits (b : BitVec 6) : Option ICond :=
  match b.toNat with
  | 0 => some .eq | 1 => some .ne | 2 => some .lt | 3 => some .le | 4 => some .gt | 5 => some .ge
  | 6 => some .ltu | 7 => some .leu | 8 => some .gtu | 9 => some .geu | _ => none
def WCond.toBits : WCond → BitVec 6
  | .eq => 0 | .ne => 1 | .lt => 2 | .ge => 3 | .ltu => 4 | .geu => 5
def WCond.ofBits (b : BitVec 6) : Option WCond :=
  match b.toNat with
  | 0 => some .eq | 1 => some .ne | 2 => some .lt | 3 => some .ge | 4 => some .ltu | 5 => some .geu
  | _ => none
def FCond.toBits : FCond → BitVec 6
  | .eq => 0 | .ne => 1 | .lt => 2 | .le => 3 | .gt => 4 | .ge => 5 | .un => 6 | .or => 7
def FCond.ofBits (b : BitVec 6) : Option FCond :=
  match b.toNat with
  | 0 => some .eq | 1 => some .ne | 2 => some .lt | 3 => some .le | 4 => some .gt | 5 => some .ge
  | 6 => some .un | 7 => some .or | _ => none
def Cmb.toBits : Cmb → BitVec 6
  | .set => 0 | .and => 1 | .or => 2 | .xor => 3
def Cmb.ofBits (b : BitVec 6) : Option Cmb :=
  match b.toNat with
  | 0 => some .set | 1 => some .and | 2 => some .or | 3 => some .xor | _ => none
def Size.toBits : Size → BitVec 6
  | .b => 0 | .sb => 1 | .h => 2 | .sh => 3 | .w => 4 | .d => 5 | .q => 6
def Size.ofBits (b : BitVec 6) : Option Size :=
  match b.toNat with
  | 0 => some .b | 1 => some .sb | 2 => some .h | 3 => some .sh | 4 => some .w | 5 => some .d
  | 6 => some .q | _ => none
def Scope.toBits : Scope → BitVec 6
  | .wave => 0 | .group => 1 | .cluster => 2 | .device => 3 | .system => 4
def Scope.ofBits (b : BitVec 6) : Option Scope :=
  match b.toNat with
  | 0 => some .wave | 1 => some .group | 2 => some .cluster | 3 => some .device
  | 4 => some .system | _ => none
def RedOp.toBits : RedOp → BitVec 6
  | .add => 0 | .min => 1 | .max => 2
def RedOp.ofBits (b : BitVec 6) : Option RedOp :=
  match b.toNat with
  | 0 => some .add | 1 => some .min | 2 => some .max | _ => none
def TCond.toBits : TCond → BitVec 6
  | .eq => 0 | .ne => 1 | .lt => 2 | .ge => 3 | .ltu => 4 | .geu => 5 | .flt => 6 | .fge => 7
  | .al => 8
def TCond.ofBits (b : BitVec 6) : Option TCond :=
  match b.toNat with
  | 0 => some .eq | 1 => some .ne | 2 => some .lt | 3 => some .ge | 4 => some .ltu
  | 5 => some .geu | 6 => some .flt | 7 => some .fge | 8 => some .al | _ => none
/-- The size code of LDACQ and STREL (Table 10-4a). -/
def boolOf (b : BitVec 6) : Option Bool :=
  match b.toNat with
  | 0 => some false | 1 => some true | _ => none

/-! The forms put together (Tables 2-1 and 2-3). -/
def packR (c : Ctl) (maj : BitVec 6) (d a b : Reg) (fn : BitVec 4) : Word :=
  BitVec.ofBool c.s ++ maj ++ c.p ++ d ++ a ++ b ++ fn
def packS (c : Ctl) (maj : BitVec 6) (d : Reg) (ab : BitVec 12) (fn : BitVec 4) : Word :=
  BitVec.ofBool c.s ++ maj ++ c.p ++ d ++ ab ++ fn
def packI (c : Ctl) (maj : BitVec 6) (d a : Reg) (imm : BitVec 10) : Word :=
  BitVec.ofBool c.s ++ maj ++ c.p ++ d ++ a ++ imm
def packU (c : Ctl) (maj : BitVec 6) (d : Reg) (imm : BitVec 16) : Word :=
  BitVec.ofBool c.s ++ maj ++ c.p ++ d ++ imm
def packM (c : Ctl) (maj : BitVec 6) (d a : Reg) (sz : BitVec 3) (off : BitVec 7) : Word :=
  BitVec.ofBool c.s ++ maj ++ c.p ++ d ++ a ++ sz ++ off
def packC (c : Ctl) (maj : BitVec 6) (pd : BitVec 3) (cond : BitVec 4) (a b : Reg)
    (cmb : BitVec 3) : Word :=
  BitVec.ofBool c.s ++ maj ++ c.p ++ pd ++ cond ++ a ++ b ++ cmb
def packJ (c : Ctl) (maj : BitVec 6) (off : BitVec 22) : Word :=
  BitVec.ofBool c.s ++ maj ++ c.p ++ off
def packX (s : Bool) (maj : BitVec 6) (fn : BitVec 7) (d a b : Reg) : Word :=
  BitVec.ofBool s ++ maj ++ fn ++ d ++ a ++ b
def packT (op : BitVec 6) (d a b : TReg) (imm : BitVec 14) : Word :=
  op ++ d ++ a ++ b ++ imm
def packTL (op : BitVec 6) (d : TReg) (imm : BitVec 22) : Word :=
  op ++ d ++ imm

/-- The last two checks of Table 2-6: unused and reserved fields, then pairs. `unused` says that
every unused field is zero; the instruction is absent when a named field holds a reserved code. -/
def row (unused : Bool) (i : Option Instr) : Decoded :=
  match i with
  | none => .bad 0x003
  | some i =>
    if unused && fieldsOk i then (if pairsOk i then .ok i else .bad 0x005) else .bad 0x003

/-- Check 3 of Table 2-6 (R41). -/
def priv (svc : Bool) (x : Decoded) : Decoded := if svc then x else .bad 0x004

/-- Major 0x00. -/
def decMajor00 (svc : Bool) (w : Word) : Decoded :=
  match (fN w).toNat with
  | 0 =>
    row ((fD w) == 0 && (fA w) == 0 && (fB w) == 0) (some (.nop (fC w)))
  | 1 =>
    row ((fD w) == 0 && (fA w) == 0 && (fB w) == 0) (some (.exit (fC w)))
  | 2 =>
    row ((fD w) == 0 && (fA w) == 0 && (fB w) == 0) (some (.yield (fC w)))
  | 3 =>
    row ((fD w) == 0) (some (.trap (fC w) (fAB w)))
  | 4 =>
    row (true) (some (.rdsr (fC w) (fD w) (fAB w)))
  | 5 =>
    if !svc && fAB w == 13 then .bad 0x004 else row (true) (some (.wrsr (fC w) (fD w) (fAB w)))
  | 6 =>
    priv svc (row (true) (some (.eret (fC w) (fD w) (fA w) (fB w))))
  | 7 =>
    priv svc (row ((fD w) == 0 && (fB w) == 0) (some (.halt (fC w) (fA w))))
  | 8 =>
    priv svc (row ((fD w) == 0) (some (.tlbw (fC w) (fA w) (fB w))))
  | 9 =>
    priv svc (row ((fD w) == 0) (some (.tlbi (fC w) (fA w) (fB w))))
  | 10 =>
    priv svc (row ((fD w) == 0 && (fA w) == 0 && (fB w) == 0) (some (.tlbsync (fC w))))
  | 11 =>
    match (fD w).toNat with
    | 0 =>
      row ((fB w) == 0) (some (.cacheL1inv (fC w) (fA w)))
    | 1 =>
      row ((fA w) == 0 && (fB w) == 0) (some (.cacheL1all (fC w)))
    | 2 =>
      row ((fB w) == 0) (some (.cacheWb (fC w) (fA w)))
    | 3 =>
      row ((fB w) == 0) (some (.cacheWbinv (fC w) (fA w)))
    | 4 =>
      row ((fB w) == 0) (some (.cacheLock (fC w) (fA w)))
    | 5 =>
      row ((fB w) == 0) (some (.cacheUnlock (fC w) (fA w)))
    | _ => .bad 0x003
  | 12 =>
    row (true) (some (.svcall (fC w) (fD w) (fA w) (fB w)))
  | 13 =>
    row ((fD w) == 0) (some (.bkpt (fC w) (fAB w)))
  | _ => .bad 0x002

/-- Major 0x01. -/
def decMajor01 (w : Word) : Decoded :=
  match (fN w).toNat with
  | 0 =>
    row (true) (some (.addR (fC w) (fD w) (fA w) (fB w)))
  | 1 =>
    row (true) (some (.subR (fC w) (fD w) (fA w) (fB w)))
  | 2 =>
    row (true) (some (.andR (fC w) (fD w) (fA w) (fB w)))
  | 3 =>
    row (true) (some (.orR (fC w) (fD w) (fA w) (fB w)))
  | 4 =>
    row (true) (some (.xorR (fC w) (fD w) (fA w) (fB w)))
  | 5 =>
    row (true) (some (.andn (fC w) (fD w) (fA w) (fB w)))
  | 6 =>
    row (true) (some (.shl (fC w) (fD w) (fA w) (fB w)))
  | 7 =>
    row (true) (some (.shr (fC w) (fD w) (fA w) (fB w)))
  | 8 =>
    row (true) (some (.sra (fC w) (fD w) (fA w) (fB w)))
  | 9 =>
    row (true) (some (.minR (fC w) (fD w) (fA w) (fB w)))
  | 10 =>
    row (true) (some (.maxR (fC w) (fD w) (fA w) (fB w)))
  | 11 =>
    row (true) (some (.minu (fC w) (fD w) (fA w) (fB w)))
  | 12 =>
    row (true) (some (.maxu (fC w) (fD w) (fA w) (fB w)))
  | 13 =>
    row (true) (some (.mulR (fC w) (fD w) (fA w) (fB w)))
  | 14 =>
    row (true) (some (.mulh (fC w) (fD w) (fA w) (fB w)))
  | 15 =>
    row (true) (some (.mulhu (fC w) (fD w) (fA w) (fB w)))
  | _ => .bad 0x002

/-- Major 0x02. -/
def decMajor02 (w : Word) : Decoded :=
  match (fN w).toNat with
  | 0 =>
    row ((fB w) == 0) (some (.clz (fC w) (fD w) (fA w)))
  | 1 =>
    row ((fB w) == 0) (some (.popc (fC w) (fD w) (fA w)))
  | 2 =>
    row ((fB w) == 0) (some (.brev (fC w) (fD w) (fA w)))
  | 3 =>
    row (true) (some (.bfx (fC w) (fD w) (fA w) (fB w)))
  | 4 =>
    row (true) (some (.bfxu (fC w) (fD w) (fA w) (fB w)))
  | 5 =>
    row (true) (some (.bfi (fC w) (fD w) (fA w) (fB w)))
  | 6 =>
    row (true) (some (.absd (fC w) (fD w) (fA w) (fB w)))
  | 7 =>
    row (true) (some (.addc (fC w) (fD w) (fA w) (fB w)))
  | 8 =>
    row (true) (some (.subb (fC w) (fD w) (fA w) (fB w)))
  | 9 =>
    row (true) (some (.lea (fC w) (fD w) (fA w) (fB w)))
  | 10 =>
    row (true) (some (.lea2 (fC w) (fD w) (fA w) (fB w)))
  | 11 =>
    row (true) (some (.lea4 (fC w) (fD w) (fA w) (fB w)))
  | 12 =>
    row (true) (some (.lea8 (fC w) (fD w) (fA w) (fB w)))
  | _ => .bad 0x002

/-- Major 0x03. -/
def decMajor03 (w : Word) : Decoded :=
  match (fN w).toNat with
  | 0 =>
    row (true) (some (.add64 (fC w) (fD w) (fA w) (fB w)))
  | 1 =>
    row (true) (some (.sub64 (fC w) (fD w) (fA w) (fB w)))
  | 2 =>
    row (true) (some (.shl64 (fC w) (fD w) (fA w) (fB w)))
  | 3 =>
    row (true) (some (.shr64 (fC w) (fD w) (fA w) (fB w)))
  | 4 =>
    row (true) (some (.sra64 (fC w) (fD w) (fA w) (fB w)))
  | 5 =>
    row (true) (some (.mul32w (fC w) (fD w) (fA w) (fB w)))
  | 6 =>
    row (true) (some (.minu64 (fC w) (fD w) (fA w) (fB w)))
  | 7 =>
    row (true) (some (.maxu64 (fC w) (fD w) (fA w) (fB w)))
  | _ => .bad 0x002

/-- Major 0x04. -/
def decMajor04 (w : Word) : Decoded :=
  row (true) (some (.addi (fC w) (fD w) (fA w) (fImm10 w)))

/-- Major 0x05. -/
def decMajor05 (w : Word) : Decoded :=
  row (true) (some (.andi (fC w) (fD w) (fA w) (fImm10 w)))

/-- Major 0x06. -/
def decMajor06 (w : Word) : Decoded :=
  row (true) (some (.ori (fC w) (fD w) (fA w) (fImm10 w)))

/-- Major 0x07. -/
def decMajor07 (w : Word) : Decoded :=
  row (true) (some (.xori (fC w) (fD w) (fA w) (fImm10 w)))

/-- Major 0x08. -/
def decMajor08 (w : Word) : Decoded :=
  match ((fImm10 w).extractLsb' 5 2).toNat with
  | 0 =>
    row (((fImm10 w).extractLsb' 7 3) == 0) (some (.shli (fC w) (fD w) (fA w) ((fImm10 w).extractLsb' 0 5)))
  | 1 =>
    row (((fImm10 w).extractLsb' 7 3) == 0) (some (.shri (fC w) (fD w) (fA w) ((fImm10 w).extractLsb' 0 5)))
  | 2 =>
    row (((fImm10 w).extractLsb' 7 3) == 0) (some (.srai (fC w) (fD w) (fA w) ((fImm10 w).extractLsb' 0 5)))
  | _ =>
    row (((fImm10 w).extractLsb' 7 3) == 0) (some (.roli (fC w) (fD w) (fA w) ((fImm10 w).extractLsb' 0 5)))

/-- Major 0x09. -/
def decMajor09 (w : Word) : Decoded :=
  row (true) (some (.muli (fC w) (fD w) (fA w) (fImm10 w)))

/-- Major 0x0A. -/
def decMajor0A (w : Word) : Decoded :=
  row (true) (some (.movi (fC w) (fD w) (fImm16 w)))

/-- Major 0x0B. -/
def decMajor0B (w : Word) : Decoded :=
  row (true) (some (.movhi (fC w) (fD w) (fImm16 w)))

/-- Major 0x0C. -/
def decMajor0C (w : Word) : Decoded :=
  row (true) ((ICond.ofBits ((fCond w).setWidth 6)).bind fun cond => (Cmb.ofBits ((fCmb w).setWidth 6)).bind fun cmb => some (.icmp (fC w) (fPd w) cond (fCA w) (fCB w) cmb))

/-- Major 0x0D. -/
def decMajor0D (w : Word) : Decoded :=
  row (true) ((ICond.ofBits ((fCond w).setWidth 6)).bind fun cond => (Cmb.ofBits ((fCmb w).setWidth 6)).bind fun cmb => some (.icmpi (fC w) (fPd w) cond (fCA w) (fCB w) cmb))

/-- Major 0x0E. -/
def decMajor0E (w : Word) : Decoded :=
  match (fN w).toNat with
  | 0 =>
    row (((fD w).extractLsb' 3 3) == 0 && ((fA w).extractLsb' 3 3) == 0 && ((fB w).extractLsb' 3 3) == 0) (some (.pand (fC w) ((fD w).extractLsb' 0 3) ((fA w).extractLsb' 0 3) ((fB w).extractLsb' 0 3)))
  | 1 =>
    row (((fD w).extractLsb' 3 3) == 0 && ((fA w).extractLsb' 3 3) == 0 && ((fB w).extractLsb' 3 3) == 0) (some (.por (fC w) ((fD w).extractLsb' 0 3) ((fA w).extractLsb' 0 3) ((fB w).extractLsb' 0 3)))
  | 2 =>
    row (((fD w).extractLsb' 3 3) == 0 && ((fA w).extractLsb' 3 3) == 0 && ((fB w).extractLsb' 3 3) == 0) (some (.pxor (fC w) ((fD w).extractLsb' 0 3) ((fA w).extractLsb' 0 3) ((fB w).extractLsb' 0 3)))
  | 3 =>
    row (((fD w).extractLsb' 3 3) == 0 && ((fA w).extractLsb' 3 3) == 0 && (fB w) == 0) (some (.pnot (fC w) ((fD w).extractLsb' 0 3) ((fA w).extractLsb' 0 3)))
  | 4 =>
    row (((fA w).extractLsb' 3 3) == 0 && (fB w) == 0) (some (.p2g (fC w) (fD w) ((fA w).extractLsb' 0 3)))
  | 5 =>
    row (((fD w).extractLsb' 3 3) == 0 && (fB w) == 0) (some (.g2p (fC w) ((fD w).extractLsb' 0 3) (fA w)))
  | _ => .bad 0x002

/-- Major 0x0F. -/
def decMajor0F (w : Word) : Decoded :=
  match (fN w).toNat with
  | 0 =>
    row (true) (some (.sel (fS w) (fP w) (fD w) (fA w) (fB w)))
  | _ => .bad 0x002

/-- Major 0x10. -/
def decMajor10 (w : Word) : Decoded :=
  match (fN w).toNat with
  | 0 =>
    row (true) (some (.fadd (fC w) (fD w) (fA w) (fB w)))
  | 1 =>
    row (true) (some (.fsub (fC w) (fD w) (fA w) (fB w)))
  | 2 =>
    row (true) (some (.fmul (fC w) (fD w) (fA w) (fB w)))
  | 3 =>
    row (true) (some (.fmin (fC w) (fD w) (fA w) (fB w)))
  | 4 =>
    row (true) (some (.fmax (fC w) (fD w) (fA w) (fB w)))
  | 5 =>
    row ((fB w) == 0) (some (.fabs (fC w) (fD w) (fA w)))
  | 6 =>
    row ((fB w) == 0) (some (.fneg (fC w) (fD w) (fA w)))
  | 7 =>
    row (true) (some (.fcopysign (fC w) (fD w) (fA w) (fB w)))
  | _ => .bad 0x002

/-- Major 0x11. -/
def decMajor11 (w : Word) : Decoded :=
  match (fN w).toNat with
  | 0 =>
    row (true) (some (.ffma (fC w) (fD w) (fA w) (fB w)))
  | 1 =>
    row (true) (some (.ffms (fC w) (fD w) (fA w) (fB w)))
  | 2 =>
    row (true) (some (.fnma (fC w) (fD w) (fA w) (fB w)))
  | 3 =>
    row (true) (some (.fnms (fC w) (fD w) (fA w) (fB w)))
  | _ => .bad 0x002

/-- Major 0x12. -/
def decMajor12 (w : Word) : Decoded :=
  row (true) ((FCond.ofBits ((fCond w).setWidth 6)).bind fun cond => (Cmb.ofBits ((fCmb w).setWidth 6)).bind fun cmb => some (.fcmp (fC w) (fPd w) cond (fCA w) (fCB w) cmb))

/-- Major 0x13. -/
def decMajor13 (w : Word) : Decoded :=
  match (fN w).toNat with
  | 0 =>
    row (true) (some (.fcvtFf (fC w) (fD w) (fA w) ((fB w).extractLsb' 3 3) ((fB w).extractLsb' 0 3)))
  | 1 =>
    row (true) (some (.fcvtFi (fC w) (fD w) (fA w) ((fB w).extractLsb' 3 3) ((fB w).extractLsb' 0 3)))
  | 2 =>
    row (true) (some (.fcvtIf (fC w) (fD w) (fA w) ((fB w).extractLsb' 3 3) ((fB w).extractLsb' 0 3)))
  | 3 =>
    row (((fB w).extractLsb' 0 3) == 0) (some (.fcvtFx (fC w) (fD w) (fA w) ((fB w).extractLsb' 3 3)))
  | 4 =>
    row (((fB w).extractLsb' 0 3) == 0) (some (.fcvtXf (fC w) (fD w) (fA w) ((fB w).extractLsb' 3 3)))
  | 5 =>
    row (true) (some (.fcvtRi (fC w) (fD w) (fA w) ((fB w).extractLsb' 3 3) ((fB w).extractLsb' 0 3)))
  | _ => .bad 0x002

/-- Major 0x14. -/
def decMajor14 (w : Word) : Decoded :=
  match (fN w).toNat with
  | 0 =>
    row (true) (some (.hadd2 (fC w) (fD w) (fA w) (fB w)))
  | 1 =>
    row (true) (some (.hsub2 (fC w) (fD w) (fA w) (fB w)))
  | 2 =>
    row (true) (some (.hmul2 (fC w) (fD w) (fA w) (fB w)))
  | 3 =>
    row (true) (some (.hfma2 (fC w) (fD w) (fA w) (fB w)))
  | 4 =>
    row (true) (some (.hmin2 (fC w) (fD w) (fA w) (fB w)))
  | 5 =>
    row (true) (some (.hmax2 (fC w) (fD w) (fA w) (fB w)))
  | 8 =>
    row (true) (some (.hadd2Bf (fC w) (fD w) (fA w) (fB w)))
  | 9 =>
    row (true) (some (.hsub2Bf (fC w) (fD w) (fA w) (fB w)))
  | 10 =>
    row (true) (some (.hmul2Bf (fC w) (fD w) (fA w) (fB w)))
  | 11 =>
    row (true) (some (.hfma2Bf (fC w) (fD w) (fA w) (fB w)))
  | 12 =>
    row (true) (some (.hmin2Bf (fC w) (fD w) (fA w) (fB w)))
  | 13 =>
    row (true) (some (.hmax2Bf (fC w) (fD w) (fA w) (fB w)))
  | _ => .bad 0x002

/-- Major 0x15. -/
def decMajor15 (w : Word) : Decoded :=
  match (fN w).toNat with
  | 0 =>
    row (true) (some (.dadd (fC w) (fD w) (fA w) (fB w)))
  | 1 =>
    row (true) (some (.dsub (fC w) (fD w) (fA w) (fB w)))
  | 2 =>
    row (true) (some (.dmul (fC w) (fD w) (fA w) (fB w)))
  | 3 =>
    row (true) (some (.dfma (fC w) (fD w) (fA w) (fB w)))
  | 4 =>
    row (true) (some (.dmin (fC w) (fD w) (fA w) (fB w)))
  | 5 =>
    row (true) (some (.dmax (fC w) (fD w) (fA w) (fB w)))
  | 6 =>
    row (true) ((FCond.ofBits (((fD w).extractLsb' 3 3).setWidth 6)).bind fun cond => some (.dcmp (fC w) ((fD w).extractLsb' 0 3) cond (fA w) (fB w)))
  | _ => .bad 0x002

/-- Major 0x16. -/
def decMajor16 (w : Word) : Decoded :=
  match (fN w).toNat with
  | 0 =>
    row ((fB w) == 0) (some (.rcp (fC w) (fD w) (fA w)))
  | 1 =>
    row ((fB w) == 0) (some (.rsq (fC w) (fD w) (fA w)))
  | 2 =>
    row ((fB w) == 0) (some (.sqrt (fC w) (fD w) (fA w)))
  | 3 =>
    row ((fB w) == 0) (some (.ex2 (fC w) (fD w) (fA w)))
  | 4 =>
    row ((fB w) == 0) (some (.lg2 (fC w) (fD w) (fA w)))
  | 5 =>
    row ((fB w) == 0) (some (.sin (fC w) (fD w) (fA w)))
  | 6 =>
    row ((fB w) == 0) (some (.cos (fC w) (fD w) (fA w)))
  | 7 =>
    row ((fB w) == 0) (some (.tanh (fC w) (fD w) (fA w)))
  | _ => .bad 0x002

/-- Major 0x17. -/
def decMajor17 (w : Word) : Decoded :=
  match (fN w).toNat with
  | 0 =>
    row (true) (some (.idot4 (fC w) (fD w) (fA w) (fB w)))
  | 1 =>
    row (true) (some (.idot4u (fC w) (fD w) (fA w) (fB w)))
  | 2 =>
    row (true) (some (.hdot2 (fC w) (fD w) (fA w) (fB w)))
  | 3 =>
    row (true) (some (.bdot2 (fC w) (fD w) (fA w) (fB w)))
  | 4 =>
    row (true) (some (.idot8 (fC w) (fD w) (fA w) (fB w)))
  | 5 =>
    row (true) (some (.idot8u (fC w) (fD w) (fA w) (fB w)))
  | _ => .bad 0x002

/-- Major 0x18. -/
def decMajor18 (w : Word) : Decoded :=
  match (fN w).toNat with
  | 0 =>
    row ((fB w) == 0) (some (.qswpx (fC w) (fD w) (fA w)))
  | 1 =>
    row ((fB w) == 0) (some (.qswpy (fC w) (fD w) (fA w)))
  | 2 =>
    row ((fB w) == 0) (some (.qswpd (fC w) (fD w) (fA w)))
  | 3 =>
    row (((fB w).extractLsb' 2 4) == 0) (some (.qbcast (fC w) (fD w) (fA w) ((fB w).extractLsb' 0 2)))
  | 4 =>
    row (true) (some (.shfli (fC w) (fD w) (fA w) (fB w)))
  | 5 =>
    row (((fB w).extractLsb' 5 1) == 0) (some (.shflu (fC w) (fD w) (fA w) ((fB w).extractLsb' 0 5)))
  | 6 =>
    row (((fB w).extractLsb' 5 1) == 0) (some (.shfld (fC w) (fD w) (fA w) ((fB w).extractLsb' 0 5)))
  | 7 =>
    row (((fB w).extractLsb' 5 1) == 0) (some (.shflx (fC w) (fD w) (fA w) ((fB w).extractLsb' 0 5)))
  | _ => .bad 0x002

/-- Major 0x19. -/
def decMajor19 (w : Word) : Decoded :=
  match (fN w).toNat with
  | 0 =>
    row (((fD w).extractLsb' 3 3) == 0 && ((fA w).extractLsb' 3 3) == 0 && (fB w) == 0) (some (.voteany (fC w) ((fD w).extractLsb' 0 3) ((fA w).extractLsb' 0 3)))
  | 1 =>
    row (((fD w).extractLsb' 3 3) == 0 && ((fA w).extractLsb' 3 3) == 0 && (fB w) == 0) (some (.voteall (fC w) ((fD w).extractLsb' 0 3) ((fA w).extractLsb' 0 3)))
  | 2 =>
    row (((fA w).extractLsb' 3 3) == 0 && (fB w) == 0) (some (.ballot (fC w) (fD w) ((fA w).extractLsb' 0 3)))
  | 3 =>
    row ((fB w) == 0) (some (.matchI (fC w) (fD w) (fA w)))
  | 4 =>
    row ((fB w) == 0) (some (.reduxadd (fC w) (fD w) (fA w)))
  | 5 =>
    row (((fB w).extractLsb' 1 5) == 0) (some (.reduxmin (fC w) (fD w) (fA w) (((fB w).extractLsb' 0 1) == 1)))
  | 6 =>
    row (((fB w).extractLsb' 1 5) == 0) (some (.reduxmax (fC w) (fD w) (fA w) (((fB w).extractLsb' 0 1) == 1)))
  | 7 =>
    row (((fB w).extractLsb' 2 4) == 0) ((RedOp.ofBits (((fB w).extractLsb' 0 2).setWidth 6)).bind fun op => some (.fredux (fC w) (fD w) (fA w) op))
  | 8 =>
    row (((fA w).extractLsb' 3 3) == 0 && (fB w) == 0) (some (.popm (fC w) (fD w) ((fA w).extractLsb' 0 3)))
  | _ => .bad 0x002

/-- Major 0x1A. -/
def decMajor1A (w : Word) : Decoded :=
  match (fN w).toNat with
  | 0 =>
    row (((fA w).extractLsb' 2 4) == 0 && (fB w) == 0) (some (.scnt (fC w) (fD w) ((fA w).extractLsb' 0 2)))
  | 1 =>
    row (((fA w).extractLsb' 2 4) == 0 && (fB w) == 0) (some (.sendS (fC w) (fD w) ((fA w).extractLsb' 0 2)))
  | 2 =>
    row ((fD w) == 0 && ((fA w).extractLsb' 2 4) == 0 && (fB w) == 0) (some (.srew (fC w) ((fA w).extractLsb' 0 2)))
  | 3 =>
    row ((fD w) == 0 && ((fA w).extractLsb' 2 4) == 0) (some (.sskip (fC w) ((fA w).extractLsb' 0 2) (fB w)))
  | _ => .bad 0x002

/-- Major 0x1C. -/
def decMajor1C (w : Word) : Decoded :=
  match (fN w).toNat with
  | 0 =>
    row (true) (some (.wadd (fC w) (fD w) (fA w) (fB w)))
  | 1 =>
    row (true) (some (.wsub (fC w) (fD w) (fA w) (fB w)))
  | 2 =>
    row (true) (some (.wand (fC w) (fD w) (fA w) (fB w)))
  | 3 =>
    row (true) (some (.wor (fC w) (fD w) (fA w) (fB w)))
  | 4 =>
    row (true) (some (.wxor (fC w) (fD w) (fA w) (fB w)))
  | 5 =>
    row (true) (some (.wandn (fC w) (fD w) (fA w) (fB w)))
  | 6 =>
    row (true) (some (.wshl (fC w) (fD w) (fA w) (fB w)))
  | 7 =>
    row (true) (some (.wshr (fC w) (fD w) (fA w) (fB w)))
  | 8 =>
    row (true) (some (.wsra (fC w) (fD w) (fA w) (fB w)))
  | 9 =>
    row (true) (some (.wmin (fC w) (fD w) (fA w) (fB w)))
  | 10 =>
    row (true) (some (.wmax (fC w) (fD w) (fA w) (fB w)))
  | 11 =>
    row (true) (some (.wminu (fC w) (fD w) (fA w) (fB w)))
  | 12 =>
    row (true) (some (.wmaxu (fC w) (fD w) (fA w) (fB w)))
  | 13 =>
    row (true) (some (.wmul (fC w) (fD w) (fA w) (fB w)))
  | 14 =>
    row (true) (some (.wmulh (fC w) (fD w) (fA w) (fB w)))
  | 15 =>
    row (true) (some (.wmulhu (fC w) (fD w) (fA w) (fB w)))
  | _ => .bad 0x002

/-- Major 0x1D. -/
def decMajor1D (w : Word) : Decoded :=
  row (true) (some (.waddi (fC w) (fD w) (fA w) (fImm10 w)))

/-- Major 0x1E. -/
def decMajor1E (w : Word) : Decoded :=
  match (fN w).toNat with
  | 0 =>
    row ((fB w) == 0) (some (.g2w (fC w) (fD w) (fA w)))
  | 1 =>
    row ((fB w) == 0) (some (.w2g (fC w) (fD w) (fA w)))
  | 2 =>
    row (true) ((WCond.ofBits (((fD w).extractLsb' 3 3).setWidth 6)).bind fun cond => some (.wcmp (fC w) ((fD w).extractLsb' 0 3) cond (fA w) (fB w)))
  | _ => .bad 0x002

/-- Major 0x1F. -/
def decMajor1F (w : Word) : Decoded :=
  row (true) (some (.wmovi (fC w) (fD w) (fImm16 w)))

/-- Major 0x20. -/
def decMajor20 (w : Word) : Decoded :=
  row (true) ((Size.ofBits ((fSz w).setWidth 6)).bind fun sz => some (.ldg (fC w) (fD w) (fA w) sz (fOff7 w)))

/-- Major 0x21. -/
def decMajor21 (w : Word) : Decoded :=
  row (true) ((Size.ofBits ((fSz w).setWidth 6)).bind fun sz => some (.stg (fC w) (fD w) (fA w) sz (fOff7 w)))

/-- Major 0x22. -/
def decMajor22 (w : Word) : Decoded :=
  row (true) ((Size.ofBits ((fSz w).setWidth 6)).bind fun sz => some (.ldl (fC w) (fD w) (fA w) sz (fOff7 w)))

/-- Major 0x23. -/
def decMajor23 (w : Word) : Decoded :=
  row (true) ((Size.ofBits ((fSz w).setWidth 6)).bind fun sz => some (.stl (fC w) (fD w) (fA w) sz (fOff7 w)))

/-- Major 0x26. -/
def decMajor26 (w : Word) : Decoded :=
  row (true) ((Size.ofBits ((fSz w).setWidth 6)).bind fun sz => some (.ldwg (fC w) (fD w) (fA w) sz (fOff7 w)))

/-- Major 0x27. -/
def decMajor27 (w : Word) : Decoded :=
  row (true) ((Size.ofBits ((fSz w).setWidth 6)).bind fun sz => some (.ldwl (fC w) (fD w) (fA w) sz (fOff7 w)))

/-- Major 0x24. -/
def decMajor24 (w : Word) : Decoded :=
  if 5 ≤ (fN w).toNat then .bad 0x002 else
  row (true) ((boolOf (fB w)).bind fun dw => (Scope.ofBits ((fN w).setWidth 6)).bind fun sc => some (.ldacq (fC w) (fD w) (fA w) dw sc))

/-- Major 0x25. -/
def decMajor25 (w : Word) : Decoded :=
  if 5 ≤ (fN w).toNat then .bad 0x002 else
  row (true) ((boolOf (fD w)).bind fun dw => (Scope.ofBits ((fN w).setWidth 6)).bind fun sc => some (.strel (fC w) (fA w) (fB w) dw sc))

/-- Major 0x28. -/
def decMajor28 (w : Word) : Decoded :=
  match (fN w).toNat with
  | 0 =>
    row (true) (some (.atomAddSi32 (fC w) (fD w) (fA w) (fB w)))
  | 1 =>
    row (true) (some (.atomAddF32 (fC w) (fD w) (fA w) (fB w)))
  | 2 =>
    row (true) (some (.atomAddBf16x2 (fC w) (fD w) (fA w) (fB w)))
  | 3 =>
    row (true) (some (.atomAddF16x2 (fC w) (fD w) (fA w) (fB w)))
  | 4 =>
    row (true) (some (.atomMinSi32 (fC w) (fD w) (fA w) (fB w)))
  | 5 =>
    row (true) (some (.atomMaxSi32 (fC w) (fD w) (fA w) (fB w)))
  | 6 =>
    row (true) (some (.atomMinUi32 (fC w) (fD w) (fA w) (fB w)))
  | 7 =>
    row (true) (some (.atomMaxUi32 (fC w) (fD w) (fA w) (fB w)))
  | 8 =>
    row (true) (some (.atomMinF32 (fC w) (fD w) (fA w) (fB w)))
  | 9 =>
    row (true) (some (.atomMaxF32 (fC w) (fD w) (fA w) (fB w)))
  | 10 =>
    row (true) (some (.atomAnd (fC w) (fD w) (fA w) (fB w)))
  | 11 =>
    row (true) (some (.atomOr (fC w) (fD w) (fA w) (fB w)))
  | 12 =>
    row (true) (some (.atomXor (fC w) (fD w) (fA w) (fB w)))
  | 13 =>
    row (true) (some (.atomExch (fC w) (fD w) (fA w) (fB w)))
  | 14 =>
    row (true) (some (.atomCas (fC w) (fD w) (fA w) (fB w)))
  | 15 =>
    row (true) (some (.atomAddSi64 (fC w) (fD w) (fA w) (fB w)))
  | _ => .bad 0x002

/-- Major 0x29. -/
def decMajor29 (w : Word) : Decoded :=
  match (fN w).toNat with
  | 0 =>
    row (true) (some (.atomaAddSi32 (fC w) (fD w) (fA w) (fB w)))
  | 1 =>
    row (true) (some (.atomaAddF32 (fC w) (fD w) (fA w) (fB w)))
  | 2 =>
    row (true) (some (.atomaAddBf16x2 (fC w) (fD w) (fA w) (fB w)))
  | 3 =>
    row (true) (some (.atomaAddF16x2 (fC w) (fD w) (fA w) (fB w)))
  | 4 =>
    row (true) (some (.atomaMinSi32 (fC w) (fD w) (fA w) (fB w)))
  | 5 =>
    row (true) (some (.atomaMaxSi32 (fC w) (fD w) (fA w) (fB w)))
  | 6 =>
    row (true) (some (.atomaMinUi32 (fC w) (fD w) (fA w) (fB w)))
  | 7 =>
    row (true) (some (.atomaMaxUi32 (fC w) (fD w) (fA w) (fB w)))
  | 8 =>
    row (true) (some (.atomaMinF32 (fC w) (fD w) (fA w) (fB w)))
  | 9 =>
    row (true) (some (.atomaMaxF32 (fC w) (fD w) (fA w) (fB w)))
  | 10 =>
    row (true) (some (.atomaAnd (fC w) (fD w) (fA w) (fB w)))
  | 11 =>
    row (true) (some (.atomaOr (fC w) (fD w) (fA w) (fB w)))
  | 12 =>
    row (true) (some (.atomaXor (fC w) (fD w) (fA w) (fB w)))
  | 13 =>
    row (true) (some (.atomaExch (fC w) (fD w) (fA w) (fB w)))
  | 14 =>
    row (true) (some (.atomaCas (fC w) (fD w) (fA w) (fB w)))
  | 15 =>
    row (true) (some (.atomaAddSi64 (fC w) (fD w) (fA w) (fB w)))
  | _ => .bad 0x002

/-- Major 0x2A. -/
def decMajor2A (w : Word) : Decoded :=
  match (fN w).toNat with
  | 0 =>
    row ((fD w) == 0) (some (.redAddSi32 (fC w) (fA w) (fB w)))
  | 1 =>
    row ((fD w) == 0) (some (.redAddF32 (fC w) (fA w) (fB w)))
  | 2 =>
    row ((fD w) == 0) (some (.redAddBf16x2 (fC w) (fA w) (fB w)))
  | 3 =>
    row ((fD w) == 0) (some (.redAddF16x2 (fC w) (fA w) (fB w)))
  | 4 =>
    row ((fD w) == 0) (some (.redMinSi32 (fC w) (fA w) (fB w)))
  | 5 =>
    row ((fD w) == 0) (some (.redMaxSi32 (fC w) (fA w) (fB w)))
  | 6 =>
    row ((fD w) == 0) (some (.redMinUi32 (fC w) (fA w) (fB w)))
  | 7 =>
    row ((fD w) == 0) (some (.redMaxUi32 (fC w) (fA w) (fB w)))
  | 8 =>
    row ((fD w) == 0) (some (.redMinF32 (fC w) (fA w) (fB w)))
  | 9 =>
    row ((fD w) == 0) (some (.redMaxF32 (fC w) (fA w) (fB w)))
  | 10 =>
    row ((fD w) == 0) (some (.redAnd (fC w) (fA w) (fB w)))
  | 11 =>
    row ((fD w) == 0) (some (.redOr (fC w) (fA w) (fB w)))
  | 12 =>
    row ((fD w) == 0) (some (.redXor (fC w) (fA w) (fB w)))
  | 13 =>
    row ((fD w) == 0) (some (.redExch (fC w) (fA w) (fB w)))
  | 14 =>
    row (true) (some (.redCas (fC w) (fD w) (fA w) (fB w)))
  | 15 =>
    row ((fD w) == 0) (some (.redAddSi64 (fC w) (fA w) (fB w)))
  | _ => .bad 0x002

/-- Major 0x2C. -/
noncomputable def decMajor2C (w : Word) : Decoded :=
  match (fN w).toNat with
  | 0 =>
    row (true) (some (.atomlAddSi32 (fC w) (fD w) (fA w) (fB w)))
  | 1 =>
    row (true) (some (.atomlAddF32 (fC w) (fD w) (fA w) (fB w)))
  | 2 =>
    row (true) (some (.atomlAddBf16x2 (fC w) (fD w) (fA w) (fB w)))
  | 3 =>
    row (true) (some (.atomlAddF16x2 (fC w) (fD w) (fA w) (fB w)))
  | 4 =>
    row (true) (some (.atomlMinSi32 (fC w) (fD w) (fA w) (fB w)))
  | 5 =>
    row (true) (some (.atomlMaxSi32 (fC w) (fD w) (fA w) (fB w)))
  | 6 =>
    row (true) (some (.atomlMinUi32 (fC w) (fD w) (fA w) (fB w)))
  | 7 =>
    row (true) (some (.atomlMaxUi32 (fC w) (fD w) (fA w) (fB w)))
  | 8 =>
    row (true) (some (.atomlMinF32 (fC w) (fD w) (fA w) (fB w)))
  | 9 =>
    row (true) (some (.atomlMaxF32 (fC w) (fD w) (fA w) (fB w)))
  | 10 =>
    row (true) (some (.atomlAnd (fC w) (fD w) (fA w) (fB w)))
  | 11 =>
    row (true) (some (.atomlOr (fC w) (fD w) (fA w) (fB w)))
  | 12 =>
    row (true) (some (.atomlXor (fC w) (fD w) (fA w) (fB w)))
  | 13 =>
    row (true) (some (.atomlExch (fC w) (fD w) (fA w) (fB w)))
  | 14 =>
    row (true) (some (.atomlCas (fC w) (fD w) (fA w) (fB w)))
  | _ => .bad 0x002

/-- Major 0x2B. -/
noncomputable def decMajor2B (w : Word) : Decoded :=
  match (fN w).toNat with
  | 0 =>
    row (true) (some (.oredF32 (fC w) (fD w) (fA w) (fB w)))
  | 1 =>
    row (true) (some (.oredBf16x2 (fC w) (fD w) (fA w) (fB w)))
  | 2 =>
    row (true) (some (.oredF64 (fC w) (fD w) (fA w) (fB w)))
  | _ => .bad 0x002

/-- Major 0x2D. -/
noncomputable def decMajor2D (w : Word) : Decoded :=
  if 5 ≤ (fN w).toNat then .bad 0x002 else
  match (fD w).toNat with
  | 0 =>
    row ((fA w) == 0 && (fB w) == 0) ((Scope.ofBits ((fN w).setWidth 6)).bind fun sc => some (.fenceFull (fC w) sc))
  | 1 =>
    row ((fA w) == 0 && (fB w) == 0) ((Scope.ofBits ((fN w).setWidth 6)).bind fun sc => some (.fenceAcq (fC w) sc))
  | 2 =>
    row ((fA w) == 0 && (fB w) == 0) ((Scope.ofBits ((fN w).setWidth 6)).bind fun sc => some (.fenceRel (fC w) sc))
  | _ => .bad 0x003

/-- Major 0x2E. -/
noncomputable def decMajor2E (w : Word) : Decoded :=
  match (fN w).toNat with
  | 0 =>
    row ((fD w) == 0 && (fA w) == 0) ((Scope.ofBits ((fB w).setWidth 6)).bind fun sc => some (.tfence (fC w) sc))
  | 1 =>
    row ((fD w) == 0 && (fA w) == 0) ((Scope.ofBits ((fB w).setWidth 6)).bind fun sc => some (.cfence (fC w) sc))
  | _ => .bad 0x002

/-- Major 0x2F. -/
noncomputable def decMajor2F (svc : Bool) (w : Word) : Decoded :=
  match (fN w).toNat with
  | 0 =>
    row ((fD w) == 0 && (fA w) == 0 && (fB w) == 0) (some (.drainCpl (fC w)))
  | 1 =>
    row ((fD w) == 0 && (fA w) == 0 && (fB w) == 0) (some (.drainCpg (fC w)))
  | 2 =>
    row ((fD w) == 0 && (fA w) == 0 && (fB w) == 0) (some (.drainSlice (fC w)))
  | 3 =>
    row ((fD w) == 0 && (fA w) == 0 && (fB w) == 0) (some (.drainMsg (fC w)))
  | 4 =>
    row ((fD w) == 0 && (fA w) == 0 && (fB w) == 0) (some (.drainMx (fC w)))
  | 5 =>
    row ((fD w) == 0 && (fA w) == 0 && (fB w) == 0) (some (.drainTrav (fC w)))
  | 6 =>
    priv svc (row ((fD w) == 0 && (fA w) == 0 && (fB w) == 0) (some (.drainWalk (fC w))))
  | 7 =>
    row ((fD w) == 0 && (fA w) == 0 && (fB w) == 0) (some (.drainAll (fC w)))
  | _ => .bad 0x002

/-- Major 0x30. -/
noncomputable def decMajor30 (w : Word) : Decoded :=
  row (true) (some (.bra (fC w) (fOff22 w)))

/-- Major 0x31. -/
noncomputable def decMajor31 (w : Word) : Decoded :=
  row (fP w == 7) (some (.jpt (fS w) (fOff22 w)))

/-- Major 0x32. -/
noncomputable def decMajor32 (w : Word) : Decoded :=
  row (true) (some (.call (fC w) (fOff22 w)))

/-- Major 0x33. -/
noncomputable def decMajor33 (w : Word) : Decoded :=
  match (fN w).toNat with
  | 0 =>
    row ((fD w) == 0 && (fB w) == 0) (some (.brx (fC w) (fA w)))
  | 1 =>
    row ((fB w) == 0) (some (.callx (fC w) (fD w) (fA w)))
  | 2 =>
    row ((fD w) == 0 && (fB w) == 0) (some (.ret (fC w) (fA w)))
  | _ => .bad 0x002

/-- Major 0x35. -/
noncomputable def decMajor35 (w : Word) : Decoded :=
  match (fN w).toNat with
  | 0 =>
    row (((fD w).extractLsb' 4 2) == 0 && (fA w) == 0 && (fB w) == 0) (some (.barSync (fC w) ((fD w).extractLsb' 0 4)))
  | 1 =>
    row (((fD w).extractLsb' 4 2) == 0 && (fA w) == 0 && (fB w) == 0) (some (.barArrive (fC w) ((fD w).extractLsb' 0 4)))
  | 2 =>
    row (((fD w).extractLsb' 4 2) == 0 && (fA w) == 0 && (fB w) == 0) (some (.barWait (fC w) ((fD w).extractLsb' 0 4)))
  | 3 =>
    row (((fD w).extractLsb' 4 2) == 0 && (fA w) == 0) (some (.barxExpect (fC w) ((fD w).extractLsb' 0 4) (fB w)))
  | 4 =>
    row (((fD w).extractLsb' 4 2) == 0 && (fA w) == 0 && (fB w) == 0) (some (.barxWait (fC w) ((fD w).extractLsb' 0 4)))
  | 8 =>
    row ((fD w) == 0 && (fB w) == 0) (some (.joinw (fC w) (fA w)))
  | _ => .bad 0x002

/-- Major 0x38. -/
noncomputable def decMajor38 (w : Word) : Decoded :=
  match (fFn7 w).toNat with
  | 0 =>
    row ((fXA w) == 0) (some (.cpLd (fS w) (fXD w) (fXB w)))
  | 1 =>
    row ((fXA w) == 0) (some (.cpSt (fS w) (fXD w) (fXB w)))
  | 2 =>
    row ((fXA w) == 0) (some (.cpLdz (fS w) (fXD w) (fXB w)))
  | 3 =>
    row ((fXA w) == 0) (some (.cpFill (fS w) (fXD w) (fXB w)))
  | 4 =>
    row ((fXA w) == 0) (some (.cpCpy (fS w) (fXD w) (fXB w)))
  | 5 =>
    row ((fXA w) == 0) (some (.cpSlw (fS w) (fXD w) (fXB w)))
  | 8 =>
    row ((fXA w) == 0) (some (.cpGather (fS w) (fXD w) (fXB w)))
  | 9 =>
    row ((fXA w) == 0) (some (.cpScatter (fS w) (fXD w) (fXB w)))
  | 16 =>
    row ((fXA w) == 0) (some (.cpStatus (fS w) (fXD w) (fXB w)))
  | _ => .bad 0x002

/-- Major 0x39. -/
noncomputable def decMajor39 (w : Word) : Decoded :=
  match (fFn7 w).toNat with
  | 0 =>
    row ((fXA w) == 0 && (fXB w) == 0) (some (.mxCtx (fS w) (fXD w)))
  | 1 =>
    row (true) (some (.mxLda (fS w) (fXD w) (fXA w) (fXB w)))
  | 2 =>
    row ((fXB w) == 0) (some (.mxLdb (fS w) (fXD w) (fXA w)))
  | 3 =>
    row (true) (some (.mxMma (fS w) (fXD w) (fXA w) (fXB w)))
  | 4 =>
    row (true) (some (.mxMmaR (fS w) (fXD w) (fXA w) (fXB w)))
  | 5 =>
    row (true) (some (.mxMmas (fS w) (fXD w) (fXA w) (fXB w)))
  | 6 =>
    row (true) (some (.mxMmasR (fS w) (fXD w) (fXA w) (fXB w)))
  | 8 =>
    row ((fXB w) == 0) (some (.mxZero (fS w) (fXD w) (fXA w)))
  | 9 =>
    row (true) (some (.mxStacc (fS w) (fXD w) (fXA w) (fXB w)))
  | 10 =>
    row (true) (some (.mxLdacc (fS w) (fXD w) (fXA w) (fXB w)))
  | 11 =>
    row (true) (some (.mxScale (fS w) (fXD w) (fXA w) (fXB w)))
  | 12 =>
    row (true) (some (.mxSmax (fS w) (fXD w) (fXA w) (fXB w)))
  | 13 =>
    row ((fXB w) == 0) (some (.mxSnorm (fS w) (fXD w) (fXA w)))
  | 14 =>
    row ((fXA w) == 0 && (fXB w) == 0) (some (.mxFence (fS w) (fXD w)))
  | 15 =>
    row ((fXA w) == 0 && (fXB w) == 0) (some (.mxWait (fS w) (fXD w)))
  | 16 =>
    row ((fXB w) == 0) (some (.mxRel (fS w) (fXD w) (fXA w)))
  | _ => .bad 0x002

/-- Major 0x3A. -/
noncomputable def decMajor3A (svc : Bool) (w : Word) : Decoded :=
  match (fFn7 w).toNat with
  | 0 =>
    row (true) (some (.dlBind (fS w) (fXD w) (fXA w) (fXB w)))
  | 1 =>
    row (true) (some (.dlRun (fS w) (fXD w) (fXA w) (fXB w)))
  | 2 =>
    row (true) (some (.dlFull (fS w) (fXD w) (fXA w) (fXB w)))
  | 3 =>
    row ((fXA w) == 0) (some (.dlInv (fS w) (fXD w) (fXB w)))
  | 4 =>
    row (true) (some (.dlQry (fS w) (fXD w) (fXA w) (fXB w)))
  | 5 =>
    row (true) (some (.dlCfg (fS w) (fXD w) (fXA w) (fXB w)))
  | 8 =>
    priv svc (row ((fXA w) == 0) (some (.dlDropall (fS w) (fXD w) (fXB w))))
  | _ => .bad 0x002

/-- Major 0x3B. -/
noncomputable def decMajor3B (w : Word) : Decoded :=
  match (fFn7 w).toNat with
  | 0 =>
    row (true) (some (.trLaunch (fS w) (fXD w) (fXA w) (fXB w)))
  | 1 =>
    row (true) (some (.trResume (fS w) (fXD w) (fXA w) (fXB w)))
  | 2 =>
    row (true) (some (.trCqcfg (fS w) (fXD w) (fXA w) (fXB w)))
  | 4 =>
    row (true) (some (.trDtab (fS w) (fXD w) (fXA w) (fXB w)))
  | 5 =>
    row (true) (some (.trProg (fS w) (fXD w) (fXA w) (fXB w)))
  | 8 =>
    row (true) (some (.pfArm (fS w) (fXD w) (fXA w) (fXB w)))
  | 9 =>
    row ((fXA w) == 0) (some (.pfDisarm (fS w) (fXD w) (fXB w)))
  | _ => .bad 0x002

/-- Major 0x3C. A non-zero A of MSG.MASK or MSG.UNMASK, or A or B of MSG.PEND, gives 0x301 here, whatever lanes are active:
R33 and R42 would give 0x003, and R285 gives 0x301 without saying at which check (DEDUCED, log entry 9). -/
noncomputable def decMajor3C (svc : Bool) (w : Word) : Decoded :=
  match (fFn7 w).toNat with
  | 0 =>
    row (true) (some (.msgSend (fS w) (fXD w) (fXA w) (fXB w)))
  | 1 =>
    row (true) (some (.msgSendl (fS w) (fXD w) (fXA w) (fXB w)))
  | 2 =>
    row (true) (some (.msgMcast (fS w) (fXD w) (fXA w) (fXB w)))
  | 3 =>
    row (true) (some (.msgWake (fS w) (fXD w) (fXA w) (fXB w)))
  | 4 =>
    if (fXA w) == 0 then row true (some (.msgMask (fS w) (fXD w) (fXB w))) else .bad 0x301
  | 5 =>
    if (fXA w) == 0 then row true (some (.msgUnmask (fS w) (fXD w) (fXB w))) else .bad 0x301
  | 6 =>
    if (fXA w) == 0 && (fXB w) == 0 then row true (some (.msgPend (fS w) (fXD w))) else .bad 0x301
  | 8 =>
    priv svc (row (true) (some (.msgHbind (fS w) (fXD w) (fXA w) (fXB w))))
  | _ => .bad 0x002

/-- Major 0x3D. -/
noncomputable def decMajor3D (w : Word) : Decoded :=
  match (fFn7 w).toNat with
  | 0 =>
    row (true) (some (.capNew (fS w) (fXD w) (fXA w) (fXB w)))
  | 1 =>
    row ((fXA w) == 0) (some (.capFwd (fS w) (fXD w) (fXB w)))
  | 2 =>
    row (true) (some (.capIns (fS w) (fXD w) (fXA w) (fXB w)))
  | 3 =>
    row ((fXA w) == 0) (some (.capDel (fS w) (fXD w) (fXB w)))
  | 4 =>
    row (true) (some (.capSet (fS w) (fXD w) (fXA w) (fXB w)))
  | 5 =>
    row ((fXA w) == 0) (some (.capRet (fS w) (fXD w) (fXB w)))
  | 6 =>
    row ((fXA w) == 0) (some (.capPark (fS w) (fXD w) (fXB w)))
  | 7 =>
    row (true) (some (.capLoad (fS w) (fXD w) (fXA w) (fXB w)))
  | _ => .bad 0x002

/-- Major 0x3E. -/
noncomputable def decMajor3E (w : Word) : Decoded :=
  match (fFn7 w).toNat with
  | 0 =>
    row ((fXB w) == 0) (some (.launch (fS w) (fXD w) (fXA w)))
  | 1 =>
    row (true) (some (.forkL (fS w) (fXD w) (fXA w) (fXB w)))
  | 2 =>
    row (true) (some (.forkG (fS w) (fXD w) (fXA w) (fXB w)))
  | 4 =>
    row (true) (some (.engw (fS w) (fXD w) (fXA w) (fXB w)))
  | 5 =>
    row ((fXA w) == 0) (some (.engr (fS w) (fXD w) (fXB w)))
  | 6 =>
    row (true) (some (.strcfg (fS w) (fXD w) (fXA w) (fXB w)))
  | 7 =>
    row ((fXA w) == 0) (some (.prio (fS w) (fXD w) (fXB w)))
  | _ => .bad 0x002

/-- A wave instruction word (Table 2-6); `svc` says that the agent is a service core. -/
noncomputable def decodeWave (svc : Bool) (w : Word) : Decoded :=
  match (fMaj w).toNat with
  | 0x00 => decMajor00 svc w
  | 0x01 => decMajor01 w
  | 0x02 => decMajor02 w
  | 0x03 => decMajor03 w
  | 0x04 => decMajor04 w
  | 0x05 => decMajor05 w
  | 0x06 => decMajor06 w
  | 0x07 => decMajor07 w
  | 0x08 => decMajor08 w
  | 0x09 => decMajor09 w
  | 0x0A => decMajor0A w
  | 0x0B => decMajor0B w
  | 0x0C => decMajor0C w
  | 0x0D => decMajor0D w
  | 0x0E => decMajor0E w
  | 0x0F => decMajor0F w
  | 0x10 => decMajor10 w
  | 0x11 => decMajor11 w
  | 0x12 => decMajor12 w
  | 0x13 => decMajor13 w
  | 0x14 => decMajor14 w
  | 0x15 => decMajor15 w
  | 0x16 => decMajor16 w
  | 0x17 => decMajor17 w
  | 0x18 => decMajor18 w
  | 0x19 => decMajor19 w
  | 0x1A => decMajor1A w
  | 0x1C => decMajor1C w
  | 0x1D => decMajor1D w
  | 0x1E => decMajor1E w
  | 0x1F => decMajor1F w
  | 0x20 => decMajor20 w
  | 0x21 => decMajor21 w
  | 0x22 => decMajor22 w
  | 0x23 => decMajor23 w
  | 0x26 => decMajor26 w
  | 0x27 => decMajor27 w
  | 0x24 => decMajor24 w
  | 0x25 => decMajor25 w
  | 0x28 => decMajor28 w
  | 0x29 => decMajor29 w
  | 0x2A => decMajor2A w
  | 0x2C => decMajor2C w
  | 0x2B => decMajor2B w
  | 0x2D => decMajor2D w
  | 0x2E => decMajor2E w
  | 0x2F => decMajor2F svc w
  | 0x30 => decMajor30 w
  | 0x31 => decMajor31 w
  | 0x32 => decMajor32 w
  | 0x33 => decMajor33 w
  | 0x35 => decMajor35 w
  | 0x38 => decMajor38 w
  | 0x39 => decMajor39 w
  | 0x3A => decMajor3A svc w
  | 0x3B => decMajor3B w
  | 0x3C => decMajor3C svc w
  | 0x3D => decMajor3D w
  | 0x3E => decMajor3E w
  | _ => .bad 0x001

/-- A traversal word (Table 16-4, R38). -/
noncomputable def decodeTrav (w : Word) : Decoded :=
  match (tOp w).toNat with
  | 0x00 =>
    row ((tD w) == 0 && (tA w) == 0 && (tB w) == 0 && (tImm w) == 0) (some .tnop)
  | 0x01 =>
    match (tFn w).toNat with
    | 0 =>
      row ((tImm w) == 0) (some (.tadd (tD w) (tA w) (tB w)))
    | 1 =>
      row ((tImm w) == 1) (some (.tsub (tD w) (tA w) (tB w)))
    | 2 =>
      row ((tImm w) == 2) (some (.tand (tD w) (tA w) (tB w)))
    | 3 =>
      row ((tImm w) == 3) (some (.tor (tD w) (tA w) (tB w)))
    | 4 =>
      row ((tImm w) == 4) (some (.txor (tD w) (tA w) (tB w)))
    | 5 =>
      row ((tImm w) == 5) (some (.tshl (tD w) (tA w) (tB w)))
    | 6 =>
      row ((tImm w) == 6) (some (.tshr (tD w) (tA w) (tB w)))
    | 7 =>
      row ((tImm w) == 7) (some (.tsra (tD w) (tA w) (tB w)))
    | 8 =>
      row ((tImm w) == 8) (some (.tmin (tD w) (tA w) (tB w)))
    | 9 =>
      row ((tImm w) == 9) (some (.tmax (tD w) (tA w) (tB w)))
    | 10 =>
      row ((tImm w) == 10) (some (.tminu (tD w) (tA w) (tB w)))
    | 11 =>
      row ((tImm w) == 11) (some (.tmaxu (tD w) (tA w) (tB w)))
    | 12 =>
      row ((tImm w) == 12) (some (.tmul (tD w) (tA w) (tB w)))
    | _ => .bad 0x002
  | 0x02 =>
    match (tFn w).toNat with
    | 0 =>
      row ((tImm w) == 0) (some (.tfadd (tD w) (tA w) (tB w)))
    | 1 =>
      row ((tImm w) == 1) (some (.tfsub (tD w) (tA w) (tB w)))
    | 2 =>
      row ((tImm w) == 2) (some (.tfmul (tD w) (tA w) (tB w)))
    | 3 =>
      row ((tImm w) == 3) (some (.tfmin (tD w) (tA w) (tB w)))
    | 4 =>
      row ((tImm w) == 4) (some (.tfmax (tD w) (tA w) (tB w)))
    | _ => .bad 0x002
  | 0x03 =>
    row ((tB w) == 0) (some (.taddi (tD w) (tA w) (tImm w)))
  | 0x04 =>
    row ((tB w) == 0) (some (.tandi (tD w) (tA w) (tImm w)))
  | 0x05 =>
    row ((tB w) == 0) (some (.tori (tD w) (tA w) (tImm w)))
  | 0x06 =>
    match ((tImm w).extractLsb' 5 2).toNat with
    | 0 =>
      row ((tB w) == 0 && ((tImm w).extractLsb' 7 7) == 0 && ((tImm w).extractLsb' 5 2) == 0) (some (.tshli (tD w) (tA w) ((tImm w).extractLsb' 0 5)))
    | 1 =>
      row ((tB w) == 0 && ((tImm w).extractLsb' 7 7) == 0 && ((tImm w).extractLsb' 5 2) == 1) (some (.tshri (tD w) (tA w) ((tImm w).extractLsb' 0 5)))
    | 2 =>
      row ((tB w) == 0 && ((tImm w).extractLsb' 7 7) == 0 && ((tImm w).extractLsb' 5 2) == 2) (some (.tsrai (tD w) (tA w) ((tImm w).extractLsb' 0 5)))
    | _ =>
      row ((tB w) == 0 && ((tImm w).extractLsb' 7 7) == 0 && ((tImm w).extractLsb' 5 2) == 3) (some (.troli (tD w) (tA w) ((tImm w).extractLsb' 0 5)))
  | 0x07 =>
    row (true) (some (.tlui (tD w) (tImm22 w)))
  | 0x08 =>
    row (true) ((TCond.ofBits ((tD w).setWidth 6)).bind fun cond => some (.tbr cond (tA w) (tB w) (tImm w)))
  | 0x09 =>
    match (tFn w).toNat with
    | 0 =>
      row ((tA w) == 0 && (tB w) == 0 && (tImm w) == 0) (some (.trsrReclo (tD w)))
    | 1 =>
      row ((tA w) == 0 && (tB w) == 0 && (tImm w) == 1) (some (.trsrRechi (tD w)))
    | 2 =>
      row ((tA w) == 0 && (tB w) == 0 && (tImm w) == 2) (some (.trsrTag (tD w)))
    | 3 =>
      row ((tA w) == 0 && (tB w) == 0 && (tImm w) == 3) (some (.trsrThread (tD w)))
    | _ => .bad 0x002
  | 0x10 =>
    row ((tD w) == 0 && (tB w) == 0 && ((tImm w).extractLsb' 4 10) == 0) (some (.nfetch (tA w) ((tImm w).extractLsb' 0 4)))
  | 0x11 =>
    row ((tD w) == 0 && (tA w) == 0 && (tB w) == 0 && ((tImm w).extractLsb' 4 10) == 0) (some (.ndec ((tImm w).extractLsb' 0 4)))
  | 0x12 =>
    match (tFn w).toNat with
    | 0 =>
      row ((tA w) == 0 && (tB w) == 0 && (tImm w) == 0) (some (.ngetKind (tD w)))
    | 1 =>
      row ((tA w) == 0 && (tB w) == 0 && (tImm w) == 1) (some (.ngetCnt (tD w)))
    | 2 =>
      row ((tA w) == 0 && (tB w) == 0 && ((tImm w).extractLsb' 7 7) == 0 && ((tImm w).extractLsb' 0 4) == 2) (some (.ngetChild (tD w) ((tImm w).extractLsb' 4 3)))
    | 3 =>
      row ((tA w) == 0 && (tB w) == 0 && ((tImm w).extractLsb' 8 6) == 0 && ((tImm w).extractLsb' 0 4) == 3) (some (.ngetKeylo (tD w) ((tImm w).extractLsb' 4 4)))
    | 4 =>
      row ((tA w) == 0 && (tB w) == 0 && ((tImm w).extractLsb' 8 6) == 0 && ((tImm w).extractLsb' 0 4) == 4) (some (.ngetKeyhi (tD w) ((tImm w).extractLsb' 4 4)))
    | 5 =>
      row ((tA w) == 0 && (tB w) == 0 && (tImm w) == 5) (some (.ngetPeer (tD w)))
    | 6 =>
      row ((tA w) == 0 && (tB w) == 0 && (tImm w) == 6) (some (.ngetRemote (tD w)))
    | 8 =>
      row ((tA w) == 0 && (tB w) == 0 && ((tImm w).extractLsb' 4 3) == 0 && ((tImm w).extractLsb' 0 4) == 8) (some (.ngetWord (tD w) ((tImm w).extractLsb' 7 7)))
    | _ => .bad 0x003
  | 0x13 =>
    row ((tB w) == 0) (some (.tld (tD w) (tA w) (tImm w)))
  | 0x14 =>
    row ((tD w) == 0 && (tB w) == 0 && ((tImm w).extractLsb' 3 11) == 0) (some (.tqld (tA w) ((tImm w).extractLsb' 0 3)))
  | 0x15 =>
    if (tImm w).extractLsb' 0 1 == 0 then
      row ((tD w) == 0 && (tB w) == 0 && (tImm w) == 0) (some (.tpfNc (tA w)))
    else
      row ((tD w) == 0 && (tB w) == 0 && (tImm w) == 1) (some (.tpfL1 (tA w)))
  | 0x18 =>
    row ((tB w) == 0 && (tImm w) == 0) (some (.tbox (tD w) (tA w)))
  | 0x19 =>
    row ((tB w) == 0 && ((tImm w).extractLsb' 2 12) == 0) (some (.ttri (tD w) (tA w) ((tImm w).extractLsb' 0 2)))
  | 0x1A =>
    match ((tImm w).extractLsb' 3 1).toNat with
    | 0 =>
      row ((tB w) == 0 && ((tImm w).extractLsb' 4 10) == 0 && ((tImm w).extractLsb' 3 1) == 0) (some (.tdistL2 (tD w) (tA w) ((tImm w).extractLsb' 0 3)))
    | _ =>
      row ((tB w) == 0 && ((tImm w).extractLsb' 4 10) == 0 && ((tImm w).extractLsb' 3 1) == 1) (some (.tdistDot (tD w) (tA w) ((tImm w).extractLsb' 0 3)))
  | 0x1B =>
    if (tImm w).extractLsb' 0 1 == 0 then
      row ((tB w) == 0 && (tImm w) == 0) (some (.tkeyLt (tD w) (tA w)))
    else
      row ((tB w) == 0 && (tImm w) == 1) (some (.tkeyLe (tD w) (tA w)))
  | 0x20 =>
    row ((tD w) == 0 && (tB w) == 0 && (tImm w) == 0) (some (.tpush (tA w)))
  | 0x21 =>
    row ((tD w) == 0 && (tB w) == 0 && (tImm w) == 0) (some (.tpushc (tA w)))
  | 0x22 =>
    row ((tA w) == 0 && (tB w) == 0) (some (.tpop (tD w) (tImm w)))
  | 0x23 =>
    row ((tA w) == 0 && (tB w) == 0 && (tImm w) == 0) (some (.tdepth (tD w)))
  | 0x28 =>
    row ((tD w) == 0 && (tB w) == 0 && (tImm w) == 0) (some (.emit (tA w)))
  | 0x29 =>
    if (tImm w).extractLsb' 0 1 == 0 then
      row ((tD w) == 0 && (tB w) == 0 && (tImm w) == 0) (some (.endDone (tA w)))
    else
      row ((tD w) == 0 && (tB w) == 0 && (tImm w) == 1) (some (.endMiss (tA w)))
  | 0x2A =>
    row ((tImm w) == 0) (some (.susp (tD w) (tA w) (tB w)))
  | 0x2B =>
    row ((tD w) == 0 && (tA w) == 0 && (tB w) == 0 && (tImm w) == 0) (some .thand)
  | _ => .bad 0x001

/-- The word of a wave or traversal instruction; the events have none. -/
def encode (i : Instr) : Option Word :=
  match i with
  | .nop c => some (packR c 0x00 (0 : BitVec 6) (0 : BitVec 6) (0 : BitVec 6) 0)
  | .exit c => some (packR c 0x00 (0 : BitVec 6) (0 : BitVec 6) (0 : BitVec 6) 1)
  | .yield c => some (packR c 0x00 (0 : BitVec 6) (0 : BitVec 6) (0 : BitVec 6) 2)
  | .trap c code => some (packS c 0x00 (0 : BitVec 6) code 3)
  | .rdsr c d idx => some (packS c 0x00 d idx 4)
  | .wrsr c d idx => some (packS c 0x00 d idx 5)
  | .eret c d a b => some (packR c 0x00 d a b 6)
  | .halt c a => some (packR c 0x00 (0 : BitVec 6) a (0 : BitVec 6) 7)
  | .tlbw c a b => some (packR c 0x00 (0 : BitVec 6) a b 8)
  | .tlbi c a b => some (packR c 0x00 (0 : BitVec 6) a b 9)
  | .tlbsync c => some (packR c 0x00 (0 : BitVec 6) (0 : BitVec 6) (0 : BitVec 6) 10)
  | .cacheL1inv c a => some (packR c 0x00 (0 : BitVec 6) a (0 : BitVec 6) 11)
  | .cacheL1all c => some (packR c 0x00 (1 : BitVec 6) (0 : BitVec 6) (0 : BitVec 6) 11)
  | .cacheWb c a => some (packR c 0x00 (2 : BitVec 6) a (0 : BitVec 6) 11)
  | .cacheWbinv c a => some (packR c 0x00 (3 : BitVec 6) a (0 : BitVec 6) 11)
  | .cacheLock c a => some (packR c 0x00 (4 : BitVec 6) a (0 : BitVec 6) 11)
  | .cacheUnlock c a => some (packR c 0x00 (5 : BitVec 6) a (0 : BitVec 6) 11)
  | .svcall c d a b => some (packR c 0x00 d a b 12)
  | .bkpt c code => some (packS c 0x00 (0 : BitVec 6) code 13)
  | .addR c d a b => some (packR c 0x01 d a b 0)
  | .subR c d a b => some (packR c 0x01 d a b 1)
  | .andR c d a b => some (packR c 0x01 d a b 2)
  | .orR c d a b => some (packR c 0x01 d a b 3)
  | .xorR c d a b => some (packR c 0x01 d a b 4)
  | .andn c d a b => some (packR c 0x01 d a b 5)
  | .shl c d a b => some (packR c 0x01 d a b 6)
  | .shr c d a b => some (packR c 0x01 d a b 7)
  | .sra c d a b => some (packR c 0x01 d a b 8)
  | .minR c d a b => some (packR c 0x01 d a b 9)
  | .maxR c d a b => some (packR c 0x01 d a b 10)
  | .minu c d a b => some (packR c 0x01 d a b 11)
  | .maxu c d a b => some (packR c 0x01 d a b 12)
  | .mulR c d a b => some (packR c 0x01 d a b 13)
  | .mulh c d a b => some (packR c 0x01 d a b 14)
  | .mulhu c d a b => some (packR c 0x01 d a b 15)
  | .clz c d a => some (packR c 0x02 d a (0 : BitVec 6) 0)
  | .popc c d a => some (packR c 0x02 d a (0 : BitVec 6) 1)
  | .brev c d a => some (packR c 0x02 d a (0 : BitVec 6) 2)
  | .bfx c d a b => some (packR c 0x02 d a b 3)
  | .bfxu c d a b => some (packR c 0x02 d a b 4)
  | .bfi c d a b => some (packR c 0x02 d a b 5)
  | .absd c d a b => some (packR c 0x02 d a b 6)
  | .addc c d a b => some (packR c 0x02 d a b 7)
  | .subb c d a b => some (packR c 0x02 d a b 8)
  | .lea c d a b => some (packR c 0x02 d a b 9)
  | .lea2 c d a b => some (packR c 0x02 d a b 10)
  | .lea4 c d a b => some (packR c 0x02 d a b 11)
  | .lea8 c d a b => some (packR c 0x02 d a b 12)
  | .add64 c d a b => some (packR c 0x03 d a b 0)
  | .sub64 c d a b => some (packR c 0x03 d a b 1)
  | .shl64 c d a b => some (packR c 0x03 d a b 2)
  | .shr64 c d a b => some (packR c 0x03 d a b 3)
  | .sra64 c d a b => some (packR c 0x03 d a b 4)
  | .mul32w c d a b => some (packR c 0x03 d a b 5)
  | .minu64 c d a b => some (packR c 0x03 d a b 6)
  | .maxu64 c d a b => some (packR c 0x03 d a b 7)
  | .addi c d a imm => some (packI c 0x04 d a imm)
  | .andi c d a imm => some (packI c 0x05 d a imm)
  | .ori c d a imm => some (packI c 0x06 d a imm)
  | .xori c d a imm => some (packI c 0x07 d a imm)
  | .shli c d a n => some (packI c 0x08 d a ((0 : BitVec 3) ++ (0 : BitVec 2) ++ n))
  | .shri c d a n => some (packI c 0x08 d a ((0 : BitVec 3) ++ (1 : BitVec 2) ++ n))
  | .srai c d a n => some (packI c 0x08 d a ((0 : BitVec 3) ++ (2 : BitVec 2) ++ n))
  | .roli c d a n => some (packI c 0x08 d a ((0 : BitVec 3) ++ (3 : BitVec 2) ++ n))
  | .muli c d a imm => some (packI c 0x09 d a imm)
  | .movi c d imm => some (packU c 0x0A d imm)
  | .movhi c d imm => some (packU c 0x0B d imm)
  | .icmp c pd cond a b cmb => some (packC c 0x0C pd (cond.toBits.setWidth 4) a b (cmb.toBits.setWidth 3))
  | .icmpi c pd cond a imm cmb => some (packC c 0x0D pd (cond.toBits.setWidth 4) a imm (cmb.toBits.setWidth 3))
  | .pand c pd pa pb => some (packR c 0x0E ((0 : BitVec 3) ++ pd) ((0 : BitVec 3) ++ pa) ((0 : BitVec 3) ++ pb) 0)
  | .por c pd pa pb => some (packR c 0x0E ((0 : BitVec 3) ++ pd) ((0 : BitVec 3) ++ pa) ((0 : BitVec 3) ++ pb) 1)
  | .pxor c pd pa pb => some (packR c 0x0E ((0 : BitVec 3) ++ pd) ((0 : BitVec 3) ++ pa) ((0 : BitVec 3) ++ pb) 2)
  | .pnot c pd pa => some (packR c 0x0E ((0 : BitVec 3) ++ pd) ((0 : BitVec 3) ++ pa) (0 : BitVec 6) 3)
  | .p2g c d pa => some (packR c 0x0E d ((0 : BitVec 3) ++ pa) (0 : BitVec 6) 4)
  | .g2p c pd a => some (packR c 0x0E ((0 : BitVec 3) ++ pd) a (0 : BitVec 6) 5)
  | .sel s ps d a b => some (packR ⟨s, ps⟩ 0x0F d a b 0)
  | .fadd c d a b => some (packR c 0x10 d a b 0)
  | .fsub c d a b => some (packR c 0x10 d a b 1)
  | .fmul c d a b => some (packR c 0x10 d a b 2)
  | .fmin c d a b => some (packR c 0x10 d a b 3)
  | .fmax c d a b => some (packR c 0x10 d a b 4)
  | .fabs c d a => some (packR c 0x10 d a (0 : BitVec 6) 5)
  | .fneg c d a => some (packR c 0x10 d a (0 : BitVec 6) 6)
  | .fcopysign c d a b => some (packR c 0x10 d a b 7)
  | .ffma c d a b => some (packR c 0x11 d a b 0)
  | .ffms c d a b => some (packR c 0x11 d a b 1)
  | .fnma c d a b => some (packR c 0x11 d a b 2)
  | .fnms c d a b => some (packR c 0x11 d a b 3)
  | .fcmp c pd cond a b cmb => some (packC c 0x12 pd (cond.toBits.setWidth 4) a b (cmb.toBits.setWidth 3))
  | .fcvtFf c d a cv r => some (packR c 0x13 d a (cv ++ r) 0)
  | .fcvtFi c d a cv r => some (packR c 0x13 d a (cv ++ r) 1)
  | .fcvtIf c d a cv r => some (packR c 0x13 d a (cv ++ r) 2)
  | .fcvtFx c d a cv => some (packR c 0x13 d a (cv ++ (0 : BitVec 3)) 3)
  | .fcvtXf c d a cv => some (packR c 0x13 d a (cv ++ (0 : BitVec 3)) 4)
  | .fcvtRi c d a cv r => some (packR c 0x13 d a (cv ++ r) 5)
  | .hadd2 c d a b => some (packR c 0x14 d a b 0)
  | .hsub2 c d a b => some (packR c 0x14 d a b 1)
  | .hmul2 c d a b => some (packR c 0x14 d a b 2)
  | .hfma2 c d a b => some (packR c 0x14 d a b 3)
  | .hmin2 c d a b => some (packR c 0x14 d a b 4)
  | .hmax2 c d a b => some (packR c 0x14 d a b 5)
  | .hadd2Bf c d a b => some (packR c 0x14 d a b 8)
  | .hsub2Bf c d a b => some (packR c 0x14 d a b 9)
  | .hmul2Bf c d a b => some (packR c 0x14 d a b 10)
  | .hfma2Bf c d a b => some (packR c 0x14 d a b 11)
  | .hmin2Bf c d a b => some (packR c 0x14 d a b 12)
  | .hmax2Bf c d a b => some (packR c 0x14 d a b 13)
  | .dadd c d a b => some (packR c 0x15 d a b 0)
  | .dsub c d a b => some (packR c 0x15 d a b 1)
  | .dmul c d a b => some (packR c 0x15 d a b 2)
  | .dfma c d a b => some (packR c 0x15 d a b 3)
  | .dmin c d a b => some (packR c 0x15 d a b 4)
  | .dmax c d a b => some (packR c 0x15 d a b 5)
  | .dcmp c pd cond a b => some (packR c 0x15 ((cond.toBits.setWidth 3) ++ pd) a b 6)
  | .rcp c d a => some (packR c 0x16 d a (0 : BitVec 6) 0)
  | .rsq c d a => some (packR c 0x16 d a (0 : BitVec 6) 1)
  | .sqrt c d a => some (packR c 0x16 d a (0 : BitVec 6) 2)
  | .ex2 c d a => some (packR c 0x16 d a (0 : BitVec 6) 3)
  | .lg2 c d a => some (packR c 0x16 d a (0 : BitVec 6) 4)
  | .sin c d a => some (packR c 0x16 d a (0 : BitVec 6) 5)
  | .cos c d a => some (packR c 0x16 d a (0 : BitVec 6) 6)
  | .tanh c d a => some (packR c 0x16 d a (0 : BitVec 6) 7)
  | .idot4 c d a b => some (packR c 0x17 d a b 0)
  | .idot4u c d a b => some (packR c 0x17 d a b 1)
  | .hdot2 c d a b => some (packR c 0x17 d a b 2)
  | .bdot2 c d a b => some (packR c 0x17 d a b 3)
  | .idot8 c d a b => some (packR c 0x17 d a b 4)
  | .idot8u c d a b => some (packR c 0x17 d a b 5)
  | .qswpx c d a => some (packR c 0x18 d a (0 : BitVec 6) 0)
  | .qswpy c d a => some (packR c 0x18 d a (0 : BitVec 6) 1)
  | .qswpd c d a => some (packR c 0x18 d a (0 : BitVec 6) 2)
  | .qbcast c d a n => some (packR c 0x18 d a ((0 : BitVec 4) ++ n) 3)
  | .shfli c d a b => some (packR c 0x18 d a b 4)
  | .shflu c d a n => some (packR c 0x18 d a ((0 : BitVec 1) ++ n) 5)
  | .shfld c d a n => some (packR c 0x18 d a ((0 : BitVec 1) ++ n) 6)
  | .shflx c d a n => some (packR c 0x18 d a ((0 : BitVec 1) ++ n) 7)
  | .voteany c pd pa => some (packR c 0x19 ((0 : BitVec 3) ++ pd) ((0 : BitVec 3) ++ pa) (0 : BitVec 6) 0)
  | .voteall c pd pa => some (packR c 0x19 ((0 : BitVec 3) ++ pd) ((0 : BitVec 3) ++ pa) (0 : BitVec 6) 1)
  | .ballot c d pa => some (packR c 0x19 d ((0 : BitVec 3) ++ pa) (0 : BitVec 6) 2)
  | .matchI c d a => some (packR c 0x19 d a (0 : BitVec 6) 3)
  | .reduxadd c d a => some (packR c 0x19 d a (0 : BitVec 6) 4)
  | .reduxmin c d a u => some (packR c 0x19 d a ((0 : BitVec 5) ++ (BitVec.ofBool u)) 5)
  | .reduxmax c d a u => some (packR c 0x19 d a ((0 : BitVec 5) ++ (BitVec.ofBool u)) 6)
  | .fredux c d a op => some (packR c 0x19 d a ((0 : BitVec 4) ++ (op.toBits.setWidth 2)) 7)
  | .popm c d pa => some (packR c 0x19 d ((0 : BitVec 3) ++ pa) (0 : BitVec 6) 8)
  | .scnt c d st => some (packR c 0x1A d ((0 : BitVec 4) ++ st) (0 : BitVec 6) 0)
  | .sendS c d st => some (packR c 0x1A d ((0 : BitVec 4) ++ st) (0 : BitVec 6) 1)
  | .srew c st => some (packR c 0x1A (0 : BitVec 6) ((0 : BitVec 4) ++ st) (0 : BitVec 6) 2)
  | .sskip c st n => some (packR c 0x1A (0 : BitVec 6) ((0 : BitVec 4) ++ st) n 3)
  | .streamElementFetch _ _ _ _ => none
  | .wadd c d a b => some (packR c 0x1C d a b 0)
  | .wsub c d a b => some (packR c 0x1C d a b 1)
  | .wand c d a b => some (packR c 0x1C d a b 2)
  | .wor c d a b => some (packR c 0x1C d a b 3)
  | .wxor c d a b => some (packR c 0x1C d a b 4)
  | .wandn c d a b => some (packR c 0x1C d a b 5)
  | .wshl c d a b => some (packR c 0x1C d a b 6)
  | .wshr c d a b => some (packR c 0x1C d a b 7)
  | .wsra c d a b => some (packR c 0x1C d a b 8)
  | .wmin c d a b => some (packR c 0x1C d a b 9)
  | .wmax c d a b => some (packR c 0x1C d a b 10)
  | .wminu c d a b => some (packR c 0x1C d a b 11)
  | .wmaxu c d a b => some (packR c 0x1C d a b 12)
  | .wmul c d a b => some (packR c 0x1C d a b 13)
  | .wmulh c d a b => some (packR c 0x1C d a b 14)
  | .wmulhu c d a b => some (packR c 0x1C d a b 15)
  | .waddi c d a imm => some (packI c 0x1D d a imm)
  | .g2w c d a => some (packR c 0x1E d a (0 : BitVec 6) 0)
  | .w2g c d a => some (packR c 0x1E d a (0 : BitVec 6) 1)
  | .wcmp c pd cond a b => some (packR c 0x1E ((cond.toBits.setWidth 3) ++ pd) a b 2)
  | .wmovi c d imm => some (packU c 0x1F d imm)
  | .ldg c d a sz off => some (packM c 0x20 d a (sz.toBits.setWidth 3) off)
  | .stg c d a sz off => some (packM c 0x21 d a (sz.toBits.setWidth 3) off)
  | .ldl c d a sz off => some (packM c 0x22 d a (sz.toBits.setWidth 3) off)
  | .stl c d a sz off => some (packM c 0x23 d a (sz.toBits.setWidth 3) off)
  | .ldwg c d a sz off => some (packM c 0x26 d a (sz.toBits.setWidth 3) off)
  | .ldwl c d a sz off => some (packM c 0x27 d a (sz.toBits.setWidth 3) off)
  | .ldacq c d a dw sc => some (packR c 0x24 d a ((BitVec.ofBool dw).setWidth 6) (sc.toBits.setWidth 4))
  | .strel c a b dw sc => some (packR c 0x25 ((BitVec.ofBool dw).setWidth 6) a b (sc.toBits.setWidth 4))
  | .atomAddSi32 c d a b => some (packR c 0x28 d a b 0)
  | .atomAddF32 c d a b => some (packR c 0x28 d a b 1)
  | .atomAddBf16x2 c d a b => some (packR c 0x28 d a b 2)
  | .atomAddF16x2 c d a b => some (packR c 0x28 d a b 3)
  | .atomMinSi32 c d a b => some (packR c 0x28 d a b 4)
  | .atomMaxSi32 c d a b => some (packR c 0x28 d a b 5)
  | .atomMinUi32 c d a b => some (packR c 0x28 d a b 6)
  | .atomMaxUi32 c d a b => some (packR c 0x28 d a b 7)
  | .atomMinF32 c d a b => some (packR c 0x28 d a b 8)
  | .atomMaxF32 c d a b => some (packR c 0x28 d a b 9)
  | .atomAnd c d a b => some (packR c 0x28 d a b 10)
  | .atomOr c d a b => some (packR c 0x28 d a b 11)
  | .atomXor c d a b => some (packR c 0x28 d a b 12)
  | .atomExch c d a b => some (packR c 0x28 d a b 13)
  | .atomCas c d a b => some (packR c 0x28 d a b 14)
  | .atomAddSi64 c d a b => some (packR c 0x28 d a b 15)
  | .atomaAddSi32 c d a b => some (packR c 0x29 d a b 0)
  | .atomaAddF32 c d a b => some (packR c 0x29 d a b 1)
  | .atomaAddBf16x2 c d a b => some (packR c 0x29 d a b 2)
  | .atomaAddF16x2 c d a b => some (packR c 0x29 d a b 3)
  | .atomaMinSi32 c d a b => some (packR c 0x29 d a b 4)
  | .atomaMaxSi32 c d a b => some (packR c 0x29 d a b 5)
  | .atomaMinUi32 c d a b => some (packR c 0x29 d a b 6)
  | .atomaMaxUi32 c d a b => some (packR c 0x29 d a b 7)
  | .atomaMinF32 c d a b => some (packR c 0x29 d a b 8)
  | .atomaMaxF32 c d a b => some (packR c 0x29 d a b 9)
  | .atomaAnd c d a b => some (packR c 0x29 d a b 10)
  | .atomaOr c d a b => some (packR c 0x29 d a b 11)
  | .atomaXor c d a b => some (packR c 0x29 d a b 12)
  | .atomaExch c d a b => some (packR c 0x29 d a b 13)
  | .atomaCas c d a b => some (packR c 0x29 d a b 14)
  | .atomaAddSi64 c d a b => some (packR c 0x29 d a b 15)
  | .redAddSi32 c a b => some (packR c 0x2A (0 : BitVec 6) a b 0)
  | .redAddF32 c a b => some (packR c 0x2A (0 : BitVec 6) a b 1)
  | .redAddBf16x2 c a b => some (packR c 0x2A (0 : BitVec 6) a b 2)
  | .redAddF16x2 c a b => some (packR c 0x2A (0 : BitVec 6) a b 3)
  | .redMinSi32 c a b => some (packR c 0x2A (0 : BitVec 6) a b 4)
  | .redMaxSi32 c a b => some (packR c 0x2A (0 : BitVec 6) a b 5)
  | .redMinUi32 c a b => some (packR c 0x2A (0 : BitVec 6) a b 6)
  | .redMaxUi32 c a b => some (packR c 0x2A (0 : BitVec 6) a b 7)
  | .redMinF32 c a b => some (packR c 0x2A (0 : BitVec 6) a b 8)
  | .redMaxF32 c a b => some (packR c 0x2A (0 : BitVec 6) a b 9)
  | .redAnd c a b => some (packR c 0x2A (0 : BitVec 6) a b 10)
  | .redOr c a b => some (packR c 0x2A (0 : BitVec 6) a b 11)
  | .redXor c a b => some (packR c 0x2A (0 : BitVec 6) a b 12)
  | .redExch c a b => some (packR c 0x2A (0 : BitVec 6) a b 13)
  | .redCas c d a b => some (packR c 0x2A d a b 14)
  | .redAddSi64 c a b => some (packR c 0x2A (0 : BitVec 6) a b 15)
  | .atomlAddSi32 c d a b => some (packR c 0x2C d a b 0)
  | .atomlAddF32 c d a b => some (packR c 0x2C d a b 1)
  | .atomlAddBf16x2 c d a b => some (packR c 0x2C d a b 2)
  | .atomlAddF16x2 c d a b => some (packR c 0x2C d a b 3)
  | .atomlMinSi32 c d a b => some (packR c 0x2C d a b 4)
  | .atomlMaxSi32 c d a b => some (packR c 0x2C d a b 5)
  | .atomlMinUi32 c d a b => some (packR c 0x2C d a b 6)
  | .atomlMaxUi32 c d a b => some (packR c 0x2C d a b 7)
  | .atomlMinF32 c d a b => some (packR c 0x2C d a b 8)
  | .atomlMaxF32 c d a b => some (packR c 0x2C d a b 9)
  | .atomlAnd c d a b => some (packR c 0x2C d a b 10)
  | .atomlOr c d a b => some (packR c 0x2C d a b 11)
  | .atomlXor c d a b => some (packR c 0x2C d a b 12)
  | .atomlExch c d a b => some (packR c 0x2C d a b 13)
  | .atomlCas c d a b => some (packR c 0x2C d a b 14)
  | .sliceRmw _ _ => none
  | .oredF32 c d a b => some (packR c 0x2B d a b 0)
  | .oredBf16x2 c d a b => some (packR c 0x2B d a b 1)
  | .oredF64 c d a b => some (packR c 0x2B d a b 2)
  | .oreContribution _ _ => none
  | .oredRefusalRetry _ _ => none
  | .fenceFull c sc => some (packR c 0x2D (0 : BitVec 6) (0 : BitVec 6) (0 : BitVec 6) (sc.toBits.setWidth 4))
  | .fenceAcq c sc => some (packR c 0x2D (1 : BitVec 6) (0 : BitVec 6) (0 : BitVec 6) (sc.toBits.setWidth 4))
  | .fenceRel c sc => some (packR c 0x2D (2 : BitVec 6) (0 : BitVec 6) (0 : BitVec 6) (sc.toBits.setWidth 4))
  | .tfence c sc => some (packR c 0x2E (0 : BitVec 6) (0 : BitVec 6) (sc.toBits.setWidth 6) 0)
  | .cfence c sc => some (packR c 0x2E (0 : BitVec 6) (0 : BitVec 6) (sc.toBits.setWidth 6) 1)
  | .drainCpl c => some (packR c 0x2F (0 : BitVec 6) (0 : BitVec 6) (0 : BitVec 6) 0)
  | .drainCpg c => some (packR c 0x2F (0 : BitVec 6) (0 : BitVec 6) (0 : BitVec 6) 1)
  | .drainSlice c => some (packR c 0x2F (0 : BitVec 6) (0 : BitVec 6) (0 : BitVec 6) 2)
  | .drainMsg c => some (packR c 0x2F (0 : BitVec 6) (0 : BitVec 6) (0 : BitVec 6) 3)
  | .drainMx c => some (packR c 0x2F (0 : BitVec 6) (0 : BitVec 6) (0 : BitVec 6) 4)
  | .drainTrav c => some (packR c 0x2F (0 : BitVec 6) (0 : BitVec 6) (0 : BitVec 6) 5)
  | .drainWalk c => some (packR c 0x2F (0 : BitVec 6) (0 : BitVec 6) (0 : BitVec 6) 6)
  | .drainAll c => some (packR c 0x2F (0 : BitVec 6) (0 : BitVec 6) (0 : BitVec 6) 7)
  | .bra c off => some (packJ c 0x30 off)
  | .jpt s off => some (packJ ⟨s, 7⟩ 0x31 off)
  | .call c off => some (packJ c 0x32 off)
  | .brx c a => some (packR c 0x33 (0 : BitVec 6) a (0 : BitVec 6) 0)
  | .callx c d a => some (packR c 0x33 d a (0 : BitVec 6) 1)
  | .ret c a => some (packR c 0x33 (0 : BitVec 6) a (0 : BitVec 6) 2)
  | .barSync c n => some (packR c 0x35 ((0 : BitVec 2) ++ n) (0 : BitVec 6) (0 : BitVec 6) 0)
  | .barArrive c n => some (packR c 0x35 ((0 : BitVec 2) ++ n) (0 : BitVec 6) (0 : BitVec 6) 1)
  | .barWait c n => some (packR c 0x35 ((0 : BitVec 2) ++ n) (0 : BitVec 6) (0 : BitVec 6) 2)
  | .barxExpect c n b => some (packR c 0x35 ((0 : BitVec 2) ++ n) (0 : BitVec 6) b 3)
  | .barxWait c n => some (packR c 0x35 ((0 : BitVec 2) ++ n) (0 : BitVec 6) (0 : BitVec 6) 4)
  | .joinw c a => some (packR c 0x35 (0 : BitVec 6) a (0 : BitVec 6) 8)
  | .joinwRecheck _ _ => none
  | .cpLd s d b => some (packX s 0x38 0x00 d (0 : BitVec 6) b)
  | .cpSt s d b => some (packX s 0x38 0x01 d (0 : BitVec 6) b)
  | .cpLdz s d b => some (packX s 0x38 0x02 d (0 : BitVec 6) b)
  | .cpFill s d b => some (packX s 0x38 0x03 d (0 : BitVec 6) b)
  | .cpCpy s d b => some (packX s 0x38 0x04 d (0 : BitVec 6) b)
  | .cpSlw s d b => some (packX s 0x38 0x05 d (0 : BitVec 6) b)
  | .cpGather s d b => some (packX s 0x38 0x08 d (0 : BitVec 6) b)
  | .cpScatter s d b => some (packX s 0x38 0x09 d (0 : BitVec 6) b)
  | .cpStatus s d b => some (packX s 0x38 0x10 d (0 : BitVec 6) b)
  | .copyCompletion _ _ => none
  | .mxCtx s d => some (packX s 0x39 0x00 d (0 : BitVec 6) (0 : BitVec 6))
  | .mxLda s d a b => some (packX s 0x39 0x01 d a b)
  | .mxLdb s d a => some (packX s 0x39 0x02 d a (0 : BitVec 6))
  | .mxMma s d a b => some (packX s 0x39 0x03 d a b)
  | .mxMmaR s d a b => some (packX s 0x39 0x04 d a b)
  | .mxMmas s d a b => some (packX s 0x39 0x05 d a b)
  | .mxMmasR s d a b => some (packX s 0x39 0x06 d a b)
  | .mxZero s d a => some (packX s 0x39 0x08 d a (0 : BitVec 6))
  | .mxStacc s d a b => some (packX s 0x39 0x09 d a b)
  | .mxLdacc s d a b => some (packX s 0x39 0x0A d a b)
  | .mxScale s d a b => some (packX s 0x39 0x0B d a b)
  | .mxSmax s d a b => some (packX s 0x39 0x0C d a b)
  | .mxSnorm s d a => some (packX s 0x39 0x0D d a (0 : BitVec 6))
  | .mxFence s d => some (packX s 0x39 0x0E d (0 : BitVec 6) (0 : BitVec 6))
  | .mxWait s d => some (packX s 0x39 0x0F d (0 : BitVec 6) (0 : BitVec 6))
  | .mxRel s d a => some (packX s 0x39 0x10 d a (0 : BitVec 6))
  | .mxeDispatch _ => none
  | .dlBind s d a b => some (packX s 0x3A 0x00 d a b)
  | .dlRun s d a b => some (packX s 0x3A 0x01 d a b)
  | .dlFull s d a b => some (packX s 0x3A 0x02 d a b)
  | .dlInv s d b => some (packX s 0x3A 0x03 d (0 : BitVec 6) b)
  | .dlQry s d a b => some (packX s 0x3A 0x04 d a b)
  | .dlCfg s d a b => some (packX s 0x3A 0x05 d a b)
  | .dlDropall s d b => some (packX s 0x3A 0x08 d (0 : BitVec 6) b)
  | .trLaunch s d a b => some (packX s 0x3B 0x00 d a b)
  | .trResume s d a b => some (packX s 0x3B 0x01 d a b)
  | .trCqcfg s d a b => some (packX s 0x3B 0x02 d a b)
  | .trDtab s d a b => some (packX s 0x3B 0x04 d a b)
  | .trProg s d a b => some (packX s 0x3B 0x05 d a b)
  | .pfArm s d a b => some (packX s 0x3B 0x08 d a b)
  | .pfDisarm s d b => some (packX s 0x3B 0x09 d (0 : BitVec 6) b)
  | .msgSend s d a b => some (packX s 0x3C 0x00 d a b)
  | .msgSendl s d a b => some (packX s 0x3C 0x01 d a b)
  | .msgMcast s d a b => some (packX s 0x3C 0x02 d a b)
  | .msgWake s d a b => some (packX s 0x3C 0x03 d a b)
  | .msgMask s d b => some (packX s 0x3C 0x04 d (0 : BitVec 6) b)
  | .msgUnmask s d b => some (packX s 0x3C 0x05 d (0 : BitVec 6) b)
  | .msgPend s d => some (packX s 0x3C 0x06 d (0 : BitVec 6) (0 : BitVec 6))
  | .msgHbind s d a b => some (packX s 0x3C 0x08 d a b)
  | .messageArrival _ => none
  | .sendReply _ => none
  | .sendRetry _ => none
  | .overflowRecordMove _ _ _ => none
  | .wakeArrival _ => none
  | .handlerWaveStart _ _ => none
  | .linkReplay _ => none
  | .capNew s d a b => some (packX s 0x3D 0x00 d a b)
  | .capFwd s d b => some (packX s 0x3D 0x01 d (0 : BitVec 6) b)
  | .capIns s d a b => some (packX s 0x3D 0x02 d a b)
  | .capDel s d b => some (packX s 0x3D 0x03 d (0 : BitVec 6) b)
  | .capSet s d a b => some (packX s 0x3D 0x04 d a b)
  | .capRet s d b => some (packX s 0x3D 0x05 d (0 : BitVec 6) b)
  | .capPark s d b => some (packX s 0x3D 0x06 d (0 : BitVec 6) b)
  | .capLoad s d a b => some (packX s 0x3D 0x07 d a b)
  | .capsuleArrival _ => none
  | .capsuleSlotEntry _ _ => none
  | .launch s d a => some (packX s 0x3E 0x00 d a (0 : BitVec 6))
  | .forkL s d a b => some (packX s 0x3E 0x01 d a b)
  | .forkG s d a b => some (packX s 0x3E 0x02 d a b)
  | .engw s d a b => some (packX s 0x3E 0x04 d a b)
  | .engr s d b => some (packX s 0x3E 0x05 d (0 : BitVec 6) b)
  | .strcfg s d a b => some (packX s 0x3E 0x06 d a b)
  | .prio s d b => some (packX s 0x3E 0x07 d (0 : BitVec 6) b)
  | .lClassResultWrite _ _ _ => none
  | .implicitSwitch _ _ => none
  | .reconvergence _ _ => none
  | .pathRestore _ _ => none
  | .ageingPromotion _ _ => none
  | .yieldRelease _ _ => none
  | .watchdogExpiry _ => none
  | .hostLaunchRead _ _ => none
  | .gangPlacement _ => none
  | .launchCompletion _ => none
  | .groupResourceRelease _ _ => none
  | .taskWaveStart _ _ => none
  | .dequeSteal _ _ => none
  | .hawkerInterval _ => none
  | .dequeShipmentArrival _ => none
  | .preemption _ => none
  | .gangResume _ => none
  | .gangSwitchOut _ _ => none
  | .faultReplay _ _ _ => none
  | .storePerform _ _ => none
  | .mergeWindowClose _ _ => none
  | .prefetchThreadStart _ _ => none
  | .trpThreadStart _ => none
  | .cqBatchForm _ _ => none
  | .cqBatchTimeout _ _ => none
  | .cqPostResume _ _ => none
  | .handoffArrival _ => none
  | .handoffReturn _ => none
  | .ualinkLinkDown => none
  | .peerRequest _ _ => none
  | .peerAtomicRequest _ _ => none
  | .contextTermination _ _ => none
  | .softError _ => none
  | .hostMemoryRequest _ => none
  | .doorbell _ _ => none
  | .versionSelect _ _ _ => none
  | .registerWrite _ _ => none
  | .droopRead _ => none
  | .functionLevelReset => none
  | .verticalBlank _ => none
  | .powerManagerDecision => none
  | .thermalTrip _ => none
  | .deviceReset _ => none
  | .getVersion => none
  | .getCapabilities => none
  | .negotiateAlgorithms _ _ => none
  | .getDigests => none
  | .getCertificate _ _ _ => none
  | .challenge _ _ => none
  | .getMeasurements _ => none
  | .spdmUnsupportedRequest _ => none
  | .tnop => some (packT 0x00 (0 : BitVec 4) (0 : BitVec 4) (0 : BitVec 4) (0 : BitVec 14))
  | .tadd d a b => some (packT 0x01 d a b (0 : BitVec 14))
  | .tsub d a b => some (packT 0x01 d a b (1 : BitVec 14))
  | .tand d a b => some (packT 0x01 d a b (2 : BitVec 14))
  | .tor d a b => some (packT 0x01 d a b (3 : BitVec 14))
  | .txor d a b => some (packT 0x01 d a b (4 : BitVec 14))
  | .tshl d a b => some (packT 0x01 d a b (5 : BitVec 14))
  | .tshr d a b => some (packT 0x01 d a b (6 : BitVec 14))
  | .tsra d a b => some (packT 0x01 d a b (7 : BitVec 14))
  | .tmin d a b => some (packT 0x01 d a b (8 : BitVec 14))
  | .tmax d a b => some (packT 0x01 d a b (9 : BitVec 14))
  | .tminu d a b => some (packT 0x01 d a b (10 : BitVec 14))
  | .tmaxu d a b => some (packT 0x01 d a b (11 : BitVec 14))
  | .tmul d a b => some (packT 0x01 d a b (12 : BitVec 14))
  | .tfadd d a b => some (packT 0x02 d a b (0 : BitVec 14))
  | .tfsub d a b => some (packT 0x02 d a b (1 : BitVec 14))
  | .tfmul d a b => some (packT 0x02 d a b (2 : BitVec 14))
  | .tfmin d a b => some (packT 0x02 d a b (3 : BitVec 14))
  | .tfmax d a b => some (packT 0x02 d a b (4 : BitVec 14))
  | .taddi d a imm => some (packT 0x03 d a (0 : BitVec 4) imm)
  | .tandi d a imm => some (packT 0x04 d a (0 : BitVec 4) imm)
  | .tori d a imm => some (packT 0x05 d a (0 : BitVec 4) imm)
  | .tshli d a n => some (packT 0x06 d a (0 : BitVec 4) ((0 : BitVec 7) ++ (0 : BitVec 2) ++ n))
  | .tshri d a n => some (packT 0x06 d a (0 : BitVec 4) ((0 : BitVec 7) ++ (1 : BitVec 2) ++ n))
  | .tsrai d a n => some (packT 0x06 d a (0 : BitVec 4) ((0 : BitVec 7) ++ (2 : BitVec 2) ++ n))
  | .troli d a n => some (packT 0x06 d a (0 : BitVec 4) ((0 : BitVec 7) ++ (3 : BitVec 2) ++ n))
  | .tlui d imm => some (packTL 0x07 d imm)
  | .tbr cond a b off => some (packT 0x08 (cond.toBits.setWidth 4) a b off)
  | .trsrReclo d => some (packT 0x09 d (0 : BitVec 4) (0 : BitVec 4) (0 : BitVec 14))
  | .trsrRechi d => some (packT 0x09 d (0 : BitVec 4) (0 : BitVec 4) (1 : BitVec 14))
  | .trsrTag d => some (packT 0x09 d (0 : BitVec 4) (0 : BitVec 4) (2 : BitVec 14))
  | .trsrThread d => some (packT 0x09 d (0 : BitVec 4) (0 : BitVec 4) (3 : BitVec 14))
  | .nfetch a n => some (packT 0x10 (0 : BitVec 4) a (0 : BitVec 4) ((0 : BitVec 10) ++ n))
  | .ndec n => some (packT 0x11 (0 : BitVec 4) (0 : BitVec 4) (0 : BitVec 4) ((0 : BitVec 10) ++ n))
  | .ngetKind d => some (packT 0x12 d (0 : BitVec 4) (0 : BitVec 4) (0 : BitVec 14))
  | .ngetCnt d => some (packT 0x12 d (0 : BitVec 4) (0 : BitVec 4) (1 : BitVec 14))
  | .ngetChild d k => some (packT 0x12 d (0 : BitVec 4) (0 : BitVec 4) ((0 : BitVec 7) ++ k ++ (2 : BitVec 4)))
  | .ngetKeylo d k => some (packT 0x12 d (0 : BitVec 4) (0 : BitVec 4) ((0 : BitVec 6) ++ k ++ (3 : BitVec 4)))
  | .ngetKeyhi d k => some (packT 0x12 d (0 : BitVec 4) (0 : BitVec 4) ((0 : BitVec 6) ++ k ++ (4 : BitVec 4)))
  | .ngetPeer d => some (packT 0x12 d (0 : BitVec 4) (0 : BitVec 4) (5 : BitVec 14))
  | .ngetRemote d => some (packT 0x12 d (0 : BitVec 4) (0 : BitVec 4) (6 : BitVec 14))
  | .ngetWord d n => some (packT 0x12 d (0 : BitVec 4) (0 : BitVec 4) (n ++ (0 : BitVec 3) ++ (8 : BitVec 4)))
  | .tld d a off => some (packT 0x13 d a (0 : BitVec 4) off)
  | .tqld a n => some (packT 0x14 (0 : BitVec 4) a (0 : BitVec 4) ((0 : BitVec 11) ++ n))
  | .tpfNc a => some (packT 0x15 (0 : BitVec 4) a (0 : BitVec 4) (0 : BitVec 14))
  | .tpfL1 a => some (packT 0x15 (0 : BitVec 4) a (0 : BitVec 4) (1 : BitVec 14))
  | .tbox d a => some (packT 0x18 d a (0 : BitVec 4) (0 : BitVec 14))
  | .ttri d a n => some (packT 0x19 d a (0 : BitVec 4) ((0 : BitVec 12) ++ n))
  | .tdistL2 d a n => some (packT 0x1A d a (0 : BitVec 4) ((0 : BitVec 10) ++ (0 : BitVec 1) ++ n))
  | .tdistDot d a n => some (packT 0x1A d a (0 : BitVec 4) ((0 : BitVec 10) ++ (1 : BitVec 1) ++ n))
  | .tkeyLt d a => some (packT 0x1B d a (0 : BitVec 4) (0 : BitVec 14))
  | .tkeyLe d a => some (packT 0x1B d a (0 : BitVec 4) (1 : BitVec 14))
  | .tpush a => some (packT 0x20 (0 : BitVec 4) a (0 : BitVec 4) (0 : BitVec 14))
  | .tpushc a => some (packT 0x21 (0 : BitVec 4) a (0 : BitVec 4) (0 : BitVec 14))
  | .tpop d off => some (packT 0x22 d (0 : BitVec 4) (0 : BitVec 4) off)
  | .tdepth d => some (packT 0x23 d (0 : BitVec 4) (0 : BitVec 4) (0 : BitVec 14))
  | .emit a => some (packT 0x28 (0 : BitVec 4) a (0 : BitVec 4) (0 : BitVec 14))
  | .endDone a => some (packT 0x29 (0 : BitVec 4) a (0 : BitVec 4) (0 : BitVec 14))
  | .endMiss a => some (packT 0x29 (0 : BitVec 4) a (0 : BitVec 4) (1 : BitVec 14))
  | .susp d a b => some (packT 0x2A d a b (0 : BitVec 14))
  | .thand => some (packT 0x2B (0 : BitVec 4) (0 : BitVec 4) (0 : BitVec 4) (0 : BitVec 14))
  | .decodeTrap _ => none
  | .traversalWordNotInstruction _ => none
  | .instructionFetchFault _ => none
  | .reservingGang _ => none
  | .driverRequest _ => none
  | .ualinkLinkUp _ _ _ => none
  | .uncorrectableError _ _ => none
  | .droopEvent _ => none

/-- A word in isolation, as the opcode table numbers its bits. The same word may be a wave
instruction and a traversal instruction; the wave reading, by a service core, comes first. -/
noncomputable def decodeTableWord (nbits w : Nat) : Option Instr :=
  let x : Word := BitVec.ofNat 32 (w % 2 ^ nbits)
  match decodeWave true x with
  | .ok i => some i
  | .bad _ => match decodeTrav x with
    | .ok i => some i
    | .bad _ => none

end Sys2Proof
end

