-- ==== Sys2Proof/Machine/Issue.lean ====
section
/-! DEFINITION. What a turn does before an instruction has its effect: the passing of time (R85, R155),
the choice of a wave (R152, R153) and of a path (R140), the fetch (R249) and the decoding (R42); the
acts that are no instruction. -/

namespace Sys2Proof.Machine

/-! ## Time -/

/-- A microsecond in the unit of the wall clock: the least number of units of which a cycle at each of 1350, 1400 to
1700 MHz takes a whole number (R3, R453). -/
def usec : Nat := 254186856000

/-- Time passes: the clock, the wall clock by what the cycles take at the present step of the clock (R3), and the
watchdog of each context with a resident group. -/
def State.tick (s : State) (dt : Nat) : State :=
  { s with
    clock := s.clock + dt
    wall := s.wall + dt * (usec / s.mhz)
    ctxs := s.ctxs.map fun c =>
      if s.groups.any fun g => g.asid == c.asid then { c with wdog := c.wdog + dt } else c }

/-! ## Readiness -/

/-- An operation of a core is still in flight, by its id (R199, R238). -/
def State.alive (s : State) (core id : Nat) : Bool :=
  let c := s.core core
  (c.copies.any fun x => x.id == id) || (s.cores.any fun e => e.2.sq.any fun x => x.id == id) ||
  (s.cores.any fun e => e.2.parking.any fun x => x.cmd == some id) || (c.trp.threads.any fun t => t.cmd == id) ||
  (c.trp.queue.any fun t => t.cmd == id) || (s.cmds.any fun x => x.id == id) ||
  (s.sends.any fun x => x.cmd == id) || (s.net.any fun x => x.id == id) ||
  ((s.cluster (clusterOf core)).fctx.any fun f => f.inbox.any fun m => m.id == id) ||
  s.outstanding core id || (isService core && s.outstanding (160 + clusterOf core) id)

/-- A mailbox holds an entry of a kind in a mask (R394). -/
def mailFor (mask : BitVec 5) (m : Mail) : Bool := mask == 0 || mask.getLsbD m.kind

/-- Every result of the wave is written and every held access replayed (R132, R264). -/
def State.atRest (s : State) (w : Wave) : Bool := w.pend.isEmpty && !s.faulted w

/-- A wave whose context is stopped parks at its switch points (R177, R405). -/
def State.stops (s : State) (w : Wave) : Bool := !isService w.core && !s.runsOn (s.asidOf w) w.core

/-- A TLBSYNC of a service core still waits for a fault record: it was posted before a TLBI of that core reached its
cluster, and TLBW has not answered it (R262). -/
def FRec.awaits (r : FRec) (by_ : Nat) : Bool := !r.missing && r.tlbis.any fun t => t.by_ == by_

/-- A status in which the wave may issue (R152). -/
def State.mayRun (s : State) (w : Wave) : Bool :=
  match w.stat with
  | .run => Nat.blt w.count 64
  | .switch => s.atRest w && w.excs.isEmpty && !s.stops w
  | .yielded t offer => s.atRest w && w.excs.isEmpty && (Nat.ble t s.clock || offer.isEmpty) && !s.stops w
  | .resume t => s.atRest w && Nat.ble t s.clock && !s.stops w
  | .drain ids sw _ => !(ids.any fun i => s.alive w.core i) && (!sw || (s.atRest w && !s.stops w))
  | .tlbsync recs => recs.all fun r => match s.rec? r.1 r.2.1 r.2.2 with
    | some x => !x.awaits w.core
    | none => true
  | .stall => !s.faulted w
  | .halt mask => (s.core w.core).mail.any (mailFor mask)
  | _ => false

/-- A ready wave (R152): it has a path that can issue, a change of path waits for the end of the run
(R132), and no merge or restoration is due (R139, R141). -/
def State.readyWave (s : State) (w : Wave) : Bool :=
  s.mayRun w && w.reconverge?.isNone && w.restore?.isNone &&
  match w.choose with
  | none => false
  | some p => p.made == w.cur || (s.atRest w && !s.stops w)

/-- The ready waves of a partition. -/
def State.readyIn (s : State) (core part : Nat) : List Wave :=
  s.waves.filter fun w => w.core == core && partOf w.slot == part && s.readyWave w

/-- Every ready path is demoted. -/
def Wave.allDemoted (w : Wave) : Bool :=
  w.paths.all fun p => !p.ready || p.demoted

/-- The ageing threshold of a wave (R153). -/
def State.threshold (s : State) (w : Wave) : Nat :=
  match s.launch? (s.lidOf w) with
  | some l => if l.recd.age == 0 then 64 else l.recd.age
  | none => 64

/-- The wave is due for promotion (R153). -/
def State.promotable (s : State) (w : Wave) : Bool :=
  w.promoted.isNone && Nat.ble (s.threshold w) w.age

/-- Wave `a` goes before wave `b` by steps 2 to 5 of R152. -/
def beforeTie (a b : Wave) : Bool :=
  if a.allDemoted != b.allDemoted then b.allDemoted
  else if a.prio != b.prio then Nat.blt b.prio.toNat a.prio.toNat
  else if a.age != b.age then Nat.blt b.age a.age
  else Nat.blt a.slot b.slot

/-- Wave `a` goes before wave `b`: promoted waves first, the earliest promotion first, and then by the later steps
(R152). -/
def before (a b : Wave) : Bool :=
  match a.promoted, b.promoted with
  | some x, some y => if x == y then beforeTie a b else Nat.blt x y
  | some _, none => true
  | none, some _ => false
  | none, none => beforeTie a b

/-- The wave that a partition issues (R152). -/
def firstWave : List Wave → Option Wave
  | [] => none
  | a :: t => match firstWave t with
    | none => some a
    | some b => some (if before b a then b else a)

/-- The other ready waves of the partition age, and a wave that yields has seen one offer (R145, R153). -/
def State.ageOthers (s : State) (w : Wave) : State :=
  let mine := s.readyIn w.core (partOf w.slot)
  { s with waves := s.waves.map fun v =>
      if v.core == w.core && partOf v.slot == partOf w.slot && v.slot != w.slot then
        let v : Wave := match v.stat with
          | .yielded t offer => { v with stat := .yielded t (offer.filter fun k => k != w.slot) }
          | _ => v
        if mine.any fun (x : Wave) => x.slot == v.slot then { v with age := v.age + 1 } else v
      else v }

/-- The wave goes on: after a switch point, a wait or a resumption a run begins (R131). -/
def Wave.goesOn (w : Wave) : Wave :=
  match w.stat with
  | .run => w
  | .stall => { w with stat := .run }
  | .halt _ => { w with stat := .run }
  | .tlbsync _ => { w with stat := .run }
  | .drain _ sw _ => if sw then w.newRun else { w with stat := .run }
  | _ => w.newRun

/-- A DRAIN that is a switch point has ended, and an exception of the run parks the wave (R95). -/
def Wave.drainExc (w : Wave) : Bool :=
  match w.stat with
  | .drain _ sw _ => sw && !w.excs.isEmpty
  | _ => false

/-- The current path of a wave that issues; a change of path begins a run (R131, R140). -/
def Wave.onPath (w : Wave) (p : Path) : Wave :=
  let w := w.goesOn
  if p.made == w.cur then w else { w.newRun with cur := p.made }

/-! ## Fetch -/

/-- The word at a PC, from the instruction cache or its home (R249); none when the fetch faults. -/
def State.fetchWord (s : State) (w : Wave) (pc : DWord) : Option Word × State :=
  match s.resolve w { grp := 0, lane := 0, va := pc, pc, kind := .fetch } with
  | (.ok pa _, s) =>
    if !s.windowOk (s.asidOf w) pa then (none, s)
    else match assoc (s.core w.core).ic (pa / 4) with
      | some x => (some x, s)
      | none =>
        let (b, s) := s.bankRead (s.asidOf w) pa 4
        let x : Word := BitVec.ofNat 32 (leNat b)
        (some x, s.modCore w.core fun c => { c with ic := (pa / 4, x) :: c.ic })
  | (_, s) => (none, s)

/-! ## Turns -/

/-- What a turn comes to: a state, or an instruction or event to execute. -/
inductive Prep where
  | done (s : State)
  | run (i : Instr) (s : State)

/-- The wave and the path that a partition issues, with the state in which they do; a path at its join
waits there (R139). -/
def State.issueWave (s : State) (core part : Nat) : Option (Wave × Path) × State :=
  match firstWave (s.readyIn core part) with
  | none => (none, s)
  | some w =>
    let s := match w.stat with
      | .drain _ _ path => s.acquirePath core path
      | _ => s
    if w.drainExc then (none, s.sendExc { w with stat := .switch })
    else if (s.readyIn core part).any s.promotable then (none, s)
    else match w.choose with
      | none => (none, s)
      | some p =>
        if p.pc == p.join then
          (none, s.setWave ((w.onPath p).modPath p.made fun q => { q with waiting := true }))
        else
          let s := s.ageOthers w
          let w := { w.onPath p with age := 0, promoted := none }
          (some (w, p), { s.setWave w with selCore := core, selSlot := w.slot })

/-- A partition issues: the fetched word decodes to an instruction, or it traps, or the fetch faults. -/
noncomputable def State.prepIssue (s : State) (core part : Nat) : Prep :=
  match s.issueWave core part with
  | (none, s) => .done s
  | (some (w, p), s) =>
    match s.fetchWord w p.pc with
    | (none, s) => .run (.instructionFetchFault p.pc) s
    | (some x, s) =>
      match decodeWave (isService core) x with
      | .ok i => .run i (s.modWave core w.slot fun w => { w with word := x, bad := none })
      | .bad c => .run (.decodeTrap x) (s.modWave core w.slot fun w => { w with word := x, bad := some c })

/-- A thread may issue: with an extension it stops with its context at the next instruction boundary (R389). -/
def State.threadReady (s : State) (core : Nat) (t : Thread) : Bool :=
  t.stat == .ready && (t.ext == 0 || t.kind != .record || s.runsOn t.asid core)

/-- The ready thread of a TRP that issues next, round robin (R357). -/
def Trp.choose (t : Trp) (ready : Thread → Bool) : Option Thread :=
  match (List.range 64).find? fun k =>
      t.threads.any fun (th : Thread) => ready th && th.num == (t.last + 1 + k) % 64 with
  | none => none
  | some k => t.threads.find? fun (th : Thread) => ready th && th.num == (t.last + 1 + k) % 64

/-- Replaces a thread of a core. -/
def State.setThread (s : State) (core : Nat) (t : Thread) : State :=
  s.modCore core fun c =>
    { c with trp := { c.trp with
        threads := c.trp.threads.map fun x => if x.num == t.num then t else x } }

/-- A TRP issues the next instruction of a thread (R357). A PC outside the program reads as a word that
is no instruction. -/
noncomputable def State.prepTrav (s : State) (core : Nat) : Prep :=
  match (s.core core).trp.choose (s.threadReady core) with
  | none => .done s
  | some t =>
    let s := s.modCore core fun c => { c with trp := { c.trp with last := t.num } }
    let s := { s with selCore := core, selSlot := t.num }
    let x := t.words.getD t.pc 0xFFFFFFFF
    match decodeTrav x with
    | .ok i => .run i (s.setThread core { t with word := x, bad := none })
    | .bad c => .run (.traversalWordNotInstruction x) (s.setThread core { t with word := x, bad := some c })

/-- A row of the table that is a step of its own: it has no encoding, and no instruction under way
brings it about. -/
def isEvent (i : Instr) : Bool :=
  (encode i).isNone && match i with
    | .decodeTrap _ => false
    | .traversalWordNotInstruction _ => false
    | .instructionFetchFault _ => false
    | _ => true

/-- A request of the host, which is answered although the core clock is stopped, or a conventional reset (R454). -/
def fromHost (i : Instr) : Bool :=
  match i with
  | .hostMemoryRequest _ => true
  | .doorbell _ _ => true
  | .versionSelect _ _ _ => true
  | .registerWrite _ _ => true
  | .droopRead _ => true
  | .functionLevelReset => true
  | .deviceReset _ => true
  | .getVersion => true
  | .getCapabilities => true
  | .negotiateAlgorithms _ _ => true
  | .getDigests => true
  | .getCertificate _ _ _ => true
  | .challenge _ _ => true
  | .getMeasurements _ => true
  | .spdmUnsupportedRequest _ => true
  | _ => false

end Sys2Proof.Machine
end

