-- ==== Sys2Proof/Machine/Control.lean ====
section
/-! DEFINITION. The meanings of NOP, EXIT and YIELD, the branches, the barriers and JOINW, and of the
steps of runs and paths (R131 to R153). -/

namespace Sys2Proof.Machine

/-- The operands of an instruction that reads nothing but its guard. -/
def guardUse (g : BitVec 3) : Use := laneUse g [] [] [] []

/-- The instruction has issued and has set the PCs itself (R132, R133). -/
def Wave.counted (w : Wave) (sw : Bool) : Wave :=
  { w with count := w.count + 1, stat := if sw && w.stat == .run then .switch else w.stat }

/-- NOP: no effect but its place in the run (R26). -/
def execNop (c : Ctl) (s : State) : Out := withWave s fun w _ => s.settle (w.retire c.s)

/-- EXIT: the active lanes with a true guard end; helper lanes end with their quads (R144). -/
def execExit (c : Ctl) (s : State) : Out :=
  withWave s fun w p =>
    match s.ready w p (guardUse c.p) (w.guarded c.p (w.lanesOfPath p) &&& ~~~w.helper) with
    | .stop s => s
    | .go s w _ act =>
      let w := w.retire c.s
      if act == 0 then s.settle w else s.exitLanes w act 0x30D

/-- YIELD: a switch point after which the other ready waves of the partition come first (R145). -/
def execYield (c : Ctl) (s : State) : Out :=
  waveOp s c.s c.p [] [] [] [] [] [] fun s w _ _ _ _ _ =>
    let others := (s.readyIn w.core (partOf w.slot)).filter fun v => v.slot != w.slot
    s.settle { w.retire false with stat := .yielded (s.clock + 16) (others.map fun v => v.slot) }

/-! ## Branches -/

/-- The target of a J form (R35). -/
def jTarget (pc : DWord) (off : BitVec 22) : DWord := pc + (off.signExtend 64 <<< 2)

/-- The next PC of a lane by its own guard and target (R138). -/
def ownNext (p : Path) (taken : Lanes) (target : Nat → DWord) (l : Nat) : DWord :=
  if taken.getLsbD l then target l else p.pc + 4

/-- Where helper lanes that have no target of their own among those of the other lanes go: with the lowest of the other
lanes; a path of helper lanes alone goes where its lowest lane goes (log entry 33). -/
def leadNext (p : Path) (all helper taken : Lanes) (target : Nat → DWord) : DWord :=
  match lowest (all &&& ~~~helper) with
  | some k => ownNext p taken target k
  | none => match lowest all with
    | some k => let x := ownNext p taken target k; if x.toNat % 4 == 0 then x else p.pc + 4
    | none => p.pc + 4

/-- Where the lanes of a path go: the taken ones to their targets, the others to PC + 4 (R138). Helper lanes are no active
lanes (R20), so they make no target of their own. -/
def laneTargets (p : Path) (all helper taken : Lanes) (target : Nat → DWord) : List (DWord × Lanes) :=
  let own := ownNext p taken target
  let shared (x : DWord) : Bool := (lanesOf (all &&& ~~~helper)).any fun k => own k == x
  splitTargets ((lanesOf all).map fun l =>
    (l, if helper.getLsbD l && !shared (own l) then leadNext p all helper taken target else own l))

/-- A branch: the guard, the operands, a link pair to write, and the target of each taken lane
(R138, R142, R143). Its effects and its trap are those of the active lanes, which helper lanes are not (R20). -/
def branchOp (c : Ctl) (a : Option Reg) (link : Option Reg) (target : Wave → Path → Nat → DWord)
    (s : State) : Out :=
  withWave s fun w p =>
    let srcs := match a with
      | some r => [(r, 2)]
      | none => []
    let dsts := match link with
      | some r => [(r, 2)]
      | none => []
    let u := laneUse c.p srcs dsts [] []
    let all := w.lanesOfPath p
    match s.ready w p u (w.guarded c.p all) with
    | .stop s => s
    | .go s w v act =>
      let ts := laneTargets p all w.helper act (target v p)
      let real := act &&& ~~~w.helper
      if (lanesOf real).any fun l => (target v p l).toNat % 4 != 0 then s.trapBy w p 0x012
      else if w.overflows p ts then s.trapBy w p 0x011
      else
        let w := match link with
          | some r => w.writeAll ((lanesOf real).map fun l => pairOf r l (p.pc + 4)).flatten
          | none => w
        let w := (w.branch p ts).counted c.s
        (s.settle w).storeSpills w

/-- BRA (R142). -/
def execBra (c : Ctl) (off : BitVec 22) (s : State) : Out :=
  branchOp c none none (fun _ p _ => jTarget p.pc off) s
/-- JPT: arms the join of the path (R138, R142). -/
def execJpt (sw : Bool) (off : BitVec 22) (s : State) : Out :=
  withWave s fun w p =>
    s.settle ((w.modCur fun q => { q with armed := true, armPc := jTarget p.pc off }).retire sw)
/-- CALL: the link goes to g2:g3 (R142). -/
def execCall (c : Ctl) (off : BitVec 22) (s : State) : Out :=
  branchOp c none (some 2) (fun _ p _ => jTarget p.pc off) s
/-- BRX (R143). -/
def execBrx (c : Ctl) (a : Reg) (s : State) : Out :=
  branchOp c (some a) none (fun v _ l => v.readG2 a l) s
/-- CALLX: the target is read before the link is written (R143). -/
def execCallx (c : Ctl) (d a : Reg) (s : State) : Out :=
  branchOp c (some a) (some d) (fun v _ l => v.readG2 a l) s
/-- RET (R143). -/
def execRet (c : Ctl) (a : Reg) (s : State) : Out :=
  branchOp c (some a) none (fun v _ l => v.readG2 a l) s

/-! ## Barriers -/

/-- The first condition of R148 that a barrier instruction meets, after the decode check. -/
def State.barTrap (s : State) (w : Wave) (p : Path) (n : Nat) (waits arrives isWait : Bool) :
    Option Cause :=
  if waits && w.isHandler then some 0x300
  else
    match s.groupOf w with
    | none => some 0x013
    | some g =>
      let b := Tab.get {} g.barriers n
      let task := match w.kind with
        | .task _ _ => true
        | _ => false
      if Nat.ble g.bars n then some 0x013
      else if task || (arrives && b.arrivals.any fun k => k == w.slot) ||
          (isWait && Tab.get 0 w.arrived n == 0) then some 0x014
      else if (w.live &&& ~~~p.mask) != 0 then some 0x015
      else none

/-- An entry of a store queue that the other waves of its group would not read from the queue. -/
def SQ.unseen (e : SQ) : Bool := inLocal e.pa || !(e.isStore && e.needs.isEmpty)

/-- A release at group scope: the wave's reads have returned, and what it wrote is read by the group (R146, R235; log
entry 26). -/
def State.releaseGroup (s : State) (w : Wave) : State :=
  let s := s.flushAll w.core w.slot
  let w := match s.wave? w.core w.slot with
    | some w => w
    | none => w
  let mine := ((s.core w.core).sq.filter fun e => e.slot == w.slot && e.unseen).map fun e => Todo.entry e.id
  s.forceAll w.core (w.readTodos ++ mine)

/-- The wave arrives at a barrier in its present phase (R146); it has issued. -/
def State.arrive (s : State) (w : Wave) (n : Nat) (wait : Bool) : State :=
  match s.groupOf w with
  | none => s
  | some g =>
    let b := Tab.get {} g.barriers n
    let w := { w with arrived := Tab.put 0 w.arrived n (b.phase + 1) }
    let w := if wait then { w with stat := .barrier n b.phase } else w
    let s := (s.setWave w).modGroup w.core w.gslot fun g =>
      { g with barriers := Tab.put {} g.barriers n { b with arrivals := w.slot :: b.arrivals } }
    let s := s.checkBarrier w.core w.gslot n false
    match s.wave? w.core w.slot with
    | some w => s.settle w
    | none => s

/-- A barrier instruction, after the conditions of R148. -/
def barOp (c : Ctl) (n : BitVec 4) (srcs : List (Reg × Nat)) (waits arrives isWait : Bool)
    (f : State → Wave → Wave → Path → Use → Nat → State) (s : State) : Out :=
  waveOp s c.s c.p srcs [] [] [] [] [] fun s w v p u l _ =>
    match s.barTrap w p n.toNat waits arrives isWait with
    | some k => s.trapBy w p k
    | none => f s w v p u l

/-- BAR.SYNC (R147). -/
def execBarSync (c : Ctl) (n : BitVec 4) (s : State) : Out :=
  barOp c n [] true true false (fun s w _ _ _ _ =>
    let s := s.releaseGroup w
    match s.wave? w.core w.slot with
    | some w => s.arrive (w.touch.retire c.s) n.toNat true
    | none => s) s
/-- BAR.ARRIVE (R147). -/
def execBarArrive (c : Ctl) (n : BitVec 4) (s : State) : Out :=
  barOp c n [] false true false (fun s w _ _ _ _ =>
    let s := s.releaseGroup w
    match s.wave? w.core w.slot with
    | some w => s.arrive (w.touch.retire c.s) n.toNat false
    | none => s) s
/-- BAR.WAIT (R147). -/
def execBarWait (c : Ctl) (n : BitVec 4) (s : State) : Out :=
  barOp c n [] true false true (fun s w _ _ _ _ =>
    let phase := match s.groupOf w with
      | some g => (Tab.get {} g.barriers n.toNat).phase
      | none => 0
    let mine := Tab.get 0 w.arrived n.toNat - 1
    let w := w.retire c.s
    s.settle (if Nat.blt mine phase then w else { w with stat := .barrier n.toNat mine })) s
/-- BARX.EXPECT (R147). Where it brings a counter that copies and wakes have made negative to zero, the completion that
follows acquires their writes at device scope (R146, R242). -/
def execBarxExpect (c : Ctl) (n : BitVec 4) (b : Reg) (s : State) : Out :=
  barOp c n [(b, 1)] false false false (fun s w v p u l =>
    let k : Int := (v.readG b l).toNat
    let now := match s.groupOf w with
      | some g => g.bytesAt n.toNat
      | none => 0
    if (2 : Int) ^ 35 - 1 < now + k then s.trapBy w p 0x016
    else (s.settle ((w.bump u).touch.retire c.s)).addBytes w.core w.gslot n.toNat k (decide (now < 0))) s
/-- BARX.WAIT (R147): its continuation acquires at device scope (R242). -/
def execBarxWait (c : Ctl) (n : BitVec 4) (s : State) : Out :=
  barOp c n [] true false false (fun s w _ _ _ _ =>
    let now := match s.groupOf w with
      | some g => g.bytesAt n.toNat
      | none => 0
    let w := w.retire c.s
    if now == 0 then (s.l1Clear w.core).settle w else s.settle { w with stat := .bytes n.toNat }) s

/-! ## JOINW -/

/-- The counter at an address reads zero: the wave goes on, as an acquire at device scope, and the
watchdog restarts (R149, R155). -/
def State.joinGo (s : State) (core slot : Nat) (f : Wave → Wave) : State :=
  let s := s.l1Clear core
  match s.wave? core slot with
  | none => s
  | some w =>
    let s := s.modCtx (s.asidOf w) fun c => { c with wdog := 0 }
    s.settle (f w)

/-- The counter is read at its home bank, after the wave's earlier reads of it (R230) and every earlier write of its core
to its bytes (R195, R237): whether it is zero. It is not read while one of those waits. -/
def State.joinRead (s : State) (w : Wave) (pa : Nat) : Bool × State :=
  let reads := (w.loads.filter fun x => overlaps x.2.1 x.2.2.1 pa 4).map fun x => Todo.load w.slot x.1 x.2.1
  let writes (s : State) : List Todo := ((s.core w.core).sq.filter fun e =>
    overlaps e.range.1 e.range.2 pa 4).map fun e => Todo.entry e.id
  let s := s.forceAll w.core (reads ++ writes s)
  if (writes s).isEmpty then
    let (b, s) := s.bankRead (s.asidOf w) pa 4
    (leNat b == 0, s)
  else (false, s)

/-- JOINW (R149). -/
def execJoinw (c : Ctl) (a : Reg) (s : State) : Out :=
  waveOp s c.s c.p [(a, 2)] [] [] [] [] [] fun s w v p _ l _ =>
    let va := v.readG2 a l
    if w.isHandler then s.trapBy w p 0x300
    else if va.toNat % 4 != 0 then s.trapBy w p 0x140
    else
      let (go, s) := if w.pushing then s.flushFor w.core w.slot [(va, 4)] else (true, s)
      match s.beginAccess w with
      | (false, s) => s.modWave w.core w.slot fun w => { w with stat := .stall }
      | (true, s) =>
        match s.wave? w.core w.slot with
        | none => s
        | some w =>
          if !go then s.stallWave w else
          let (grp, s) := s.fresh
          let x : Acc := { grp, lane := l, va, pc := p.pc, word := w.word, kind := .joinw }
          let later (s : State) : State :=
            (s.setWave { w.retire true with stat := .switch }).issueAccs w.core w.slot none [x]
          if s.pageHeld w va then later s
          else match s.resolve w x with
            | (.ok pa _, s) =>
              if s.windowOk (s.asidOf w) pa then
                let (zero, s) := s.joinRead w pa
                match s.wave? w.core w.slot with
                | none => s
                | some w =>
                  if zero then s.joinGo w.core w.slot fun w => w.retire c.s
                  else s.settle { w.retire c.s with stat := .join va l p.pc }
              else (s.setWave { w.retire true with stat := .switch }).freezeWave w.core w.slot 0x142 [x]
            | (_, s) => later s

/-- JOINW_RECHECK: a waiting JOINW reads the counter again (R149). The read is translated anew and faults as the first one
would (R262); the wave waits on when its fault is replayed. -/
def execJoinwRecheck (core slot : Nat) (s : State) : Out :=
  match s.wave? core slot with
  | none => .next s
  | some w =>
    match w.stat with
    | .join va lane pc =>
      if s.pageHeld w va then .next s
      else
        let (grp, s) := s.fresh
        let x : Acc := { grp, lane, va, pc, word := w.word, kind := .joinw }
        let parked (s : State) : State := s.setWave { w with stat := .switch }
        match s.resolve w x with
        | (.ok pa _, s) =>
          if s.windowOk (s.asidOf w) pa then
            let (zero, s) := s.joinRead w pa
            if zero then .next (s.joinGo core slot fun w => { w with stat := .switch }) else .next s
          else .next ((parked s).freezeWave core slot 0x142 [x])
        | (_, s) => .next ((parked s).issueAccs core slot none [x])
    | _ => .next s

/-! ## Words that are no instruction, and fetches that fault -/

/-- DECODE_TRAP: the word that the wave has fetched fails a check of Table 2-6 (R42, R43). -/
def execDecodeTrap (x : Word) (s : State) : Out :=
  withWave s fun w p =>
    match w.bad with
    | some c => if w.word == x then s.trapBy w p c else s
    | none => s

/-- INSTRUCTION_FETCH_FAULT: the fetch is held on a fault record, or it is a violation of the lanes of the
path (R143, R263, R402). -/
def execInstructionFetchFault (va : BitVec 64) (s : State) : Out :=
  withWave s fun w p =>
    let (grp, s) := s.fresh
    let accs := (lanesOf (w.lanesOfPath p)).map fun l =>
      ({ grp, lane := l, va, pc := p.pc, kind := .fetch } : Acc)
    let s := s.setWave { w with stat := .stall }
    match s.resolve w { grp, lane := 0, va, pc := p.pc, kind := .fetch } with
    | (.ok pa _, s) =>
      if s.windowOk (s.asidOf w) pa then s.setWave w else s.freezeWave w.core w.slot 0x142 accs
    | (_, s) => s.issueAccs w.core w.slot none accs

/-! ## Steps of runs and paths -/

/-- L_CLASS_RESULT_WRITE: the k-th outstanding result of a wave lands (R134). -/
def execLClassResultWrite (core slot k : Nat) (s : State) : Out := .next (s.land core slot k)

/-- IMPLICIT_SWITCH: after 64 instructions of a run the wave is at a switch point (R133). -/
def execImplicitSwitch (core slot : Nat) (s : State) : Out :=
  match s.wave? core slot with
  | some w => .next (if w.stat == .run && Nat.ble 64 w.count then s.settle { w with stat := .switch } else s)
  | none => .next s

/-- RECONVERGENCE: one merge or reconvergence that is due (R139). -/
def execReconvergence (core slot : Nat) (s : State) : Out :=
  match s.wave? core slot with
  | some w =>
    .next (if s.mayRun w then
        (match w.reconverge? with
          | some v => (s.setWave v).storeSpills v
          | none => s)
      else s)
  | none => .next s

/-- PATH_RESTORE: a spilled path comes back (R141). -/
def execPathRestore (core slot : Nat) (s : State) : Out :=
  match s.wave? core slot with
  | some w =>
    .next (if s.mayRun w then
        (match w.restore? with
          | some v => (s.setWave v).storeSpills v
          | none => s)
      else s)
  | none => .next s

/-- AGEING_PROMOTION: a ready wave whose counter has come to the threshold (R153). -/
def execAgeingPromotion (core slot : Nat) (s : State) : Out :=
  match s.wave? core slot with
  | some w =>
    .next (if s.readyWave w && s.promotable w then s.setWave { w with promoted := some s.clock } else s)
  | none => .next s

/-- YIELD_RELEASE: the other ready waves have had their offers, or 16 cycles have passed (R145). -/
def execYieldRelease (core slot : Nat) (s : State) : Out :=
  match s.wave? core slot with
  | some w =>
    match w.stat with
    | .yielded t offer =>
      .next (if Nat.ble t s.clock || offer.isEmpty then s.setWave { w with stat := .switch } else s)
    | _ => .next s
  | none => .next s

end Sys2Proof.Machine
end

