-- ==== Sys2Proof/Machine/Loads.lean ====
section
/-! DEFINITION. Loads and stores (majors 20 to 27, R191 to R195, R239, R240), the shared form of an
instruction whose lanes access memory, and the steps of stores and merge windows. -/

namespace Sys2Proof.Machine

/-! ## The shared form -/

/-- What one lane asks of memory: its accesses, and the results they return. -/
structure LaneReq where
  accs : List Acc
  outs : List (Dst × Src)

/-- An instruction that accesses memory: its marker and guard, whether it names group-local memory, the
size that an address is a multiple of, whether helper lanes act, whether it writes memory, whether it is a
release (at what scope), and whether it is an acquire (with the invalidation of the L1). -/
structure MemOp where
  c : Ctl
  loc : Bool
  size : Nat
  helpers : Bool
  writes : Bool := false
  rel : Option Scope := none
  acq : Option Bool := none

/-- Cluster scope or wider. -/
def wide (sc : Scope) : Bool :=
  match sc with
  | .wave => false
  | .group => false
  | _ => true

/-- Bytes of group-local memory that a wave can name (R184). -/
def State.localLimit (s : State) (w : Wave) : Int :=
  match s.groupOf w with
  | some g => 1024 * (g.localkb : Int)
  | none => 0

/-- The offset of an access lies outside the local memory of the group (R193). -/
def outOfLocal (limit addr : Int) (size : Nat) : Bool := decide (addr < 0 ∨ limit < addr + size)

/-- A release waits while an earlier access of the wave, or of its group where the scope is wide, is held
on a fault record (R264). -/
def State.releaseHeld (s : State) (w : Wave) (sc : Scope) : Bool :=
  s.faulted w || (wide sc && s.groupFaulted w)

/-- The access of a helper lane: where it would fault, its results are zero (R193). -/
def State.helperAcc (s : State) (core slot : Nat) (a : Acc) : State :=
  match s.wave? core slot with
  | none => s
  | some w =>
    if s.pageHeld w a.va then s.giveHeld core slot a 0
    else match s.resolve w a with
      | (.ok pa how, s) =>
        if s.windowOk (s.asidOf w) pa then s.makeAcc core slot a pa how else s.giveHeld core slot a 0
      | (_, s) => s.giveHeld core slot a 0

/-- Makes the accesses of lanes, helper lanes singly. `bad` names the helper lanes whose addresses would
trap. -/
def State.makeLanes (s : State) (w : Wave) (loc : Bool) (bad : Lanes) (accs : List Acc) : State :=
  if loc then
    accs.foldl (fun s a =>
      if bad.getLsbD a.lane then s.giveHeld w.core w.slot a 0
      else s.makeAcc w.core w.slot a (localBase w.core w.gslot + a.va.toNat % 2 ^ 20) 5) s
  else
    let s := (accs.filter fun a => w.helper.getLsbD a.lane).foldl (fun s a =>
      if bad.getLsbD a.lane then s.giveHeld w.core w.slot a 0 else s.helperAcc w.core w.slot a) s
    s.issueAccs w.core w.slot none (accs.filter fun a => !w.helper.getLsbD a.lane)

/-- The lanes of an instruction access memory (R193): misalignment and the local range trap before any
lane acts; then the results are outstanding, the instruction has issued, and the accesses are made. -/
def State.memLanes (s : State) (o : MemOp) (w v : Wave) (p : Path) (u : Use) (act : Lanes)
    (addr : Wave → Nat → Int) (mk : Nat → List Nat → Wave → Nat → DWord → LaneReq) : State :=
  let lanes := if o.helpers then act else act &&& ~~~w.helper
  let limit := s.localLimit w
  let odd (l : Nat) : Bool := addr v l % o.size != 0
  let out (l : Nat) : Bool := o.loc && outOfLocal limit (addr v l) o.size
  let real := lanesOf (lanes &&& ~~~w.helper)
  let held (s : State) : Bool × State :=
    if o.rel.isSome then
      let s := s.flushAll w.core w.slot
      (!s.waves.any fun v => v.at w.core w.slot && v.pushing, s)
    else if o.loc then (true, s)
    else s.flushFor w.core w.slot ((lanesOf lanes).map fun l => (BitVec.ofInt 64 (addr v l), o.size))
  if real.any odd then s.trapBy w p 0x140
  else if real.any out then s.trapBy w p 0x141
  else if (match o.rel with
    | some sc => s.releaseHeld w sc
    | none => false) then s.stallWave w
  else
    let (go, s) := if w.pushing then held s else (true, s)
    match s.beginAccess w with
    | (false, s) => s.modWave w.core w.slot fun w => { w with stat := .stall }
    | (true, s) =>
      if !go then s.modWave w.core w.slot fun w => { w with stat := .stall } else
      let s := match o.rel with
        | some sc => if wide sc then s else s.releaseGroup w
        | none => s
      match s.wave? w.core w.slot with
      | none => s
      | some w =>
        let needs := match o.rel with
          | some sc => if wide sc then s.groupGrps w else []
          | none => []
        let far := if o.rel.isSome then s.groupGrps w else []
        let (grp, s) := s.fresh
        let reqs := (lanesOf lanes).map fun l => mk grp needs v l (BitVec.ofInt 64 (addr v l))
        let checked := s.checkedOf w
        let outs := w.routed grp p.pc (reqs.map fun r => r.outs).flatten
        let w := outs.foldl (fun w r => w.addPend checked r.1 r.2) (w.bump u)
        let w := match o.acq with
          | some clear => { w with acq := w.acq ++ [(grp, clear)] }
          | none => w
        let w := (if o.writes && lanes != 0 then w.touch else w).retire o.c.s
        let bad := maskOf fun l => odd l || out l
        let accs := (reqs.map fun r => r.accs).flatten.map fun a => { a with word := w.word, far }
        let s := (s.setWave w).makeLanes w o.loc bad accs
        let s := if o.acq.isSome then s.finishAcq w.core w.slot else s
        match s.wave? w.core w.slot with
        | some w => s.settle w
        | none => s

/-- An instruction whose lanes access memory. -/
def memOp (o : MemOp) (u : Use) (addr : Wave → Nat → Int)
    (mk : Nat → List Nat → Wave → Nat → DWord → LaneReq) (s : State) : Out :=
  withWave s fun w p =>
    match s.ready w p u (w.guarded o.c.p (w.lanesOfPath p)) with
    | .stop s => s
    | .go s w v act => s.memLanes o w v p u act addr mk

/-! ## What a lane asks -/

/-- Registers of a size (R32). -/
def Size.regs (z : Size) : Nat :=
  match z with
  | .d => 2
  | .q => 4
  | _ => 1

/-- A load: its results go to `dst k`, the k-th 32-bit register. A `.q` is two accesses of 8 bytes
(R194). -/
def loadReq (sz : Size) (bank : Bool) (dst : Nat → Dst) (grp lane : Nat) (pc va : DWord) : LaneReq :=
  let acc (va : DWord) (n : Nat) : Acc := { grp, lane, va, pc, kind := .load n bank }
  match sz with
  | .d => ⟨[acc va 8], [(dst 0, .held grp va ⟨.d, 0⟩), (dst 1, .held grp va ⟨.d, 1⟩)]⟩
  | .q => ⟨[acc va 8, acc (va + 8) 8],
      [(dst 0, .held grp va ⟨.d, 0⟩), (dst 1, .held grp va ⟨.d, 1⟩),
       (dst 2, .held grp (va + 8) ⟨.d, 0⟩), (dst 3, .held grp (va + 8) ⟨.d, 1⟩)]⟩
  | _ => ⟨[acc va (Size.bytes sz)], [(dst 0, .held grp va ⟨sz, 0⟩)]⟩

/-- A store of the low bytes of registers (R192). -/
def storeReq (sz : Size) (src : Nat → Word) (grp lane : Nat) (needs : List Nat) (pc va : DWord) :
    LaneReq :=
  let acc (va : DWord) (bs : List Byte) : Acc := { grp, lane, va, pc, kind := .store bs needs }
  match sz with
  | .d => ⟨[acc va (bytesOf [src 0, src 1])], []⟩
  | .q => ⟨[acc va (bytesOf [src 0, src 1]), acc (va + 8) (bytesOf [src 2, src 3])], []⟩
  | _ => ⟨[acc va (bytesLE (Size.bytes sz) (src 0).toNat)], []⟩

/-- The k-th register of an operand. -/
def regAt (r : Reg) (k : Nat) : Reg := r + BitVec.ofNat 6 k

/-- The displacement of an M form (R191). -/
def mOff (sz : Size) (off : BitVec 7) : Int := off.toInt * Size.bytes sz

/-- The PC of the path that issues, for the records of its accesses. -/
def pcNow (s : State) : DWord :=
  match s.wave? s.selCore s.selSlot with
  | some w => match w.path? with
    | some p => p.pc
    | none => 0
  | none => 0

/-! ## Loads and stores -/

/-- A load of lanes. -/
def loadOp (c : Ctl) (loc : Bool) (d a : Reg) (sz : Size) (off : BitVec 7) (s : State) : Out :=
  memOp { c, loc, size := Size.bytes sz, helpers := true }
    (laneUse c.p [(a, if loc then 1 else 2)] [(d, Size.regs sz)] [] [])
    (fun v l => (if loc then ((v.readG a l).toNat : Int) else (v.readG2 a l).toNat) + mOff sz off)
    (fun grp _ _ l va => loadReq sz false (fun k => .g (regAt d k) l) grp l (pcNow s) va) s

/-- A store of lanes. -/
def storeOp (c : Ctl) (loc : Bool) (d a : Reg) (sz : Size) (off : BitVec 7) (s : State) : Out :=
  memOp { c, loc, size := Size.bytes sz, helpers := false, writes := true }
    (laneUse c.p [(a, if loc then 1 else 2), (d, Size.regs sz)] [] [] [])
    (fun v l => (if loc then ((v.readG a l).toNat : Int) else (v.readG2 a l).toNat) + mOff sz off)
    (fun grp needs v l va => storeReq sz (fun k => v.readG (regAt d k) l) grp l needs (pcNow s) va) s

/-- A load of the wave: one access, in the lane of the guard (R28, R193). -/
def loadWave (c : Ctl) (loc : Bool) (d a : Reg) (sz : Size) (off : BitVec 7) (s : State) : Out :=
  waveOp s c.s c.p [] [] [(a, if loc then 1 else 2)] [(d, Size.regs sz)] [] []
    fun s w v p u l _ =>
      s.memLanes { c, loc, size := Size.bytes sz, helpers := false } w v p u (BitVec.ofNat 32 (2 ^ l))
        (fun v _ => (if loc then ((v.readW a).toNat : Int) else (v.readW2 a).toNat) + mOff sz off)
        (fun grp _ _ l va => loadReq sz false (fun k => .w (regAt d k)) grp l p.pc va)

/-- LDG (R191 to R195). -/
def execLdg (c : Ctl) (d a : Reg) (sz : Size) (off : BitVec 7) (s : State) : Out :=
  loadOp c false d a sz off s
/-- STG (R191 to R195). -/
def execStg (c : Ctl) (d a : Reg) (sz : Size) (off : BitVec 7) (s : State) : Out :=
  storeOp c false d a sz off s
/-- LDL (R191 to R195). -/
def execLdl (c : Ctl) (d a : Reg) (sz : Size) (off : BitVec 7) (s : State) : Out :=
  loadOp c true d a sz off s
/-- STL (R191 to R195). -/
def execStl (c : Ctl) (d a : Reg) (sz : Size) (off : BitVec 7) (s : State) : Out :=
  storeOp c true d a sz off s
/-- LDWG (R191, R193). -/
def execLdwg (c : Ctl) (d a : Reg) (sz : Size) (off : BitVec 7) (s : State) : Out :=
  loadWave c false d a sz off s
/-- LDWL (R191, R193). -/
def execLdwl (c : Ctl) (d a : Reg) (sz : Size) (off : BitVec 7) (s : State) : Out :=
  loadWave c true d a sz off s

/-- The size of LDACQ and STREL. -/
def acqSize (dw : Bool) : Size := if dw then .d else .w

/-- An acquire read is made at the home bank, from cluster scope on (R237); so is that of a service core, whose LDACQ is
no walk-path access (R256). -/
def acqAtBank (core : Nat) (sc : Scope) : Bool := wide sc || isService core

/-- LDACQ: an acquire read (R237, R240). -/
def execLdacq (c : Ctl) (d a : Reg) (dw : Bool) (sc : Scope) (s : State) : Out :=
  memOp { c, loc := false, size := Size.bytes (acqSize dw), helpers := true, acq := some (wide sc) }
    (laneUse c.p [(a, 2)] [(d, Size.regs (acqSize dw))] [] [])
    (fun v l => (v.readG2 a l).toNat)
    (fun grp _ _ l va =>
      loadReq (acqSize dw) (acqAtBank s.selCore sc) (fun k => .g (regAt d k) l) grp l (pcNow s) va) s

/-- STREL: a release write (R238, R240); to a window of the host or of a peer it acts at system scope (R233). -/
def execStrel (c : Ctl) (a b : Reg) (dw : Bool) (sc : Scope) (s : State) : Out :=
  memOp { c, loc := false, size := Size.bytes (acqSize dw), helpers := false, writes := true, rel := some sc }
    (laneUse c.p [(a, 2), (b, Size.regs (acqSize dw))] [] [] [])
    (fun v l => (v.readG2 a l).toNat)
    (fun grp needs v l va =>
      storeReq (acqSize dw) (fun k => v.readG (regAt b k) l) grp l needs (pcNow s) va) s

/-! ## Steps of the memory system -/

/-- An entry of a store queue, by its place. -/
def State.entryAt (s : State) (core k : Nat) : Option SQ := (s.core core).sq[k]?

/-- STORE_PERFORM: a store, a push or a CACHE operation of a store queue is performed (R195, R237). -/
def execStorePerform (core k : Nat) (s : State) : Out :=
  match s.entryAt core k with
  | some e => match e.kind with
    | .store _ => .next (s.performNow core (.entry e.id))
    | .cache _ => .next (s.performNow core (.entry e.id))
    | _ => .next s
  | none => .next s

/-- MERGE_WINDOW_CLOSE: after 16 cycles the port makes its one read (R190). It changes no byte. -/
def execMergeWindowClose (port line : Nat) (s : State) : Out :=
  .next { s with windows := s.windows.filter fun w =>
    !(w.port == port && w.line == line && Nat.ble (w.opened + 16) s.clock) }

end Sys2Proof.Machine
end

