-- ==== Sys2Proof/Machine/Atomics.lean ====
section
/-! DEFINITION. Atomics, reductions and ordered contributions (majors 28 to 2C, R213 to R227). -/

namespace Sys2Proof.Machine

/-- The registers of the operand of an operation. -/
def AtomOp.regs (op : AtomOp) : Nat := if op == .addSi64 then 2 else 1

/-- Where an atomic acts, and what it orders (Table 9-2). -/
inductive AtomMaj where
  | atom | atoma | red | atoml
  deriving DecidableEq, Repr

/-- The value of an operand of an atomic. -/
def Wave.atomVal (w : Wave) (op : AtomOp) (r : Reg) (l : Nat) : DWord :=
  if op == .addSi64 then w.readG2 r l else (w.readG r l).setWidth 64

/-- An atomic of lanes: one RMW for each destination lane that is no helper lane (R217). `d` is the
destination and the compare register of CAS; in RED it is only the latter. -/
def atomOp (maj : AtomMaj) (op : AtomOp) (c : Ctl) (d a b : Reg) (s : State) : Out :=
  let loc := maj == .atoml
  let ret := maj != .red
  let srcs := [(a, if loc then 1 else 2), (b, op.regs)] ++ if op == .cas then [(d, 1)] else []
  memOp { c, loc, size := op.size, helpers := false, writes := true
          rel := if maj == .atoma then some .device else none
          acq := if maj == .atoma then some true else none }
    (laneUse c.p srcs (if ret then [(d, op.regs)] else []) [] [])
    (fun v l => if loc then ((v.readG a l).toNat : Int) else (v.readG2 a l).toNat)
    (fun grp needs v l va =>
      ⟨[{ grp, lane := l, va, pc := pcNow s
          kind := .rmw op (v.atomVal op b l) ((v.readG d l).setWidth 64) ret needs }],
       if ret then (List.range op.regs).map fun k =>
         (.g (regAt d k) l, .held grp va ⟨if op == .addSi64 then .d else .w, k⟩)
       else []⟩) s

/-- ATOM AddSi32 (Table 9-1, R217). -/
def execAtomAddSi32 (c : Ctl) (d a b : Reg) (s : State) : Out := atomOp .atom .addSi32 c d a b s
/-- ATOM AddF32 (Table 9-1, R217). -/
def execAtomAddF32 (c : Ctl) (d a b : Reg) (s : State) : Out := atomOp .atom .addF32 c d a b s
/-- ATOM AddBf16x2 (Table 9-1, R217). -/
def execAtomAddBf16x2 (c : Ctl) (d a b : Reg) (s : State) : Out := atomOp .atom .addBf16x2 c d a b s
/-- ATOM AddF16x2 (Table 9-1, R217). -/
def execAtomAddF16x2 (c : Ctl) (d a b : Reg) (s : State) : Out := atomOp .atom .addF16x2 c d a b s
/-- ATOM MinSi32 (Table 9-1, R217). -/
def execAtomMinSi32 (c : Ctl) (d a b : Reg) (s : State) : Out := atomOp .atom .minSi32 c d a b s
/-- ATOM MaxSi32 (Table 9-1, R217). -/
def execAtomMaxSi32 (c : Ctl) (d a b : Reg) (s : State) : Out := atomOp .atom .maxSi32 c d a b s
/-- ATOM MinUi32 (Table 9-1, R217). -/
def execAtomMinUi32 (c : Ctl) (d a b : Reg) (s : State) : Out := atomOp .atom .minUi32 c d a b s
/-- ATOM MaxUi32 (Table 9-1, R217). -/
def execAtomMaxUi32 (c : Ctl) (d a b : Reg) (s : State) : Out := atomOp .atom .maxUi32 c d a b s
/-- ATOM MinF32 (Table 9-1, R217). -/
def execAtomMinF32 (c : Ctl) (d a b : Reg) (s : State) : Out := atomOp .atom .minF32 c d a b s
/-- ATOM MaxF32 (Table 9-1, R217). -/
def execAtomMaxF32 (c : Ctl) (d a b : Reg) (s : State) : Out := atomOp .atom .maxF32 c d a b s
/-- ATOM And (Table 9-1, R217). -/
def execAtomAnd (c : Ctl) (d a b : Reg) (s : State) : Out := atomOp .atom .and c d a b s
/-- ATOM Or (Table 9-1, R217). -/
def execAtomOr (c : Ctl) (d a b : Reg) (s : State) : Out := atomOp .atom .or c d a b s
/-- ATOM Xor (Table 9-1, R217). -/
def execAtomXor (c : Ctl) (d a b : Reg) (s : State) : Out := atomOp .atom .xor c d a b s
/-- ATOM Exch (Table 9-1, R217). -/
def execAtomExch (c : Ctl) (d a b : Reg) (s : State) : Out := atomOp .atom .exch c d a b s
/-- ATOM Cas (Table 9-1, R217). -/
def execAtomCas (c : Ctl) (d a b : Reg) (s : State) : Out := atomOp .atom .cas c d a b s
/-- ATOM AddSi64 (Table 9-1, R217). -/
def execAtomAddSi64 (c : Ctl) (d a b : Reg) (s : State) : Out := atomOp .atom .addSi64 c d a b s

/-- ATOMA AddSi32 (Table 9-1, R217). -/
def execAtomaAddSi32 (c : Ctl) (d a b : Reg) (s : State) : Out := atomOp .atoma .addSi32 c d a b s
/-- ATOMA AddF32 (Table 9-1, R217). -/
def execAtomaAddF32 (c : Ctl) (d a b : Reg) (s : State) : Out := atomOp .atoma .addF32 c d a b s
/-- ATOMA AddBf16x2 (Table 9-1, R217). -/
def execAtomaAddBf16x2 (c : Ctl) (d a b : Reg) (s : State) : Out := atomOp .atoma .addBf16x2 c d a b s
/-- ATOMA AddF16x2 (Table 9-1, R217). -/
def execAtomaAddF16x2 (c : Ctl) (d a b : Reg) (s : State) : Out := atomOp .atoma .addF16x2 c d a b s
/-- ATOMA MinSi32 (Table 9-1, R217). -/
def execAtomaMinSi32 (c : Ctl) (d a b : Reg) (s : State) : Out := atomOp .atoma .minSi32 c d a b s
/-- ATOMA MaxSi32 (Table 9-1, R217). -/
def execAtomaMaxSi32 (c : Ctl) (d a b : Reg) (s : State) : Out := atomOp .atoma .maxSi32 c d a b s
/-- ATOMA MinUi32 (Table 9-1, R217). -/
def execAtomaMinUi32 (c : Ctl) (d a b : Reg) (s : State) : Out := atomOp .atoma .minUi32 c d a b s
/-- ATOMA MaxUi32 (Table 9-1, R217). -/
def execAtomaMaxUi32 (c : Ctl) (d a b : Reg) (s : State) : Out := atomOp .atoma .maxUi32 c d a b s
/-- ATOMA MinF32 (Table 9-1, R217). -/
def execAtomaMinF32 (c : Ctl) (d a b : Reg) (s : State) : Out := atomOp .atoma .minF32 c d a b s
/-- ATOMA MaxF32 (Table 9-1, R217). -/
def execAtomaMaxF32 (c : Ctl) (d a b : Reg) (s : State) : Out := atomOp .atoma .maxF32 c d a b s
/-- ATOMA And (Table 9-1, R217). -/
def execAtomaAnd (c : Ctl) (d a b : Reg) (s : State) : Out := atomOp .atoma .and c d a b s
/-- ATOMA Or (Table 9-1, R217). -/
def execAtomaOr (c : Ctl) (d a b : Reg) (s : State) : Out := atomOp .atoma .or c d a b s
/-- ATOMA Xor (Table 9-1, R217). -/
def execAtomaXor (c : Ctl) (d a b : Reg) (s : State) : Out := atomOp .atoma .xor c d a b s
/-- ATOMA Exch (Table 9-1, R217). -/
def execAtomaExch (c : Ctl) (d a b : Reg) (s : State) : Out := atomOp .atoma .exch c d a b s
/-- ATOMA Cas (Table 9-1, R217). -/
def execAtomaCas (c : Ctl) (d a b : Reg) (s : State) : Out := atomOp .atoma .cas c d a b s
/-- ATOMA AddSi64 (Table 9-1, R217). -/
def execAtomaAddSi64 (c : Ctl) (d a b : Reg) (s : State) : Out := atomOp .atoma .addSi64 c d a b s

/-- RED AddSi32 (Table 9-1, R217). -/
def execRedAddSi32 (c : Ctl) (a b : Reg) (s : State) : Out := atomOp .red .addSi32 c 0 a b s
/-- RED AddF32 (Table 9-1, R217). -/
def execRedAddF32 (c : Ctl) (a b : Reg) (s : State) : Out := atomOp .red .addF32 c 0 a b s
/-- RED AddBf16x2 (Table 9-1, R217). -/
def execRedAddBf16x2 (c : Ctl) (a b : Reg) (s : State) : Out := atomOp .red .addBf16x2 c 0 a b s
/-- RED AddF16x2 (Table 9-1, R217). -/
def execRedAddF16x2 (c : Ctl) (a b : Reg) (s : State) : Out := atomOp .red .addF16x2 c 0 a b s
/-- RED MinSi32 (Table 9-1, R217). -/
def execRedMinSi32 (c : Ctl) (a b : Reg) (s : State) : Out := atomOp .red .minSi32 c 0 a b s
/-- RED MaxSi32 (Table 9-1, R217). -/
def execRedMaxSi32 (c : Ctl) (a b : Reg) (s : State) : Out := atomOp .red .maxSi32 c 0 a b s
/-- RED MinUi32 (Table 9-1, R217). -/
def execRedMinUi32 (c : Ctl) (a b : Reg) (s : State) : Out := atomOp .red .minUi32 c 0 a b s
/-- RED MaxUi32 (Table 9-1, R217). -/
def execRedMaxUi32 (c : Ctl) (a b : Reg) (s : State) : Out := atomOp .red .maxUi32 c 0 a b s
/-- RED MinF32 (Table 9-1, R217). -/
def execRedMinF32 (c : Ctl) (a b : Reg) (s : State) : Out := atomOp .red .minF32 c 0 a b s
/-- RED MaxF32 (Table 9-1, R217). -/
def execRedMaxF32 (c : Ctl) (a b : Reg) (s : State) : Out := atomOp .red .maxF32 c 0 a b s
/-- RED And (Table 9-1, R217). -/
def execRedAnd (c : Ctl) (a b : Reg) (s : State) : Out := atomOp .red .and c 0 a b s
/-- RED Or (Table 9-1, R217). -/
def execRedOr (c : Ctl) (a b : Reg) (s : State) : Out := atomOp .red .or c 0 a b s
/-- RED Xor (Table 9-1, R217). -/
def execRedXor (c : Ctl) (a b : Reg) (s : State) : Out := atomOp .red .xor c 0 a b s
/-- RED Exch (Table 9-1, R217). -/
def execRedExch (c : Ctl) (a b : Reg) (s : State) : Out := atomOp .red .exch c 0 a b s
/-- RED Cas (Table 9-1, R217). -/
def execRedCas (c : Ctl) (d a b : Reg) (s : State) : Out := atomOp .red .cas c d a b s
/-- RED AddSi64 (Table 9-1, R217). -/
def execRedAddSi64 (c : Ctl) (a b : Reg) (s : State) : Out := atomOp .red .addSi64 c 0 a b s

/-- ATOML AddSi32 (Table 9-1, R217). -/
def execAtomlAddSi32 (c : Ctl) (d a b : Reg) (s : State) : Out := atomOp .atoml .addSi32 c d a b s
/-- ATOML AddF32 (Table 9-1, R217). -/
def execAtomlAddF32 (c : Ctl) (d a b : Reg) (s : State) : Out := atomOp .atoml .addF32 c d a b s
/-- ATOML AddBf16x2 (Table 9-1, R217). -/
def execAtomlAddBf16x2 (c : Ctl) (d a b : Reg) (s : State) : Out := atomOp .atoml .addBf16x2 c d a b s
/-- ATOML AddF16x2 (Table 9-1, R217). -/
def execAtomlAddF16x2 (c : Ctl) (d a b : Reg) (s : State) : Out := atomOp .atoml .addF16x2 c d a b s
/-- ATOML MinSi32 (Table 9-1, R217). -/
def execAtomlMinSi32 (c : Ctl) (d a b : Reg) (s : State) : Out := atomOp .atoml .minSi32 c d a b s
/-- ATOML MaxSi32 (Table 9-1, R217). -/
def execAtomlMaxSi32 (c : Ctl) (d a b : Reg) (s : State) : Out := atomOp .atoml .maxSi32 c d a b s
/-- ATOML MinUi32 (Table 9-1, R217). -/
def execAtomlMinUi32 (c : Ctl) (d a b : Reg) (s : State) : Out := atomOp .atoml .minUi32 c d a b s
/-- ATOML MaxUi32 (Table 9-1, R217). -/
def execAtomlMaxUi32 (c : Ctl) (d a b : Reg) (s : State) : Out := atomOp .atoml .maxUi32 c d a b s
/-- ATOML MinF32 (Table 9-1, R217). -/
def execAtomlMinF32 (c : Ctl) (d a b : Reg) (s : State) : Out := atomOp .atoml .minF32 c d a b s
/-- ATOML MaxF32 (Table 9-1, R217). -/
def execAtomlMaxF32 (c : Ctl) (d a b : Reg) (s : State) : Out := atomOp .atoml .maxF32 c d a b s
/-- ATOML And (Table 9-1, R217). -/
def execAtomlAnd (c : Ctl) (d a b : Reg) (s : State) : Out := atomOp .atoml .and c d a b s
/-- ATOML Or (Table 9-1, R217). -/
def execAtomlOr (c : Ctl) (d a b : Reg) (s : State) : Out := atomOp .atoml .or c d a b s
/-- ATOML Xor (Table 9-1, R217). -/
def execAtomlXor (c : Ctl) (d a b : Reg) (s : State) : Out := atomOp .atoml .xor c d a b s
/-- ATOML Exch (Table 9-1, R217). -/
def execAtomlExch (c : Ctl) (d a b : Reg) (s : State) : Out := atomOp .atoml .exch c d a b s
/-- ATOML Cas (Table 9-1, R217). -/
def execAtomlCas (c : Ctl) (d a b : Reg) (s : State) : Out := atomOp .atoml .cas c d a b s

/-- An ordered contribution of each lane that is no helper lane (R222). -/
def oredOp (kind : Nat) (c : Ctl) (d a b : Reg) (s : State) : Out :=
  let n := if kind == 2 then 2 else 1
  memOp { c, loc := false, size := 64, helpers := false, writes := true }
    (laneUse c.p [(a, 2), (b, n), (d, 1)] [] [] [])
    (fun v l => (v.readG2 a l).toNat)
    (fun grp _ v l va =>
      ⟨[{ grp, lane := l, va, pc := pcNow s
          kind := .ored kind (v.readG d l).toNat
            (if kind == 2 then v.readG2 b l else (v.readG b l).setWidth 64) }], []⟩) s

/-- ORED.f32 (R222). -/
def execOredF32 (c : Ctl) (d a b : Reg) (s : State) : Out := oredOp 0 c d a b s
/-- ORED.bf16x2 (R222). -/
def execOredBf16x2 (c : Ctl) (d a b : Reg) (s : State) : Out := oredOp 1 c d a b s
/-- ORED.f64 (R222). -/
def execOredF64 (c : Ctl) (d a b : Reg) (s : State) : Out := oredOp 2 c d a b s

/-! ## Steps at the banks -/

/-- SLICE_RMW: an RMW, or a half of a packed one, is performed (R213). -/
def execSliceRmw (core k : Nat) (s : State) : Out :=
  match s.entryAt core k with
  | some e => match e.kind with
    | .rmw _ _ _ _ => .next (s.performNow core (.entry e.id))
    | _ => .next s
  | none => .next s

/-- ORE_CONTRIBUTION: a contribution comes to its bank (R223). -/
def execOreContribution (core k : Nat) (s : State) : Out :=
  match s.entryAt core k with
  | some e => match e.kind with
    | .ored _ _ _ false => .next (s.performNow core (.entry e.id))
    | _ => .next s
  | none => .next s

/-- ORED_REFUSAL_RETRY: a refused contribution is tried again (R224). -/
def execOredRefusalRetry (core k : Nat) (s : State) : Out :=
  match s.entryAt core k with
  | some e => match e.kind with
    | .ored _ _ _ true => .next (s.performNow core (.entry e.id))
    | _ => .next s
  | none => .next s

end Sys2Proof.Machine
end

