-- ==== Sys2Proof/Machine/Fences.lean ====
section
/-! DEFINITION. FENCE, TFENCE, CFENCE and DRAIN (R199, R200, R238, R248, R259). -/

namespace Sys2Proof.Machine

/-! ## Fences -/

/-- The instruction waits at issue until operations in flight have ended, and issues then. -/
def State.waitFor (s : State) (w : Wave) (ids : List Nat) : State :=
  s.setWave { w with stat := .drain ids false 8 }

/-- Entries of a core's store queue of given instructions. -/
def State.entriesOf (s : State) (core : Nat) (grps : List Nat) : List Nat :=
  ((s.core core).sq.filter fun e => grps.any fun g => g == e.grp).map fun e => e.id

/-- What comes before a release at a scope is performed there, as far as it may be: the instructions whose
accesses must be, and the state. -/
def State.perform (s : State) (w : Wave) (sc : Scope) : List Nat × State :=
  let s := s.flushAll w.core w.slot
  match s.wave? w.core w.slot with
  | none => ([], s)
  | some w =>
    if wide sc then
      let grps := s.groupGrps w
      (grps, s.forceGrps w.core grps)
    else ([], s.releaseGroup w)

/-- The wave's earlier reads have returned, those of its atomics too; an acquire of a wide scope empties the L1 (R238). -/
def State.acquireAt (s : State) (w : Wave) (sc : Scope) : State :=
  match s.wave? w.core w.slot with
  | none => s
  | some v =>
    let s := s.forceAll w.core v.readTodos
    if wide sc then s.l1Clear w.core else s

/-- The wave goes on after a fence. -/
def State.fenced (s : State) (w : Wave) (u : Use) (sw : Bool) : State :=
  match s.wave? w.core w.slot with
  | some w => s.passBy w u sw
  | none => s

/-- A fence, which waits while an earlier access is held on a fault record (R264): one of its wave, or one
of its group before a release. -/
def fenceOp (c : Ctl) (rel : Bool) (sc : Scope) (f : State → Wave → Use → State) (s : State) : Out :=
  waveOp s c.s c.p [] [] [] [] [] [] fun s w _ _ u _ _ =>
    if (if rel then s.releaseHeld w sc else s.faulted w) then s.stallWave w
    else match s.beginAccess w with
      | (false, s) => s.modWave w.core w.slot fun w => { w with stat := .stall }
      | (true, s) => match s.wave? w.core w.slot with
        | some w => f s w u
        | none => s

/-- FENCE.full (R236, R238). -/
def execFenceFull (c : Ctl) (sc : Scope) (s : State) : Out :=
  fenceOp c true sc (fun s w u =>
    let (grps, s) := s.perform w sc
    let left := s.entriesOf w.core grps
    match s.wave? w.core w.slot with
    | none => s
    | some w =>
      if left.isEmpty then (s.acquireAt w sc).fenced w u c.s else s.waitFor w left) s
/-- FENCE.acq (R238). -/
def execFenceAcq (c : Ctl) (sc : Scope) (s : State) : Out :=
  fenceOp c false sc (fun s w u => (s.acquireAt w sc).fenced w u c.s) s
/-- FENCE.rel: later writes follow the earlier accesses (R238). -/
def execFenceRel (c : Ctl) (sc : Scope) (s : State) : Out :=
  fenceOp c true sc (fun s w u =>
    if wide sc then
      let s := s.flushAll w.core w.slot
      match s.wave? w.core w.slot with
      | none => s
      | some w =>
        s.passBy { w with after := s.groupGrps w } u c.s
    else (s.releaseGroup w).fenced w u c.s) s

/-- The writes of the group to memory are performed at their home banks; the wave goes on, or waits for a
refused contribution. -/
def writesOp (c : Ctl) (f : State → Wave → State) (s : State) : Out :=
  fenceOp c true .device (fun s w u =>
    let (grps, s) := s.perform w .device
    let left := s.entriesOf w.core grps
    match s.wave? w.core w.slot with
    | none => s
    | some w => if left.isEmpty then (f s w).fenced w u c.s else s.waitFor w left) s

/-- TFENCE: a walk read made later returns the earlier writes or later ones (R259). -/
def execTfence (c : Ctl) (_sc : Scope) (s : State) : Out := writesOp c (fun s _ => s) s

/-- The cores of a scope of an agent (R232). -/
def coresOf (core : Nat) (sc : Scope) : Nat → Bool :=
  match sc with
  | .wave => fun k => k == core
  | .group => fun k => k == core
  | .cluster => fun k => clusterOf k == clusterOf core && (Nat.blt k 240 || k == core)
  | _ => fun _ => true

/-- CFENCE: the instruction caches of the scope are invalidated (R248). -/
def execCfence (c : Ctl) (sc : Scope) (s : State) : Out :=
  writesOp c (fun s w =>
    { s with cores := (s.cores.map fun e => e.1).foldl (fun t k =>
        if coresOf w.core sc k then Tab.put {} t k { Tab.get {} t k with ic := [] } else t) s.cores }) s

/-! ## DRAIN -/

/-- A copy's destination is group-local (Table 8-9). -/
def Copy.toLocal (x : Copy) : Bool := x.fn == 0 || x.fn == 2 || x.fn == 8 || (x.fn == 3 && !x.ctl.getLsbD 5)

/-- Writes, atomics, contributions and write-backs (Table 8-5). -/
def AccKind.slice (k : AccKind) : Bool :=
  match k with
  | .store .. => true
  | .rmw .. => true
  | .ored .. => true
  | .cache _ => true
  | _ => false

/-- The operations of a core that a path of Table 8-5 has in flight, by id. -/
def State.drainIds (s : State) (core path : Nat) : List Nat :=
  let c := s.core core
  match path with
  | 0 => (c.copies.filter Copy.toLocal).map fun x => x.id
  | 1 => (c.copies.filter fun x => !x.toLocal).map fun x => x.id
  | 2 =>
    let held := (((s.core (recHome core)).recs.filter fun r => r.src == 0 && r.core == core && !r.frozen).map
      fun r => r.accs).flatten ++ ((s.waves.filter fun w => w.core == core).map fun w => w.behind).flatten
    ((c.sq.filter fun e => !inLocal e.pa).map fun e => e.id) ++
    ((held.filter fun a => a.kind.slice).map fun a => a.grp) ++
    ((s.waves.filter fun w => w.core == core).map fun w =>
      w.pend.filterMap fun p => p.dst.push?.map fun x => x.2.2).flatten
  | 3 =>
    ((s.sends.filter fun x => x.core == core).map fun x => x.cmd) ++
    ((s.net.filter fun x => x.src == core && match x.body with
        | .wake .. => true
        | .caps .. => true
        | _ => false).map fun x => x.id) ++
    ((s.cores.map fun e => e.2.parking.filterMap fun x =>
        if x.fault && x.caps.prev == core then x.cmd else none).flatten) ++
    ((s.cmds.filter fun x => x.core == core && x.maj == 0x3D && x.fn == 7).map fun x => x.id)
  | 4 =>
    (((s.cluster (clusterOf core)).fctx.map fun f =>
      (f.inbox.filter fun m => m.core == core).map fun m => m.id).flatten)
  | 5 =>
    ((c.trp.threads.filter fun t => t.kind == .record).map fun t => t.cmd) ++
    ((c.trp.queue.filter fun t => t.hand.isNone).map fun t => t.cmd) ++
    ((s.cmds.filter fun x => x.core == core && x.maj == 0x3B).map fun x => x.id)
  | _ =>
    let walk (k : Nat) : Bool := isService k && clusterOf k == clusterOf core && Nat.blt k 240
    ((s.cores.map fun e => if walk e.1 then
        (e.2.sq.filter fun x => x.va.msb && !inLocal x.pa).map fun x => x.id else []).flatten) ++
    ((s.waves.map fun w => if walk w.core then
        w.pend.filterMap fun p => match p.src with
          | .mem grp _ _ _ _ 4 _ => some grp
          | _ => none
      else []).flatten)

/-- DRAIN: the wave goes on when all operations of the paths have ended (R199, R200). The 64th instruction of a run is a
switch point (R133). -/
def drainOp (c : Ctl) (path : Nat) (s : State) : Out :=
  waveOp s c.s c.p [] [] [] [] [] [] fun s w _ _ u _ _ =>
    let paths := if path == 7 then (if isService w.core then [0, 1, 2, 3, 4, 5, 6] else [0, 1, 2, 3, 4, 5])
      else [path]
    let ids := (paths.map fun k => s.drainIds w.core k).flatten.eraseDups
    s.setWave { (w.bump u).retire false with stat := .drain ids (c.s || Nat.ble 63 w.count) path }

/-- DRAIN.cpl (R199). -/
def execDrainCpl (c : Ctl) (s : State) : Out := drainOp c 0 s
/-- DRAIN.cpg (R199). -/
def execDrainCpg (c : Ctl) (s : State) : Out := drainOp c 1 s
/-- DRAIN.slice (R199). -/
def execDrainSlice (c : Ctl) (s : State) : Out := drainOp c 2 s
/-- DRAIN.msg (R199, R289, R299). -/
def execDrainMsg (c : Ctl) (s : State) : Out := drainOp c 3 s
/-- DRAIN.mx (R199). -/
def execDrainMx (c : Ctl) (s : State) : Out := drainOp c 4 s
/-- DRAIN.trav (R199, R386). -/
def execDrainTrav (c : Ctl) (s : State) : Out := drainOp c 5 s
/-- DRAIN.walk, privileged (R41, R256). -/
def execDrainWalk (c : Ctl) (s : State) : Out :=
  withWave s fun w p =>
    if isService w.core then (match drainOp c 6 s with
      | .next t => t
      | _ => s)
    else s.trapBy w p 0x004
/-- DRAIN.all (R199). -/
def execDrainAll (c : Ctl) (s : State) : Out := drainOp c 7 s

end Sys2Proof.Machine
end

