-- ==== Sys2Proof/Machine/System.lean ====
section
/-! DEFINITION. TRAP, BKPT, SVCALL and HALT (R394 to R397), the special registers (R81 to R86, R401,
R412) and CACHE (R197, R198). -/

namespace Sys2Proof.Machine

/-! ## Traps of the program -/

/-- TRAP (R396). -/
def execTrap (c : Ctl) (code : BitVec 12) (s : State) : Out :=
  waveOp s c.s c.p [] [] [] [] [] [] fun s w _ p _ _ _ =>
    s.trap w p { cause := 0x3F0 + (code.setWidth 4).setWidth 10, x := code.setWidth 32 }
/-- BKPT (R396). -/
def execBkpt (c : Ctl) (code : BitVec 12) (s : State) : Out :=
  waveOp s c.s c.p [] [] [] [] [] [] fun s w _ p _ _ _ =>
    s.trap w p { cause := 0x020, x := code.setWidth 32 }
/-- SVCALL (R397): the wave parks with the active lanes, tail lanes of a stream apart, and the streams that it names
have gone on by one step (R127). -/
def execSvcall (c : Ctl) (d a b : Reg) (s : State) : Out :=
  waveOp s c.s c.p [(a, 1), (b, 1)] [(d, 1)] [] [] [] [] fun s w v p u l act =>
    if w.isHandler then s.trapBy w p 0x300
    else if isService w.core then s.trapBy w p 0x019
    else
      let t : Trap := { cause := 0, x := v.readG a l, y := v.readG b l, kind := 2, dst := d }
      s.settle { w.bump u with stat := .trapping t act p.pc }

/-! ## HALT -/

/-- The entry of a mailbox that HALT takes: the lowest kind, then the oldest. -/
def pickMail (mask : BitVec 5) (ms : List Mail) : Option Mail :=
  (List.range 5).findSome? fun k => ms.find? fun m => m.kind == k && mailFor mask m

/-- The registers that HALT writes (R394). -/
def mailRegs (m : Mail) : List (Dst × Src) :=
  [(.w 16, .val (BitVec.ofNat 32 (m.kind + m.core * 256 + m.slot % 128 * 65536))),
   (.w 17, .val (BitVec.ofNat 32 (m.asid % 65536)))] ++
  (List.range 8).map fun k => (.w (BitVec.ofNat 6 (24 + k)), .val (BitVec.ofNat 32 (fieldNat m.body (4 * k) 4)))

/-- An entry leaves a mailbox; a message that found it full takes its place (R393). -/
def Core.takeMail (c : Core) (m : Mail) : Core :=
  let rest := c.mail.erase m
  { c with mail := rest ++ c.mailWait.take (64 - rest.length)
           mailWait := c.mailWait.drop (64 - rest.length) }

/-- HALT, privileged (R41, R394): without an entry the wave waits. -/
def execHalt (c : Ctl) (a : Reg) (s : State) : Out :=
  waveOp s c.s c.p [(a, 1)] [] [] [(16, 2), (24, 8)] [] [] fun s w v p u l _ =>
    if !isService w.core then s.trapBy w p 0x004
    else if (v.readG a l).toNat / 32 != 0 then s.trapBy w p 0x019
    else
      let mask : BitVec 5 := (v.readG a l).setWidth 5
      match pickMail mask (s.core w.core).mail with
      | none => s.setWave { w with stat := .halt mask }
      | some m => (s.modCore w.core fun k => k.takeMail m).finishL w p u c.s (mailRegs m) []

/-! ## Special registers -/

/-- The coordinates of a group within its launch (R157). -/
def State.coord (s : State) (w : Wave) (k : Nat) : Word :=
  match s.groupOf w with
  | none => 0
  | some g =>
    match g.hgd, s.launch? g.lid with
    | none, some l =>
      BitVec.ofNat 32 (match k with
        | 3 => g.index % l.recd.gx
        | 4 => g.index / l.recd.gx % l.recd.gy
        | _ => g.index / (l.recd.gx * l.recd.gy))
    | _, _ => 0

/-- The gang of a wave. -/
def State.gangOf (s : State) (w : Wave) : Word :=
  match s.groupOf w with
  | some g => if g.hgd.isSome then 0xFFFFFFFF else BitVec.ofNat 32 g.gang
  | none => 0

/-- The features of a wave's context; all of them where it has no context (Table 18-6). -/
def State.featOf (s : State) (w : Wave) : Word :=
  match s.ctx? (s.asidOf w) with
  | some x => x.feat.setWidth 32
  | none => 0x1FF

/-- %fpsr as it is read (R92, R401). -/
def Wave.readFpsr (w : Wave) : Word := (w.fpsr &&& 0x3F) ||| ((w.astat &&& 0x3FF) <<< 10)

/-- The value of a special register in a lane (Tables 3-6, 17-6, 18-6); `free` stands for a register
that the spec does not give a firmware wave. -/
def State.sysReg (s : State) (w : Wave) (free : Word) (idx l : Nat) : DWord :=
  let m : Lanes := match w.path? with
    | some p => w.lanesOfPath p
    | none => 0
  if idx == 9 then BitVec.ofNat 64 s.clock
  else
    let v : Word := match idx with
      | 0 => BitVec.ofNat 32 l
      | 1 => BitVec.ofNat 32 (l / 4)
      | 2 => if isService w.core then free else BitVec.ofNat 32 w.idx
      | 3 => if isService w.core then free else s.coord w 3
      | 4 => if isService w.core then free else s.coord w 4
      | 5 => if isService w.core then free else s.coord w 5
      | 6 => if isService w.core then free else s.gangOf w
      | 7 => BitVec.ofNat 32 w.core
      | 8 => BitVec.ofNat 32 (clusterOf w.core)
      | 10 => w.fpcr
      | 11 => w.readFpsr
      | 12 => m
      | 13 => BitVec.ofNat 32 (s.asidOf w % 65536)
      | 14 => if isService w.core then free else BitVec.ofNat 32 (s.lidOf w)
      | 15 => BitVec.ofNat 32 (lanesOf (m &&& ~~~w.helper)).length
      | 16 => w.astat
      | _ => s.featOf w
    v.setWidth 64

/-- RDSR (R81, R85, R86). -/
def execRdsr (c : Ctl) (d : Reg) (idx : BitVec 12) (s : State) : Out :=
  let (k, s) := s.freshFree
  let n := if idx == 9 then 2 else 1
  laneOp s c.s c.p (laneUse c.p [] [(d, n)] [] []) true fun v _ l =>
    let x := s.sysReg v (Config.freeWord k) idx.toNat l
    ((.g d l, x.setWidth 32) ::
      (if idx == 9 then [(.g (d + 1) l, x.extractLsb' 32 32)] else []), 0)

/-- A write of a special register (R82, R92, Table 17-6). -/
def State.writeSys (s : State) (w : Wave) (idx : Nat) (v : Word) : State × Wave :=
  match idx with
  | 10 => (s, { w with fpcr := v &&& fpcrMask })
  | 11 => (s, { w with fpsr := v &&& 0x3F })
  | 13 => (s.modCore w.core fun k => { k with asid := v.toNat % 65536 }, w)
  | _ => (s, { w with astat := v &&& 0xFFFF03FF })

/-- WRSR (R82, R83). -/
def execWrsr (c : Ctl) (d : Reg) (idx : BitVec 12) (s : State) : Out :=
  waveOp s c.s c.p [(d, 1)] [] [] [] [] [] fun s w v p u l _ =>
    if idx == 13 && !isService w.core then s.trapBy w p 0x004
    else
      let (s, w) := s.writeSys w idx.toNat (v.readG d l)
      s.passBy w.touch u c.s

/-! ## CACHE -/

/-- A CACHE operation on the line of a VA (R197). -/
def cacheOp (c : Ctl) (op : Nat) (a : Reg) (s : State) : Out :=
  waveOp s c.s c.p [(a, 2)] [] [] [] [] [] fun s w v p u l _ =>
    s.memLanes { c, loc := false, size := 1, helpers := false } w v p u (BitVec.ofNat 32 (2 ^ l))
      (fun v l => (v.readG2 a l).toNat)
      (fun grp _ _ l va => ⟨[{ grp, lane := l, va, pc := p.pc, kind := .cache op }], []⟩)

/-- CACHE.l1inv (Table 8-4). -/
def execCacheL1inv (c : Ctl) (a : Reg) (s : State) : Out := cacheOp c 0 a s
/-- CACHE.l1all (Table 8-4). -/
def execCacheL1all (c : Ctl) (s : State) : Out :=
  waveOp s c.s c.p [] [] [] [] [] [] fun s w _ _ u _ _ => (s.l1Clear w.core).passBy w u c.s
/-- CACHE.wb (Table 8-4). -/
def execCacheWb (c : Ctl) (a : Reg) (s : State) : Out := cacheOp c 2 a s
/-- CACHE.wbinv (Table 8-4). -/
def execCacheWbinv (c : Ctl) (a : Reg) (s : State) : Out := cacheOp c 3 a s

/-- The window bytes of a way become zero (R198). -/
def State.clearWay (s : State) (way : Nat) : State :=
  let base := 0x3F0000000000 + 0x20000 * way
  let s := s.watchHit base 0x20000
  { s with mem := s.mem.filter fun (e : Nat × Byte) => wayOf e.1 != way || !inSlice e.1
           poison := s.poison.filter fun (a : Nat) => wayOf a != way || !inSlice a }

/-- Lines leave a slice until every set fits its tags and chunks (R188, R189). -/
def State.shrinkSets (s : State) (cl : Nat) : State :=
  let l := s.lockedWays cl
  s.modCluster cl fun c =>
    let sets := (c.tags.map fun t => (homeOf (256 * t.line)).2).eraseDups
    { c with tags := (sets.map fun k =>
        evictFor s.mem (2 ^ 60) (32 - 2 * l) (128 - 8 * l) 64
          (c.tags.filter fun t => (homeOf (256 * t.line)).2 == k)).flatten }

/-- Locks a way for a context (R198). -/
def State.lockWay (s : State) (asid way : Nat) : State :=
  if Tab.get 0 s.locks way == asid + 1 then s
  else ({ s with locks := Tab.put 0 s.locks way (asid + 1) }.shrinkSets (way / 8)).clearWay way

/-- Unlocks a way (R198). -/
def State.unlockWay (s : State) (way : Nat) : State :=
  if Tab.get 0 s.locks way == 0 then s
  else { s with locks := Tab.put 0 s.locks way 0 }.clearWay way

/-- CACHE.lock and CACHE.unlock: the register names a way that must be allotted to the context (R198). -/
def wayOp (c : Ctl) (a : Reg) (f : State → Nat → Nat → State) (s : State) : Out :=
  waveOp s c.s c.p [(a, 1)] [] [] [] [] [] fun s w v p u l _ =>
    let x := (v.readG a l).toNat
    let way := 8 * (x % 128) + x / 256 % 8
    if x / 2048 != 0 || x / 128 % 2 != 0 || Nat.blt 79 (x % 128) ||
        Tab.get 0 s.ways way != s.asidOf w + 1 then s.trapBy w p 0x142
    else (f s (s.asidOf w) way).passBy w u c.s

/-- CACHE.lock (Table 8-4). -/
def execCacheLock (c : Ctl) (a : Reg) (s : State) : Out := wayOp c a (fun s asid way => s.lockWay asid way) s
/-- CACHE.unlock (Table 8-4). -/
def execCacheUnlock (c : Ctl) (a : Reg) (s : State) : Out := wayOp c a (fun s _ way => s.unlockWay way) s

end Sys2Proof.Machine
end

