-- ==== Sys2Proof/Machine/Copies.lean ====
section
/-! DEFINITION. Asynchronous copies (major 38, R201 to R209). -/

namespace Sys2Proof.Machine

/-! ## Geometry -/

/-- A 16-bit field of a register. -/
def h16 (v : DWord) (i : Nat) : Nat := v.toNat / 2 ^ (16 * i) % 65536
/-- A signed 32-bit half of a register. -/
def s32 (v : DWord) (i : Nat) : Int := (BitVec.ofNat 32 (v.toNat / 2 ^ (32 * i))).toInt

/-- Register k of the set of a copy. -/
def Copy.reg (x : Copy) (k : Nat) : DWord := x.cd.getD k 0
/-- Element size in bytes (Table 8-6). -/
def Copy.esize (x : Copy) : Nat := 2 ^ (x.geo.toNat % 8)
/-- Dimensions minus 1. -/
def Copy.ndim (x : Copy) : Nat := x.geo.toNat / 16 % 4
/-- Elements of a dimension (R204). -/
def Copy.ext (x : Copy) (d : Nat) : Nat := if Nat.ble d x.ndim then h16 (x.reg 2) d else 1
/-- Elements in all. -/
def Copy.total (x : Copy) : Nat := x.ext 0 * x.ext 1 * x.ext 2 * x.ext 3
/-- The tuple of element j, dimension 0 fastest. -/
def Copy.tuple (x : Copy) (j : Nat) : Nat × Nat × Nat × Nat :=
  (j % x.ext 0, j / x.ext 0 % x.ext 1, j / (x.ext 0 * x.ext 1) % x.ext 2, j / (x.ext 0 * x.ext 1 * x.ext 2))
/-- Steps of dimensions 1 to 3 of the source and of the destination (Table 8-6). -/
def Copy.sstep (x : Copy) (d : Nat) : Int :=
  match d with
  | 1 => s32 (x.reg 3) 0
  | 2 => s32 (x.reg 3) 1
  | _ => s32 (x.reg 4) 0
def Copy.dstep (x : Copy) (d : Nat) : Int :=
  match d with
  | 1 => s32 (x.reg 4) 1
  | 2 => s32 (x.reg 5) 0
  | _ => s32 (x.reg 5) 1

/-- The displacement of a strided element (R204). -/
def Copy.stride (x : Copy) (step : Nat → Int) (j : Nat) : Int :=
  let t := x.tuple j
  (x.esize : Int) * (t.1 + t.2.1 * step 1 + t.2.2.1 * step 2 + t.2.2.2 * step 3)

/-- The least and the greatest displacement of a strided side that has elements. -/
def Copy.span (x : Copy) (step : Nat → Int) : Int × Int :=
  let e (d : Nat) : Int := (x.ext d : Int) - 1
  let t (d : Nat) : Int := e d * (if d == 0 then 1 else step d)
  let lo (v : Int) : Int := if v < 0 then v else 0
  let hi (v : Int) : Int := if v < 0 then 0 else v
  let s : Int := x.esize
  (s * (lo (t 0) + lo (t 1) + lo (t 2) + lo (t 3)), s * (hi (t 0) + hi (t 1) + hi (t 2) + hi (t 3)) + s - 1)

/-- Bytes of a dense side (R204). -/
def Copy.denseSpan (x : Copy) : Int × Int := (0, (x.esize * x.total : Nat) - 1)

/-- The group-local side of a copy, if it has one: its base and its span (Table 8-9). -/
def Copy.localSide (x : Copy) : Option (DWord × Int × Int) :=
  match x.fn with
  | 0 => some (x.reg 1, x.span x.dstep)
  | 1 => some (x.reg 0, x.span x.sstep)
  | 2 => some (x.reg 1, x.denseSpan)
  | 3 => if x.ctl.getLsbD 5 then none else some (x.reg 1, x.span x.dstep)
  | 8 => some (x.reg 1, x.denseSpan)
  | 9 => some (x.reg 0, x.denseSpan)
  | _ => none

/-- Global bases, with the multiple that each must be (R205). -/
def Copy.globalBases (x : Copy) : List (DWord × Nat) :=
  let n := x.esize
  match x.fn with
  | 0 => [(x.reg 0, n)]
  | 1 => [(x.reg 1, n)]
  | 2 => [(x.reg 0, n)]
  | 3 => if x.ctl.getLsbD 5 then [(x.reg 1, n)] else []
  | 8 => [(x.reg 0, n), (x.reg 6, 4)]
  | 9 => [(x.reg 1, n), (x.reg 6, 4)]
  | _ => [(x.reg 0, n), (x.reg 1, n)]

/-- BEN (Table 8-7). -/
def Copy.ben (x : Copy) : Bool := x.ctl.getLsbD 4

/-- A condition of R205 holds: `wb` is the control word, `bars` and `limit` are those of the group. -/
def Copy.bad (x : Copy) (wb : Word) (bars : Nat) (limit : Int) : Bool :=
  let v := wb.toNat
  let res := v / 64 % 4 != 0 || v / 512 != 0 || (x.fn != 3 && v / 32 % 2 == 1) ||
    x.geo.toNat / 8 % 2 == 1 || Nat.ble 64 x.geo.toNat
  let loc := match x.localSide with
    | none => false
    | some (b, lo, hi) =>
      Nat.ble (2 ^ 18) b.toNat || (x.total != 0 && decide ((b.toNat : Int) + lo < 0 ∨ limit ≤ b.toNat + hi))
  res || Nat.ble 5 (x.geo.toNat % 8) ||
  (x.ben && (!x.toLocal || Nat.ble bars (v % 16))) ||
  ((x.fn == 8 || x.fn == 9) && x.ndim != 1) ||
  (x.globalBases.any fun g => g.1.toNat % g.2 != 0) || loc ||
  Nat.ble (2 ^ 32) (x.esize * x.total)

/-! ## Issue -/

/-- The instructions of a wave that have accesses outstanding: what an X form's engine waits for (R245). -/
def State.ownGrps (s : State) (w : Wave) : List Nat := s.grpsOf w.core fun k => k == w.slot

/-- Barriers and bytes of local memory of a wave's group. -/
def State.groupBars (s : State) (w : Wave) : Nat :=
  match s.groupOf w with
  | some g => g.bars
  | none => 0

/-- A COPY command: it latches its packet and checks it (R203, R205); 128 copies of a core may be in
flight. -/
def copyOp (fn : Nat) (sw : Bool) (d b : Reg) (s : State) : Out :=
  xOp s sw [(b, 1)] [(d, 1)] fun s w p =>
    let wb := w.readW b
    let base := if wb.getLsbD 8 then 8 else 0
    let cd (k : Nat) : DWord := Tab.get 0 w.cd (base + k)
    let (id, s) := s.fresh
    let x : Copy :=
      { id, fn, ctl := wb.setWidth 8, gslot := w.gslot, slot := w.slot, asid := s.asidOf w,
        cd := (List.range 7).map cd, geo := (cd 7).setWidth 8, bytes := 0, pc := p.pc, lid := s.lidOf w,
        needs := s.ownGrps w }
    let x := { x with bytes := x.esize * x.total }
    if x.bad wb (s.groupBars w) (s.localLimit w) || Nat.ble 256 (cd 7).toNat then s.trapBy w p 0x143
    else if Nat.ble 128 (s.core w.core).copies.length then s.stallWave w
    else
      let s := if x.bytes == 0 then s
        else s.modCore w.core fun c => { c with copies := c.copies ++ [x] }
      s.xReply w sw d (.val (BitVec.ofNat 32 x.bytes))

/-- CP.LD (Table 8-9). -/
def execCpLd (sw : Bool) (d b : Reg) (s : State) : Out := copyOp 0 sw d b s
/-- CP.ST (Table 8-9). -/
def execCpSt (sw : Bool) (d b : Reg) (s : State) : Out := copyOp 1 sw d b s
/-- CP.LDZ (Table 8-9). -/
def execCpLdz (sw : Bool) (d b : Reg) (s : State) : Out := copyOp 2 sw d b s
/-- CP.FILL (Table 8-9). -/
def execCpFill (sw : Bool) (d b : Reg) (s : State) : Out := copyOp 3 sw d b s
/-- CP.CPY (Table 8-9). -/
def execCpCpy (sw : Bool) (d b : Reg) (s : State) : Out := copyOp 4 sw d b s
/-- CP.SLW (Table 8-9). -/
def execCpSlw (sw : Bool) (d b : Reg) (s : State) : Out := copyOp 5 sw d b s
/-- CP.GATHER (Table 8-9). -/
def execCpGather (sw : Bool) (d b : Reg) (s : State) : Out := copyOp 8 sw d b s
/-- CP.SCATTER (Table 8-9). -/
def execCpScatter (sw : Bool) (d b : Reg) (s : State) : Out := copyOp 9 sw d b s

/-- CP.STATUS (R209). -/
def execCpStatus (sw : Bool) (d b : Reg) (s : State) : Out :=
  xOp s sw [(b, 1)] [(d, 1)] fun s w p =>
    let v := w.readW b
    if v.toNat / 2 != 0 then s.trapBy w p 0x143
    else
      let n := ((s.core w.core).copies.filter fun x => x.toLocal != (v == 1)).length
      s.xReply w sw d (.val (BitVec.ofNat 32 n))

/-! ## Elements -/

/-- The packet image of Table 8-8. -/
def Copy.image (x : Copy) : List Byte :=
  [BitVec.ofNat 8 x.fn, x.geo, x.ctl, BitVec.ofNat 8 (x.gslot % 32), BitVec.ofNat 8 x.slot, 0, 0, 0] ++
  (x.cd.map fun v => bytesLE 8 v.toNat).flatten

/-- Replaces a copy. -/
def State.setCopy (s : State) (core : Nat) (x : Copy) : State :=
  s.modCore core fun c => { c with copies := c.copies.map fun y => if y.id == x.id then x else y }

/-- A violation ends a copy, which is reported (R208, R402). -/
def State.freezeCopy (s : State) (core : Nat) (x : Copy) (cause : Cause) (va : DWord) : State :=
  (s.modCore core fun c => { c with copies := c.copies.filter fun y => y.id != x.id }).postAsync
    { asid := x.asid, cause, engine := 1, frozen := true, gslot := x.gslot, slot := x.slot, core,
      lid := x.lid, pc := x.pc, addr := va, op := x.id }

/-- A copy waits for the replay of its record (R208, R263); without a free record it tries again. -/
def State.holdCopy (s : State) (core : Nat) (x : Copy) (va : DWord) (write : Bool) (kind : Nat) : State :=
  match s.freeRec core 1 with
  | none => s
  | some idx =>
    let r : FRec :=
      { src := 1, idx, core, kind, access := if write then 5 else 4, asid := x.asid, gslot := x.gslot,
        slot := x.slot, pc := x.pc, posted := s.clock
        accs := [{ grp := x.id, lane := 32, va, pc := x.pc, kind := .cmd x.id }] }
    (s.setCopy core { x with held := true }).addRec r kind

/-- One translated access of a copy: the physical address, or what becomes of the copy. A CP.SLW write to a way that is not
locked for the context is reported as SLICE_WINDOW (R196), where R204 and R208 could be read to give COPY_ACCESS (DEDUCED,
log entry 38). -/
def State.copyPa (s : State) (core : Nat) (x : Copy) (va : DWord) (write : Bool) : Except State Nat × State :=
  let s0 := s
  match s.translate core .copy x.asid (if write then { w := true } else { r := true }) va with
  | (.ok pa _, s) =>
    if write && x.fn == 5 && !inSlice pa then (.error (s.freezeCopy core x 0x200 va), s)
    else if !s.windowOk x.asid pa then (.error (s.freezeCopy core x 0x142 va), s)
    else (.ok pa, s)
  | (.miss k, s) => (.error (s.holdCopy core x va write k), s)
  | (.viol c, s) => (.error (s.freezeCopy core x (if c == 0x106 then c else 0x200) va), s0)

/-- The index of a row: its 32-byte line is read once (R206). -/
def State.copyIndex (s : State) (core : Nat) (x : Copy) (row : Nat) : Except State Nat × Copy × State :=
  let va : DWord := x.reg 6 + BitVec.ofNat 64 (4 * row)
  let line := va.toNat / 32
  let pick (bs : List Byte) : Nat := fieldNat bs (va.toNat % 32) 4
  match assoc x.lines line with
  | some bs => (.ok (pick bs), x, s)
  | none =>
    match s.copyPa core x va false with
    | (.ok pa, s) =>
      let (bs, s) := s.bankRead x.asid (pa / 32 * 32) 32
      (.ok (pick bs), { x with lines := (line, bs) :: x.lines }, s)
    | (.error t, s) => (.error t, x, s)

/-- A side of an element: an offset in the group's local memory, a global address, a value, or none. -/
inductive CSide where
  | loc (off : Int)
  | glob (va : DWord)
  | value (bs : List Byte)
  | skip
  deriving DecidableEq, Repr

/-- An element of CP.LDZ is in bounds (R204). -/
def Copy.inBounds (x : Copy) (j : Nat) : Bool :=
  let t := x.tuple j
  let lo : List Nat := [h16 (x.reg 4) 2, h16 (x.reg 4) 3, h16 (x.reg 5) 0, h16 (x.reg 5) 1]
  let hi : List Nat := [h16 (x.reg 5) 2, h16 (x.reg 5) 3, h16 (x.reg 6) 0, h16 (x.reg 6) 1]
  [t.1, t.2.1, t.2.2.1, t.2.2.2].zipIdx.all fun e =>
    Nat.blt x.ndim e.2 || (Nat.ble (lo.getD e.2 0) e.1 && Nat.blt e.1 (hi.getD e.2 0))

/-- The source and the destination of element j, given the index of its row (Table 8-9). -/
def Copy.sides (x : Copy) (j idx : Nat) : CSide × CSide :=
  let n := x.esize
  let glob (b : DWord) (d : Int) : CSide := .glob (b + BitVec.ofInt 64 d)
  let loc (b : DWord) (d : Int) : CSide := .loc (b.toNat + d)
  let zero : CSide := .value (List.replicate n 0)
  let row (step : Int) : Int := (n : Int) * ((x.tuple j).1 + idx * step)
  let src := glob (x.reg 0) (x.stride x.sstep j)
  let fill : CSide :=
    .value ((bytesLE 8 (x.reg 0).toNat ++ bytesLE 8 (x.reg 0).toNat).take n)
  match x.fn with
  | 0 => (src, loc (x.reg 1) (x.stride x.dstep j))
  | 1 => (loc (x.reg 0) (x.stride x.sstep j), glob (x.reg 1) (x.stride x.dstep j))
  | 2 => (if x.inBounds j then src else zero, loc (x.reg 1) ((n * j : Nat) : Int))
  | 3 => (fill, if x.ctl.getLsbD 5 then glob (x.reg 1) (x.stride x.dstep j)
      else loc (x.reg 1) (x.stride x.dstep j))
  | 8 => (if idx == 0xFFFFFFFF then zero else glob (x.reg 0) (row (x.sstep 1)),
      loc (x.reg 1) ((n * j : Nat) : Int))
  | 9 => if idx == 0xFFFFFFFF then (.skip, .skip)
      else (loc (x.reg 0) ((n * j : Nat) : Int), glob (x.reg 1) (row (x.dstep 1)))
  | _ => (src, glob (x.reg 1) (x.stride x.dstep j))

/-- Bytes of an element that one access moves: an element of 16 bytes moves by its halves (R194, R206). -/
def Copy.piece (x : Copy) : Nat := min 8 x.esize

/-- The bytes of a source from byte `n` of the element on. -/
def State.readSide (s : State) (core : Nat) (x : Copy) (c : CSide) (n : Nat) : Except State (List Byte) × State :=
  match c with
  | .value bs => (.ok (bs.drop n), s)
  | .skip => (.ok [], s)
  | .loc off =>
    let (b, s) := s.bankRead x.asid (localBase core x.gslot + off.toNat + n) x.piece
    (.ok b, s)
  | .glob va =>
    match s.copyPa core x (va + BitVec.ofNat 64 n) false with
    | (.ok pa, s) =>
      let (b, s) := s.bankRead x.asid pa x.piece
      (.ok b, s)
    | (.error t, s) => (.error t, s)

/-- Writes bytes of a destination at byte `n` of the element. -/
def State.writeSide (s : State) (core : Nat) (x : Copy) (c : CSide) (n : Nat) (bs : List Byte) :
    Except State Unit × State :=
  match c with
  | .loc off => (.ok (), s.bankWrite (localBase core x.gslot + off.toNat + n) bs)
  | .glob va =>
    match s.copyPa core x (va + BitVec.ofNat 64 n) true with
    | (.ok pa, s) => (.ok (), s.engineWrite core 1 pa bs)
    | (.error t, s) => (.error t, s)
  | _ => (.ok (), s)

/-- Element j has been moved. -/
def Copy.mark (x : Copy) (j : Nat) : Copy :=
  let m := j :: x.moved
  let rec0 (n : Nat) : Nat × List Nat :=
    (List.range x.moved.length.succ).foldl (fun (t : Nat × List Nat) _ =>
      if t.2.any fun i => i == t.1 then (t.1 + 1, t.2.filter fun i => i != t.1) else t) (n, m)
  let r := rec0 x.next
  { x with next := r.1, moved := r.2 }

/-- The accesses before a command are performed, as far as they may be: false while one is held (R245). -/
def State.settleNeeds (s : State) (core : Nat) (needs : List Nat) : Bool × State :=
  let s := s.forceGrps core needs
  (!needs.any fun g => s.outstanding core g, s)

/-- A gather or a scatter has a thread context of its TRP (R206, R357). -/
def Core.gatherRuns (c : Core) (k : Nat) : Bool :=
  Nat.blt (((c.copies.take k).filter fun x => x.fn == 8 || x.fn == 9).length + c.trp.threads.length) 64

/-- The element under way with number j. -/
def Copy.part (x : Copy) (j : Nat) : CopyElem := (x.parts.find? fun e => e.j == j).getD { j }
/-- Keeps an element under way. -/
def Copy.setPart (x : Copy) (e : CopyElem) : Copy := { x with parts := e :: x.parts.filter fun y => y.j != e.j }
/-- An element has been written whole. -/
def Copy.endPart (x : Copy) (j : Nat) : Copy := { x with parts := x.parts.filter fun y => y.j != j }.mark j

/-- A copy moves element j on by one access: reads, and then writes of what was read, which a write that has faulted
does not read again (R206, R266). -/
def State.moveElement (s : State) (core k j : Nat) : State :=
  match (s.core core).copies[k]? with
  | none => s
  | some x =>
    if ((x.fn == 8 || x.fn == 9) && !(s.core core).gatherRuns k) || x.held || Nat.blt j x.next ||
        (x.moved.any fun i => i == j) || Nat.ble x.total j then s
    else match s.settleNeeds core x.needs with
      | (false, s) => s
      | (true, s) =>
        let idx : Except State Nat × Copy × State :=
          if x.fn == 8 || x.fn == 9 then s.copyIndex core x (x.tuple j).2.1 else (.ok 0, x, s)
        match idx with
        | (.error t, _, _) => t
        | (.ok i, x, s) =>
          let s := s.setCopy core x
          let (src, dst) := x.sides j i
          let e := x.part j
          if src == .skip then s.setCopy core (x.endPart j)
          else if Nat.blt e.bytes.length x.esize then
            match s.readSide core x src e.bytes.length with
            | (.error t, _) => t
            | (.ok bs, s) => s.setCopy core (x.setPart { e with bytes := e.bytes ++ bs })
          else
            match s.writeSide core x dst e.done ((e.bytes.drop e.done).take x.piece) with
            | (.error t, _) => t
            | (.ok _, s) =>
              let n := e.done + x.piece
              s.setCopy core (if Nat.ble x.esize n then x.endPart j else x.setPart { e with done := n })

/-- A copy has moved its last element: it leaves, and subtracts its bytes (R207). -/
def State.finishCopy (s : State) (core : Nat) (x : Copy) : State :=
  let s := s.modCore core fun c => { c with copies := c.copies.filter fun y => y.id != x.id }
  if !x.ben then s
  else
    let n := x.ctl.toNat % 16
    match s.group? core x.gslot with
    | none => s
    | some g =>
      if g.bytesAt n - x.bytes < -(2 ^ 35 : Int) then
        s.postAsync { asid := x.asid, cause := 0x201, engine := 1, gslot := x.gslot, slot := x.slot, core,
                      lid := x.lid, pc := x.pc, image := some x.image, op := x.id }
      else s.addBytes core x.gslot n (-(x.bytes : Int)) true

/-- COPY_COMPLETION (R206, R207). -/
def execCopyCompletion (core k : Nat) (s : State) : Out :=
  match (s.core core).copies[k]? with
  | some x => .next (if x.total == x.next && !x.held then s.finishCopy core x else s)
  | none => .next s

end Sys2Proof.Machine
end

