-- ==== Sys2Proof/Machine/Residency.lean ====
section
/-! DEFINITION. Launch records and their checks (R157, R158), the reservations of groups (R165 to R167),
the start of groups and their release (R144, R162, R168). -/

namespace Sys2Proof.Machine

/-! ## The launch record -/

/-- A handler-group declaration, before its binding entries are read (Table 7-2). -/
def readHgd (b : List Byte) : Hgd where
  bindv := BitVec.ofNat 64 (fieldNat b 0 8)
  nbind := fieldNat b 8 1
  hwaves := fieldNat b 9 1
  blocks := fieldNat b 10 1
  bars := fieldNat b 11 1
  localkb := fieldNat b 12 2
  cslots := fieldNat b 14 1
  wide := fieldNat b 15 1 == 1
  dslots := fieldNat b 16 2
  fpcr := BitVec.ofNat 32 (fieldNat b 20 4)
  binds := []

/-- The declarations of a record. -/
def recHgds (b : List Byte) : List (List Byte) :=
  (List.range (min (fieldNat b 51 1) 2)).map fun i => (b.drop (64 + 32 * i)).take 32

/-- A launch record (Table 7-1). -/
def readRec (b : List Byte) : LRec where
  entry := BitVec.ofNat 64 (fieldNat b 0 8)
  args := BitVec.ofNat 64 (fieldNat b 8 8)
  gx := fieldNat b 16 4
  gy := fieldNat b 20 4
  gz := fieldNat b 24 4
  gang := fieldNat b 28 2
  waves := fieldNat b 30 1
  taskw := fieldNat b 31 1
  blocks := fieldNat b 32 1
  bars := fieldNat b 33 1
  localkb := fieldNat b 34 2
  cslots := fieldNat b 36 1
  prio := BitVec.ofNat 2 (fieldNat b 37 1)
  dslots := fieldNat b 38 2
  fpcr := BitVec.ofNat 32 (fieldNat b 40 4)
  age := fieldNat b 44 2
  wdog := fieldNat b 46 1
  part := fieldNat b 47 1
  asid := fieldNat b 48 2
  checked := fieldNat b 50 1 % 2 == 1
  serial := fieldNat b 50 1 / 2 % 2 == 1
  lvl := fieldNat b 50 1 / 16
  done := BitVec.ofNat 64 (fieldNat b 56 8)
  hgds := (recHgds b).map readHgd

/-- A number lies in a range. -/
def within (lo hi n : Nat) : Bool := Nat.ble lo n && Nat.ble n hi

/-- The capsule window fits the local memory (R184). -/
def capsFit (cslots localkb : Nat) : Bool := Nat.ble (4352 * cslots) (1024 * localkb)

/-- The fields of a record are in range (Table 7-1). -/
def recOk (b : List Byte) (r : LRec) : Bool :=
  let fl := fieldNat b 50 1
  r.entry.toNat % 4 == 0 && r.gx != 0 && r.gy != 0 && r.gz != 0 && within 1 1024 r.gang &&
  r.gx * r.gy * r.gz % r.gang == 0 && within 1 32 r.waves && Nat.ble (r.waves + r.taskw) 32 &&
  within 1 8 r.blocks && Nat.ble r.bars 16 && Nat.ble r.localkb 256 && Nat.ble r.cslots 16 &&
  capsFit r.cslots r.localkb && Nat.blt (fieldNat b 37 1) 4 && Nat.ble r.dslots 256 &&
  (r.fpcr &&& ~~~fpcrMask) == 0 && (r.age == 0 || within 16 256 r.age) &&
  (r.wdog == 0 || within 20 40 r.wdog) && Nat.ble r.part 7 && fl / 4 % 4 == 0 &&
  (r.lvl == 0 || within 10 16 r.lvl) && Nat.ble (fieldNat b 51 1) 2 && r.done.toNat % 8 == 0

/-- The fields of a declaration are in range (Table 7-2). -/
def hgdOk (b : List Byte) (h : Hgd) : Bool :=
  h.bindv.toNat % 16 == 0 && within 1 16 h.nbind && within 1 32 h.hwaves && within 1 8 h.blocks &&
  Nat.ble h.bars 16 && Nat.ble h.localkb 256 && Nat.ble h.cslots 16 && capsFit h.cslots h.localkb &&
  Nat.ble (fieldNat b 15 1) 1 && Nat.ble h.dslots 256 && fieldNat b 18 2 == 0 &&
  (h.fpcr &&& ~~~fpcrMask) == 0 && fieldNat b 24 8 == 0

/-- A binding entry, if it is valid: PC, class, priority, enable. Bits 7:1 of byte 10, of which the spec says nothing, must be
zero (DESIGN CHOICE, log entry 101; R157, R158). -/
def readBind (b : List Byte) : Option (DWord × Nat × BitVec 2 × Bool) :=
  if fieldNat b 0 8 % 4 == 0 && Nat.blt (fieldNat b 8 1) 16 && Nat.blt (fieldNat b 9 1) 4 &&
      Nat.blt (fieldNat b 10 1) 2 && fieldNat b 11 5 == 0 then
    some (BitVec.ofNat 64 (fieldNat b 0 8), fieldNat b 8 1, BitVec.ofNat 2 (fieldNat b 9 1),
      fieldNat b 10 1 == 1)
  else none

/-- The record and its declarations are in range, before the binding entries are read. -/
def rawOk (b : List Byte) : Bool :=
  recOk b (readRec b) && (recHgds b).all fun h => hgdOk h (readHgd h)

/-- The record with its binding entries, given as one list of 16-byte entries for each declaration; none
when one is invalid or a class is bound twice (R158). -/
def bindRec (b : List Byte) (bs : List (List (List Byte))) : Option LRec :=
  let r := readRec b
  let hs := (r.hgds.zip bs).map fun e => { e.1 with binds := e.2.filterMap readBind }
  let cls := (hs.map fun h => h.binds.map fun x => x.2.1).flatten
  if (bs.all fun l => l.all fun e => (readBind e).isSome) && cls.eraseDups.length == cls.length
  then some { r with hgds := hs } else none

/-! ## Reservations -/

/-- What a group reserves on its core (Table 7-4). -/
structure Claim where
  waves : Nat
  blocks : Nat
  bars : Nat
  localkb : Nat
  cslots : Nat
  deriving DecidableEq, Repr

def LRec.claim (r : LRec) : Claim := ⟨r.waves + r.taskw, r.blocks, r.bars, r.localkb, r.cslots⟩
def Hgd.claim (h : Hgd) : Claim := ⟨h.hwaves, h.blocks, h.bars, h.localkb, h.cslots⟩

/-- Sum over groups. -/
def sumOf (gs : List Group) (f : Group → Nat) : Nat := (gs.map f).foldl (· + ·) 0

/-- Free register blocks of a partition. -/
def freeBlocks (gs : List Group) (part : Nat) : Nat :=
  96 - sumOf gs fun g => g.blocks * (g.slots.filter fun k => partOf k == part).length

/-- The partition with the most free register blocks (R19). -/
def bestPart (gs : List Group) : Nat :=
  (List.range 8).foldl (fun a p => if Nat.blt (freeBlocks gs a) (freeBlocks gs p) then p else a) 0

/-- Wave slots dealt from a partition on (R19): the lowest free slot of each wave's partition, when it has
room (log entry 7). -/
def dealSlots (gs : List Group) (blocks : Nat) : Nat → Nat → List Nat → Option (List Nat)
  | 0, _, taken => some taken
  | n + 1, part, taken =>
    let used := (gs.map fun g => g.slots).flatten ++ taken
    let mine := (taken.filter fun k => partOf k == part).length
    match (List.range 16).find? fun k => !used.any fun u => u == 16 * part + k with
    | none => none
    | some k =>
      if Nat.ble (blocks * (mine + 1)) (freeBlocks gs part)
      then dealSlots gs blocks n ((part + 1) % 8) (taken ++ [16 * part + k])
      else none

/-- The group slot and the wave slots that a core with given groups can give a claim. -/
def fitClaim (gs : List Group) (c : Claim) : Option (Nat × List Nat) :=
  match (List.range 32).find? fun k => !gs.any fun g => g.gslot == k with
  | none => none
  | some k =>
    if Nat.ble (c.localkb + sumOf gs fun g => g.localkb) 256 &&
        Nat.ble (c.bars + sumOf gs fun g => g.bars) 256 &&
        Nat.ble (c.cslots + sumOf gs fun g => g.cslots) 16 then
      (dealSlots gs c.blocks c.waves (bestPart gs) []).map fun l => (k, l)
    else none

/-- A group of a launch as it is reserved. -/
def mkGroup (r : LRec) (lid core gslot n : Nat) (slots : List Nat) : Group :=
  { core, gslot, lid, asid := r.asid, hgd := none, index := n, gang := n / r.gang, waves := r.waves,
    taskw := r.taskw, blocks := r.blocks, bars := r.bars, localkb := r.localkb, cslots := r.cslots,
    fpcr := r.fpcr, prio := r.prio, slots, checked := r.checked, part := r.part }

/-- A handler group of a launch. -/
def mkHandler (r : LRec) (h : Hgd) (i lid core gslot : Nat) (slots : List Nat) : Group :=
  { core, gslot, lid, asid := r.asid, hgd := some i, index := 0, gang := 0xFFFFFFFF, waves := h.hwaves,
    taskw := 0, blocks := h.blocks, bars := h.bars, localkb := h.localkb, cslots := h.cslots,
    fpcr := h.fpcr, prio := 0, slots, checked := r.checked, part := r.part }

/-- The handler groups of a scope that a core needs for a launch and does not hold. -/
def needHandlers (r : LRec) (lid core : Nat) (wide : Bool) (gs : List Group) : List (Nat × Hgd) :=
  (r.hgds.zipIdx.filter fun e => e.1.wide == wide &&
    !gs.any fun g => g.core == core && g.lid == lid && g.hgd == some e.2).map fun e => (e.2, e.1)

/-- Adds handler groups on a core to the groups there. -/
def addHandlers (r : LRec) (lid core : Nat) : List (Nat × Hgd) → List Group → Option (List Group)
  | [], gs => some gs
  | (i, h) :: t, gs =>
    match fitClaim (gs.filter fun g => g.core == core) h.claim with
    | none => none
    | some (k, sl) => addHandlers r lid core t (gs ++ [mkHandler r h i lid core k sl])

/-- Adds group n of a launch on a core, with the handler groups it needs there. -/
def addGroup (r : LRec) (lid core n : Nat) (gs : List Group) : Option (List Group) :=
  match fitClaim (gs.filter fun g => g.core == core) r.claim with
  | none => none
  | some (k, sl) =>
    addHandlers r lid core (needHandlers r lid core false gs) (gs ++ [mkGroup r lid core k n sl])

/-- Cores in search order: those of a set after a core, then the others (R166). -/
def searchOrder (set : List Nat) (last : Option Nat) : List Nat :=
  match last with
  | none => set
  | some k => (set.filter fun c => Nat.blt k c) ++ set.filter fun c => Nat.ble c k

/-- Places the groups of a gang one after another (R166): all the groups, and the last core chosen. -/
def placeGroups (r : LRec) (lid : Nat) (set : List Nat) :
    List Nat → Option Nat → List Group → Option (List Group × Option Nat)
  | [], last, gs => some (gs, last)
  | n :: t, last, gs =>
    match (searchOrder set last).findSome? fun c => (addGroup r lid c n gs).map fun x => (c, x) with
    | none => none
    | some (c, gs) => placeGroups r lid set t (some c) gs

/-- Reserves the handler groups of SCOPE 1 on every core of a set (R167). -/
def placeWide (r : LRec) (lid : Nat) : List Nat → List Group → Option (List Group)
  | [], gs => some gs
  | c :: t, gs =>
    match addHandlers r lid c (needHandlers r lid c true gs) gs with
    | none => none
    | some gs => placeWide r lid t gs

/-- The cores of a partition, or those outside all partitions (R166, R180): SCOPE 1 with PART 0, which Table 7-2 gives 'all
160 cores', leaves the cores of partitions out (DESIGN CHOICE, log entry 101; R157). -/
def State.coreSet (s : State) (part : Nat) : List Nat :=
  (List.range 160).filter fun c => s.partAt (c / 2) == part

/-- Delta slots that a launch may bind in all. -/
def LRec.allDslots (r : LRec) : Nat := r.dslots + (r.hgds.map fun h => h.dslots).foldl (· + ·) 0

/-- One gang fits with no other work resident, and the delta slots of the launch do (R158, Table 7-4). -/
def State.gangFits (s : State) (r : LRec) : Bool :=
  let set := s.coreSet r.part
  Nat.ble r.allDslots 256 && match placeWide r 0 set [] with
    | none => false
    | some gs => (placeGroups r 0 set (List.range r.gang) none gs).isSome

/-- Bound delta slots of a context. -/
def State.boundSlots (s : State) (asid : Nat) : Nat :=
  (s.slots.filter fun e => e.1 / 256 == asid && e.2.bound).length

/-- The delta slots of a launch can be reserved (R338). -/
def State.dslotsFit (s : State) (l : Launch) : Bool :=
  let mine := s.dleft.filter fun e => s.launches.any fun k => k.lid == e.1 && k.recd.asid == l.recd.asid
  Nat.ble (s.boundSlots l.recd.asid + (mine.map fun e => e.2).foldl (· + ·) 0 + l.recd.allDslots) 256

/-! ## Validation -/

/-- The refusal code of a record whose fields and binding entries are good (R158, R163): PARTITION,
NOFIT, QUEUE_FULL. `issuer` is the partition and the context of a device-side launch. -/
def State.refuseCode (s : State) (r : LRec) (issuer : Option Nat) : Option Nat :=
  let part := match issuer with
    | some p => r.part != p
    | none => false
  let mine := s.launches.filter fun l => Nat.ble 256 l.queue && l.recd.asid == r.asid &&
    Nat.blt l.next (l.recd.gx * l.recd.gy * l.recd.gz / l.recd.gang)
  if part || (r.part != 0 && !s.partAsids.any fun e => e == (r.part, r.asid)) then some 3
  else if !s.gangFits r then some 2
  else if issuer.isSome && Nat.ble 64 mine.length then some 4
  else none

/-- The DONE word of a launch (R162): none is made when the context may not write it. -/
def State.writeDone (s : State) (asid lid : Nat) (done : DWord) (status : Nat) : State :=
  if done == 0 then s
  else
    let fail := s.postAsync { asid, cause := 0x102, engine := 8, lid, addr := done }
    match s.walkTo asid 3 done with
    | none => fail
    | some pa => s.bankWrite pa (bytesLE 4 lid ++ bytesLE 4 status)

/-- Accepts a launch into a queue, or completes it at once with a code (R160, R162, R164): its id and
the state. -/
def State.acceptLaunch (s : State) (r : Option LRec) (raw : LRec) (code : Option Nat) (queue : Nat)
    (src : Nat) (needs : List Nat) : Nat × State :=
  let lid := s.nextLaunch
  let prior := Tab.get 0 s.lastOf queue
  let s := { s with nextLaunch := s.nextLaunch + 1, lastOf := Tab.put 0 s.lastOf queue lid }
  match r, code with
  | some r, none =>
    (lid, { s with launches := s.launches ++
      [{ lid, recd := r, queue, accepted := s.clock, since := s.clock, src, needs, prior }] })
  | _, some k => (lid, s.writeDone raw.asid lid raw.done (0x10000 + k))
  | _, none => (lid, s)

/-! ## Starting and releasing -/

/-- Two groups have a group slot or a wave slot of a core in common. -/
def Group.meets (g h : Group) : Bool :=
  g.core == h.core && (g.gslot == h.gslot || g.slots.any fun k => h.slots.any fun i => i == k)

/-- Handler-table entries of a handler group (R274). -/
def State.bindGroup (s : State) (g : Group) (h : Hgd) : State :=
  s.modCore g.core fun c => { c with htab := h.binds.foldl (fun t b =>
    Tab.put none t (16 * g.asid + b.2.1) (some ⟨b.1, g.gslot, b.2.2.1, b.2.2.2⟩)) c.htab }

/-- The launched waves of a group start (R159); the start is an acquire at device scope (R164). -/
def State.startGroup (s : State) (r : LRec) (g : Group) : State :=
  let s := s.l1Clear g.core
  (g.slots.take g.waves).zipIdx.foldl (fun s e =>
    s.startWave (newWave g.core e.1 g.gslot e.2 .launched (BitVec.allOnes 32) r.entry r.prio r.fpcr
      (wregs (wpair 2 r.args)))) s

/-- Adds groups to the resident ones, binds handler groups and starts the others. -/
def State.addGroups (s : State) (r : LRec) (gs : List Group) : State :=
  gs.foldl (fun s g =>
    let old := s.groupSlots g.core
    let (gid, s) := s.fresh
    let s : State := { s with launches := s.launches.map fun l => { l with freed := l.freed.filter fun h => !h.meets g } }
    let s := { s with groups := s.groups ++ [{ g with gid }] }.reshare g.core old
    match g.hgd with
    | some i => match r.hgds[i]? with
      | some h => s.bindGroup g h
      | none => s
    | none => s.startGroup r g) s

/-- Gangs of a launch. -/
def Launch.gangs (l : Launch) : Nat := l.recd.gx * l.recd.gy * l.recd.gz / l.recd.gang

/-- A launch whose next gang its queue lets start (R161); pre-empted gangs of its context and of its partition come back
first (R181). -/
def State.eligible (s : State) (l : Launch) : Bool :=
  Nat.blt l.next l.gangs && s.runs l.recd.asid l.recd.part &&
  !(s.saved.any fun v => v.asid == l.recd.asid && !v.missing && v.groups.any fun g => g.part == l.recd.part) &&
  !(l.recd.serial && s.launches.any fun k => k.lid == l.prior) &&
  !s.launches.any fun k => k.queue == l.queue && Nat.blt k.lid l.lid && Nat.blt k.next k.gangs

/-- What is held for older reserving gangs: the groups freed on the cores of their sets since they have been reserving (R161;
log entry 102). -/
def State.heldFor (s : State) (l : Launch) : List Group :=
  ((s.launches.filter fun k => k.reserving && Nat.blt k.lid l.lid && s.eligible k).map fun k => k.freed).flatten

/-- The groups that the next gang of a launch would add, with the last core chosen; none when the gang
cannot be placed (R161, R166, R167). -/
def State.planGang (s : State) (l : Launch) : Option (List Group × Option Nat) :=
  let set := s.coreSet l.recd.part
  let here := s.groups ++ s.heldFor l
  let old := here.length
  match (if l.next == 0 then placeWide l.recd l.lid set here else some here) with
  | none => none
  | some gs =>
    if l.next == 0 && !s.dslotsFit l then none
    else
      (placeGroups l.recd l.lid set ((List.range l.recd.gang).map fun i => l.next * l.recd.gang + i)
        l.lastCore gs).map fun r => (r.1.drop old, r.2)

/-- Clears the handler-table entries of a handler group (R274). -/
def State.unbindGroup (s : State) (g : Group) : State :=
  s.modCore g.core fun c => { c with htab := c.htab.filter fun e => match e.2 with
    | some x => !(e.1 / 16 == g.asid && x.hgroup == g.gslot)
    | none => true }

/-- What a group frees is held for each reserving gang that may use its core (R161). -/
def State.holdFreed (s : State) (g : Group) : List Launch :=
  s.launches.map fun l =>
    if l.reserving && (s.coreSet l.recd.part).any (fun c => c == g.core) then
      { l with freed := g :: l.freed.filter fun h => !h.meets g }
    else l

/-- Removes a group and its ended waves; the sets of the first-level TLB are shared out again. -/
def State.removeGroup (s : State) (g : Group) : State :=
  let old := s.groupSlots g.core
  { s with
    launches := s.holdFreed g
    groups := s.groups.filter fun x => !x.at g.core g.gslot
    waves := s.waves.filter fun w => !(w.core == g.core && w.gslot == g.gslot) }.reshare g.core old

/-- Nothing that a group issued against its local memory is outstanding, and its waves have nothing left
(R144). -/
def State.groupIdle (s : State) (g : Group) : Bool :=
  let c := s.core g.core
  g.slots.all (fun k => s.slotFree g.core k) &&
  !(c.copies.any fun x => x.gslot == g.gslot && x.localSide.isSome) &&
  !(c.sq.any fun e => g.slots.any fun k => k == e.slot) &&
  !((s.cluster (clusterOf g.core)).fctx.any fun f =>
    f.inbox.any fun m => m.core == g.core && m.gslot == g.gslot) &&
  !(s.cmds.any fun x => x.core == g.core && x.gslot == g.gslot) &&
  !(g.caps.any fun e => match e.2 with
    | some x => x.out.isSome
    | none => false) &&
  !(s.net.any fun p => p.src == g.core && match p.pull with
    | some x => x.1 == g.gslot
    | none => false)

end Sys2Proof.Machine
end

