-- ==== Sys2Proof/Machine/Commands.lean ====
section
/-! DEFINITION. Commands of waves that an engine or the core scheduler carries out after their issue
(R23, R245): their accesses are made for the wave, and a translation fault on one is taken as an LDG
fault would be (R164). -/

namespace Sys2Proof.Machine

/-- The lane that a command's fault names: the lowest live lane of the path that is no helper lane. -/
def Wave.firstLane (w : Wave) (p : Path) : Nat := (lowest (w.lanesOfPath p &&& ~~~w.helper)).getD 0

/-- A command of a wave, with a fresh id. -/
def State.newCmd (s : State) (w : Wave) (p : Path) (maj fn : Nat) (d : Reg) (wa : DWord) (wb : Word)
    (blk : List Byte) (needs : List Nat) : Cmd × State :=
  let (id, s) := s.fresh
  ({ id, core := w.core, slot := w.slot, gslot := w.gslot, asid := s.asidOf w, lid := s.lidOf w, pc := p.pc,
     maj, fn, dst := d, wa, wb, blk, needs, lane := w.firstLane p, word := w.word }, s)

/-- The wave goes on, and the command waits for its engine. -/
def State.postCmd (s : State) (w : Wave) (sw : Bool) (x : Cmd) : State :=
  { s with cmds := s.cmds ++ [x] }.xReply w sw x.dst (.reply x.id)

/-- Removes a command. -/
def State.dropCmd (s : State) (id : Nat) : State := { s with cmds := s.cmds.filter fun c => c.id != id }

/-- A command ends with a reply. -/
def State.endCmd (s : State) (x : Cmd) (v : Word) : State := (s.dropCmd x.id).replyAll x.id v

/-- The access that a command waits for. -/
def Cmd.acc (x : Cmd) (va : DWord) : Acc :=
  { grp := x.id, lane := x.lane, va, pc := x.pc, word := x.word, kind := .cmd x.id }

/-- A command waits for the replay of an access, or the wave is frozen by it (R164, R263, R402). Without a
free record it waits to be tried again. -/
def State.holdCmd (s : State) (x : Cmd) (va : DWord) (code : Nat) (t : Tr) : State :=
  let keep (s : State) : State :=
    { s with cmds := (s.cmds.filter fun c => c.id != x.id) ++ [{ x with held := true }] }
  match t with
  | .miss k =>
    match s.freeRec x.core 0 with
    | none => s
    | some idx =>
      (keep s).addRec
        { src := 0, idx, core := x.core, kind := k, access := code, asid := x.asid, gslot := x.gslot,
          slot := x.slot, pc := x.pc, accs := [x.acc va], posted := s.clock } k
  | .viol c => (keep s).freezeWave x.core x.slot c [x.acc va]
  | .ok _ _ => s

/-- Reads bytes for a command through the wave's translation: at the home banks, in pieces of one page. -/
def State.cmdRead (s : State) (x : Cmd) (va : DWord) (len : Nat) : Except State (List Byte) × State :=
  let pages := (va.toNat + len - 1) / 4096 - va.toNat / 4096 + 1
  (List.range (if len == 0 then 0 else pages)).foldl (fun t i =>
    match t with
    | (.error e, s) => (.error e, s)
    | (.ok bs, s) =>
      let lo := if i == 0 then va.toNat else (va.toNat / 4096 + i) * 4096
      let hi := min (va.toNat + len) ((va.toNat / 4096 + i + 1) * 4096)
      let a : DWord := BitVec.ofNat 64 lo
      match s.translate x.core (.group x.gslot) x.asid { r := true } a with
      | (.ok pa _, s) =>
        if s.windowOk x.asid pa then
          let (b, s) := s.bankRead x.asid pa (hi - lo)
          (.ok (bs ++ b), s)
        else (.error (s.holdCmd x a 0 (.viol 0x142)), s)
      | (r, s) => (.error (s.holdCmd x a 0 r), s))
    ((.ok [], s) : Except State (List Byte) × State)

/-- A command that its wave's earlier accesses to a page are held before (R264). -/
def State.cmdBehind (s : State) (x : Cmd) (va : DWord) : Bool :=
  match s.wave? x.core x.slot with
  | some w => s.pageHeld w va
  | none => false

end Sys2Proof.Machine
end

