-- ==== Sys2Proof/Machine/Work.lean ====
section
/-! DEFINITION. LAUNCH, FORK and PRIO, host launches, the placement of gangs, tasks, stealing and the
hawker (R160 to R176). -/

namespace Sys2Proof.Machine

/-! ## LAUNCH -/

/-- LAUNCH: the core scheduler reads the record between issue and reply (R164). -/
def execLaunch (sw : Bool) (d a : Reg) (s : State) : Out :=
  xOp s sw [(a, 2)] [(d, 1)] fun s w p =>
    let (x, s) := s.newCmd w p 0x3E 0 d (w.readW2 a) 0 [] (s.groupGrps w)
    s.postCmd w sw x

/-- The queue of device-side launches of a context (R161). -/
def State.devQueue (s : State) (asid : Nat) : Nat :=
  match s.ctx? asid with
  | some c => 256 + c.slot
  | none => 256

/-- The binding entries of 16 bytes that bytes hold. -/
def entries16 (b : List Byte) : List (List Byte) :=
  (List.range (b.length / 16)).map fun i => (b.drop (16 * i)).take 16

/-- Reads the binding entries of declarations for a command. -/
def State.cmdBinds (s : State) (x : Cmd) : List Hgd → Except State (List (List (List Byte))) × State
  | [] => (.ok [], s)
  | h :: t =>
    match s.cmdRead x h.bindv (16 * h.nbind) with
    | (.error e, s) => (.error e, s)
    | (.ok b, s) =>
      match State.cmdBinds s x t with
      | (.ok l, s) => (.ok (entries16 b :: l), s)
      | r => r

/-- The partition of a group slot's launch (R279). -/
def State.partOfGroup (s : State) (core gslot : Nat) : Nat :=
  if isService core then 0 else match s.group? core gslot with
  | some g => g.part
  | none => 0

/-- A LAUNCH command acts (R164): it reads the record, and the binding entries, at one moment between issue and reply
(DESIGN CHOICE, log entry 103: the rule lets each 32-byte line be read at a moment of its own). -/
def State.runLaunch (s : State) (x : Cmd) : State :=
  if x.wa.toNat % 64 != 0 then s.endCmd x 0x80000001
  else if s.cmdBehind x x.wa then s
  else
    let s := s.forceGrps x.core x.needs
    match s.cmdRead x x.wa 128 with
    | (.error t, _) => t
    | (.ok b, s) =>
      let raw := { readRec b with asid := x.asid }
      let finish (s : State) (r : Option LRec) : State :=
        let r := r.map fun (r : LRec) => { r with asid := x.asid }
        let code := match r with
          | none => some 1
          | some r => s.refuseCode r (some (s.partOfGroup x.core x.gslot))
        let (lid, s) := s.acceptLaunch r raw code (s.devQueue x.asid) x.core x.needs
        s.endCmd x (match code with
          | some k => BitVec.ofNat 32 (2 ^ 31 + k)
          | none => BitVec.ofNat 32 lid)
      if rawOk b then
        match s.cmdBinds x raw.hgds with
        | (.error t, _) => t
        | (.ok bs, s) => finish s (bindRec b bs)
      else finish s none

/-! ## FORK -/

/-- A deque entry as it stands in device memory (Table 7-7). -/
def Task.record (t : Task) : List Byte :=
  bytesLE 8 t.pc.toNat ++ bytesLE 8 t.join.toNat ++ bytesLE 4 t.mask.toNat ++
  bytesLE 4 (if t.glob then 2 ^ 31 else t.gslot % 32) ++ bytesOf t.wblk ++ bytesLE 4 t.lid ++ bytesLE 4 0

/-- Tasks take entries of a core's deque area, each the lowest that is free, and are written there: core c's entries lie from
32,768 c on in the deque area of their context (R172; log entry 104). -/
def State.storeTasks (s : State) (core : Nat) (ts : List Task) : List Task × State :=
  ts.foldl (fun (r : List Task × State) t =>
    let used := ((s.core core).deque ++ r.1).map fun x => x.place
    let place := ((List.range 512).find? fun i => !used.any fun k => k == i).getD 0
    let t := { t with place }
    (r.1 ++ [t], match r.2.ctx? t.asid with
      | some c => r.2.bankWrite (c.deque + 32768 * core + 64 * place) t.record
      | none => r.2)) ([], s)

/-- A task joins its core's deque at the new end. -/
def State.pushTask (s : State) (core : Nat) (t : Task) : State :=
  let (ts, s) := s.storeTasks core [t]
  s.modCore core fun c => { c with deque := c.deque ++ ts }

/-- Tasks on their way to a core. -/
def State.inFlight (s : State) (core : Nat) : Nat :=
  ((s.net.filter fun p => p.dest == core).map fun p => match p.body with
    | .ship ts => ts.length
    | _ => 0).foldl (· + ·) 0

/-- Entries of a core's deque, with those that wait for their increment, and those that a shipment on its way to the core is
to fill: so the deque never holds more than 512 (DESIGN CHOICE, log entry 104; R172, R175). -/
def State.dequeLen (s : State) (core : Nat) : Nat :=
  (s.core core).deque.length + s.inFlight core +
  (s.cmds.filter fun x => x.core == core && x.maj == 0x3E && (x.fn == 1 || x.fn == 2)).length

/-- The increment of the join counter, made for a FORK whose FJOIN translates. -/
def State.forkJoin (s : State) (x : Cmd) (join : DWord) (pa : Nat) : State :=
  match s.wave? x.core x.slot with
  | none => s
  | some w =>
    (s.addRmw w { grp := x.id, lane := x.lane, va := join, pc := x.pc, word := x.word, kind := .joinw } pa .addSi32
      none 1 0 false []).2

/-- The task of a FORK: `blk` holds w8 to w15 and FJOIN. -/
def Cmd.task (x : Cmd) : Task where
  pc := x.wa
  join := BitVec.ofNat 64 (fieldNat x.blk 32 8)
  mask := x.wb
  glob := x.fn == 2
  gslot := x.gslot
  wblk := wordsOf 8 x.blk
  lid := x.lid
  asid := x.asid
  src := x.core
  needs := x.id :: x.needs

/-- Where the increment of a FORK goes: an RMW needs both rights and device memory or the window (R171,
R214). -/
def State.forkPa (s : State) (x : Cmd) (join : DWord) : Tr × State :=
  match s.translate x.core (.group x.gslot) x.asid { r := true, w := true } join with
  | (.ok pa c, s) =>
    (if !(inDev pa || inSlice pa) then .viol 0x144 else if !s.windowOk x.asid pa then .viol 0x142 else .ok pa c, s)
  | r => r

/-- A FORK whose increment was held acts (R171). -/
def State.runFork (s : State) (x : Cmd) : State :=
  let t := x.task
  if s.cmdBehind x t.join then s
  else match s.forkPa x t.join with
    | (.ok pa _, s) => ((s.forkJoin x t.join pa).pushTask x.core t).endCmd x 0
    | (r, s) => s.holdCmd x t.join 2 r

/-- FORK.L and FORK.G (R171). -/
def forkOp (glob sw : Bool) (d a b : Reg) (s : State) : Out :=
  xOp s sw [(a, 2), (b, 1), (8, 8)] [(d, 1)] fun s w p =>
    let pc := w.readW2 a
    let mask := w.readW b
    let taskw := match s.groupOf w with
      | some g => g.taskw
      | none => 0
    if !glob && w.isHandler then s.trapBy w p 0x018
    else if pc.toNat % 4 != 0 then s.trapBy w p 0x012
    else if mask == 0 then s.xReply w sw d (.val 0)
    else if !glob && taskw == 0 then s.xReply w sw d (.val 2)
    else if Nat.ble 512 (s.dequeLen w.core) then s.xReply w sw d (.val 1)
    else
      let join := w.fjoin &&& ~~~3
      let blk := bytesOf ((List.range 8).map fun k => w.readW (BitVec.ofNat 6 (8 + k))) ++ bytesLE 8 join.toNat
      let (x, s) := s.newCmd w p 0x3E (if glob then 2 else 1) d pc mask blk (s.groupGrps w)
      if join == 0 then (s.pushTask w.core x.task).xReply w sw d (.val 0)
      else
        let (go, s) := if w.pushing then s.flushFor w.core w.slot [(join, 4)] else (true, s)
        match s.beginAccess w with
        | (false, s) => s.modWave w.core w.slot fun w => { w with stat := .stall }
        | (true, s) => match s.wave? w.core w.slot with
          | none => s
          | some w =>
            if !go then s.stallWave w
            else if s.pageHeld w join then
              s.postCmd { w with behind := w.behind ++ [x.acc join] } sw { x with held := true }
            else match s.forkPa x join with
              | (.ok pa _, s) => (((s.forkJoin x join pa).pushTask w.core x.task).modWave w.core w.slot fun w =>
                  ((w.addPend (s.checkedOf w) (.w d) (.val 0)).issued sw)).resettle w.core w.slot
              | (r, s) => (s.postCmd w sw x).holdCmd x join 2 r

/-- FORK.L (R171). -/
def execForkL (sw : Bool) (d a b : Reg) (s : State) : Out := forkOp false sw d a b s
/-- FORK.G (R171). -/
def execForkG (sw : Bool) (d a b : Reg) (s : State) : Out := forkOp true sw d a b s

/-- PRIO (R176). -/
def execPrio (sw : Bool) (d b : Reg) (s : State) : Out :=
  xOp s sw [(b, 1)] [(d, 1)] fun s w _ =>
    s.xReply { w with prio := (w.readW b).setWidth 2 } sw d (.val (w.prio.setWidth 32))

/-! ## Host launches -/

/-- The bytes at a VA of a context by its page tables: none when one cannot be read (R164). -/
def State.walkRead (s : State) (asid : Nat) (va : DWord) (n : Nat) : Option (List Byte) × State :=
  (List.range n).foldl (fun (t : Option (List Byte) × State) i =>
    match t.1, t.2.walkTo asid 2 (va + BitVec.ofNat 64 i) with
    | some l, some pa => let (b, s) := t.2.place pa 1; (some (l ++ b), s)
    | _, _ => (none, t.2)) (some [], s)

/-- The binding entries of declarations, by the page tables of a context (R164). -/
def State.walkBinds (s : State) (asid : Nat) (hs : List Hgd) : List (Option (List (List Byte))) × State :=
  hs.foldl (fun (t : List (Option (List (List Byte))) × State) h =>
    let (b, s) := t.2.walkRead asid h.bindv (16 * h.nbind)
    (t.1 ++ [b.map entries16], s)) ([], s)

/-- HEAD of a host queue advances, and is written to its descriptor; when it reaches TAIL, TAIL is read again
(R440). -/
def State.advanceHead (s : State) (q : HQ) : State :=
  let desc := Tab.get 0 s.qbase q.q + 32 * q.n
  let head := (q.head + 1) % 2 ^ q.logn
  let s := s.bankWrite (desc + 16) (bytesLE 4 head)
  let tail := if head == q.tail then leNat (s.mem.read (desc + 20) 4) % 2 ^ q.logn else q.tail
  { s with hostQs := s.hostQs.map fun x => if x.q == q.q && x.n == q.n then { x with head, tail } else x }

/-- HOST_LAUNCH_READ: the HSC of a quadrant reads the record at the head of a queue (R160, R164). -/
def execHostLaunchRead (quad n : Nat) (s : State) : Out :=
  match s.hostQs.find? fun q => q.q == quad && q.n == n with
  | none => .next s
  | some q =>
    if q.head == q.tail then .next s
    else
      let at_ := q.ring + 128 * (q.head % 2 ^ q.logn)
      let b := s.mem.read at_ 128
      let raw := readRec b
      let (bs, s) := s.walkBinds raw.asid raw.hgds
      let r := if rawOk b && (bs.all fun x => x.isSome) then bindRec b (bs.map fun x => x.getD []) else none
      let code := match r with
        | none => some 1
        | some r => if (s.ctx? r.asid).isNone then some 5 else s.refuseCode r none
      let (lid, s) := s.acceptLaunch r raw code (64 * quad + n) 0 []
      let s := s.bankWrite (at_ + 52) (bytesLE 4 lid)
      .next (s.advanceHead q)

/-! ## Gangs -/

/-- RESERVING_GANG: a gang that has waited 2^20 cycles (R161). -/
def execReservingGang (lid : Nat) (s : State) : Out :=
  match s.launch? lid with
  | some l =>
    .next (if s.eligible l && Nat.ble (l.since + 2 ^ 20) s.clock
      then s.modLaunch lid fun l => { l with reserving := true } else s)
  | none => .next s

/-- An older waiting gang that comes before another: what it may use is offered to it first (R161). -/
def State.olderFirst (s : State) (l : Launch) : Bool :=
  s.launches.any fun k => Nat.blt k.lid l.lid && s.eligible k && (s.planGang k).isSome

/-- GANG_PLACEMENT: the next gang of a launch starts, all of its groups at once (R166, R167). -/
def execGangPlacement (lid : Nat) (s : State) : Out :=
  match s.launch? lid with
  | none => .next s
  | some l =>
    if !s.eligible l || s.olderFirst l then .next s
    else match s.settleNeeds l.src l.needs with
      | (false, s) => .next s
      | (true, s) =>
        match s.planGang l with
        | none => .next s
        | some (gs, last) =>
          let s := s.addGroups l.recd gs
          let s := if l.next == 0 then { s with dleft := Tab.put 0 s.dleft lid l.recd.allDslots } else s
          let hs := gs.filterMap fun g => g.hgd.map fun i => (g.core, i, g.gslot)
          .next (s.modLaunch lid fun l =>
            { l with next := l.next + 1, since := s.clock, reserving := false, freed := [], lastCore := last
                     hgroups := l.hgroups ++ hs })

/-! ## Tasks -/

/-- A deque entry that a group may run (R173). -/
def Task.runs (t : Task) (g : Group) : Bool :=
  t.lid == g.lid && t.asid == g.asid && (t.glob || t.gslot == g.gslot)

/-- The lowest free task-wave slot of a group, with its index (R173). -/
def State.taskSlot (s : State) (g : Group) : Option (Nat × Nat) :=
  ((g.slots.zipIdx.drop g.waves).find? fun e => s.slotFree g.core e.1).map fun e => (e.1, e.2)

/-- An entry of a deque becomes a task wave in a slot of a group; the start is an acquire at device scope (R171, R173). -/
def State.startTask (s : State) (g : Group) (slot idx : Nat) (t : Task) : State :=
  let args : DWord := match s.launch? g.lid with
    | some l => l.recd.args
    | none => 0
  let s := s.l1Clear g.core
  let ws := wpair 2 args ++ t.wblk.zipIdx.map fun e => (8 + e.2, e.1)
  s.startWave (newWave g.core slot g.gslot idx (.task t.join t.lid) t.mask t.pc g.prio g.fpcr (wregs ws))

/-- TASK_WAVE_START: a free task-wave slot takes the newest entry that its group may run (R173). -/
def execTaskWaveStart (core gslot : Nat) (s : State) : Out :=
  match s.group? core gslot with
  | none => .next s
  | some g =>
    match s.taskSlot g, (s.core core).deque.reverse.find? fun t => t.runs g with
    | some (slot, idx), some t =>
      if g.hgd.isSome || g.ended || !s.runsOn g.asid core then .next s
      else match s.settleNeeds t.src t.needs with
        | (false, s) => .next s
        | (true, s) =>
          .next ((s.modCore core fun c => { c with deque := c.deque.reverse.erase t |>.reverse }).startTask g slot idx t)
    | _, _ => .next s

/-- DEQUE_STEAL: a core with a free task slot and no entry for it takes the oldest FORK.G entry of the
other core of its cluster, which becomes a task wave in that slot at once (R174; DESIGN CHOICE, log entry 104); stealing is off
in partitions (R181). -/
def execDequeSteal (core lid : Nat) (s : State) : Out :=
  let other := if core % 2 == 0 then core + 1 else core - 1
  let gs := s.groups.filter fun g => g.core == core && g.lid == lid && g.hgd.isNone && !g.ended &&
    (s.taskSlot g).isSome && s.runsOn g.asid core && !(s.core core).deque.any fun t => t.runs g
  match (s.core other).deque.find? (fun t => t.glob && t.lid == lid), gs with
  | some t, g :: _ => match s.taskSlot g with
    | some (slot, idx) =>
      if isService core || s.partAt (core / 2) != 0 then .next s
      else match s.settleNeeds t.src t.needs with
        | (false, s) => .next s
        | (true, s) => .next ((s.modCore other fun c => { c with deque := c.deque.erase t }).startTask g slot idx t)
    | none => .next s
  | _, _ => .next s

/-- Cores that the hawker considers for a core: the other of its cluster, and those one hop away (R175). -/
def hawkerNear (core : Nat) : List Nat :=
  (List.range 160).filter fun k => k != core && Nat.ble (hops (k / 2) (core / 2)) 1

/-- FORK.G entries of a launch on a core. -/
def State.globTasks (s : State) (core lid : Nat) : List Task :=
  (s.core core).deque.filter fun t => t.glob && t.lid == lid

/-- The candidate with the fewest entries, lowest core on a tie. -/
def State.hawkerPick (s : State) (lid : Nat) : List Nat → Option Nat
  | [] => none
  | c :: t => match State.hawkerPick s lid t with
    | none => some c
    | some k => if Nat.ble (s.globTasks c lid).length (s.globTasks k lid).length then some c else some k

/-- The hawker levels the entries of one launch on one core (R175). -/
def State.hawk (s : State) (core : Nat) (l : Launch) : State :=
  let near := (hawkerNear core).filter fun k => s.groups.any fun g => g.core == k && g.lid == l.lid && g.hgd.isNone
  let lvl := if l.recd.lvl == 0 then 12 else l.recd.lvl
  let mine := s.globTasks core l.lid
  if mine.isEmpty || s.clock % 2 ^ lvl != 0 || !s.runsOn l.recd.asid core then s
  else match s.hawkerPick l.lid near with
    | none => s
    | some k =>
      let d := mine.length - (s.globTasks k l.lid).length
      let n := min (min 32 (d / 2)) (512 - s.dequeLen k)
      if Nat.blt d 2 || n == 0 then s
      else
        let go := mine.take n
        let s := s.modCore core fun c => { c with deque := go.foldl (fun q t => q.erase t) c.deque }
        let (id, s) := s.fresh
        { s with net := s.net ++
            [{ id, dest := k, src := core, slot := 0, asid := l.recd.asid, cls := 0, seq := 0, body := .ship go, needs := []
               notBefore := s.clock + 1 }] }

/-- A shipment lands: its entries come to the oldest end (R175). -/
def State.landShip (s : State) (p : Packet) : State :=
  match p.body with
  | .ship ts =>
    let s := { s with net := s.net.filter fun q => q.id != p.id }
    let (ts, s) := s.storeTasks p.dest (ts.filter fun t => s.launches.any fun l => l.lid == t.lid)
    s.modCore p.dest fun c => { c with deque := ts ++ c.deque }
  | _ => s

/-- The shipments of earlier intervals have landed (R175). -/
def State.landShips (s : State) : State :=
  (s.net.filter fun p => Nat.ble p.notBefore s.clock).foldl (fun s p => s.landShip p) s

/-- HAWKER_INTERVAL: the hawker of a cluster, off in partitions (R175, R181). -/
def execHawkerInterval (cluster : Nat) (s : State) : Out :=
  if s.partAt cluster != 0 then .next s
  else .next ([2 * cluster, 2 * cluster + 1].foldl (fun s c =>
    s.launches.foldl (fun s l => s.hawk c l) s) s.landShips)

/-- DEQUE_SHIPMENT_ARRIVAL (R175). -/
def execDequeShipmentArrival (k : Nat) (s : State) : Out :=
  match s.net[k]? with
  | some p => .next (if Nat.ble p.notBefore s.clock then s.landShip p else s)
  | none => .next s

end Sys2Proof.Machine
end

