-- ==== Sys2Proof/Machine/Messages.lean ====
section
/-! DEFINITION. Messages, wakes and the handler tables (R271 to R289): the MSG commands, the arrival of
packets at their routers, replies and retries, and the overflow rings. -/

namespace Sys2Proof.Machine

/-! ## Sending -/

/-- Bits [i, i + n) of a word, as a number. -/
def bitsAt (b : Word) (i n : Nat) : Nat := b.toNat / 2 ^ i % 2 ^ n

/-- The route entry of a router for a class (Table 12-2). -/
def State.route (s : State) (cl cls : Nat) : BitVec 16 := Tab.get 0 s.routes (16 * cl + cls)

/-- The path of a packet of a class from the router of one cluster to that of another, with the virtual channel that each
router on it gives: the entry of the source router fixes the whole path (R272). -/
def State.path (s : State) (cls a b : Nat) : List (Nat × BitVec 3) :=
  (routePath ((s.route a cls).getLsbD 0) (routerOf a) (routerOf b)).map fun r =>
    (10 * r.2 + r.1, (s.route (10 * r.2 + r.1) cls).extractLsb' 1 3)

/-- Every route of a class between the clusters of a partition stays inside the partition (R272). -/
def State.stays (s : State) (cls part : Nat) : Bool :=
  let mine := (List.range 80).filter fun k => s.partAt k == part
  mine.all fun a => mine.all fun b => (s.path cls a b).all fun r => s.partAt r.1 == part

/-- The partition that may originate on a class at a core's router. -/
def State.routePart (s : State) (core cls : Nat) : Nat :=
  ((s.route (clusterOf core) cls).extractLsb' 8 3).toNat

/-- Sequence number of the next packet of a wave to a core on a class (R271). -/
def State.nextSeq (s : State) (core slot dest cls : Nat) : Nat × State :=
  let k := 65536 * slot + 256 * dest + cls
  let n := (Tab.get 0 (s.core core).msgSeq k + 1) % 65536
  (n, s.modCore core fun c => { c with msgSeq := Tab.put 0 c.msgSeq k n })

/-- Puts a packet of a wave into the network. -/
def State.sendPacket (s : State) (w : Wave) (dest cls seq : Nat) (body : PBody) (wk : Bool) (needs : List Nat)
    (pull : Option (Nat × Nat × Nat)) : State :=
  let (id, s) := s.fresh
  let vc := ((s.route (clusterOf w.core) cls).extractLsb' 1 3).toNat
  { s with net := s.net ++
      [{ id, dest, src := w.core, slot := w.slot, asid := s.asidOf w, cls, vc, seq, body, needs, pull,
         wk, born := w.born }] }

/-- KIND and the payload length of a packet (Table 12-1). -/
def PBody.kindLen (b : PBody) : Nat × Nat :=
  match b with
  | .msg m _ => (if m.mcast then 1 else 0, m.payload.length)
  | .wake _ _ _ bs .. => (2, bs.length)
  | .caps c _ => (3, c.size)
  | .mail k _ _ _ bs => (if k == 3 then 4 else if k == 2 then 6 else 5, bs.length)
  | .ship ts => (7, 64 * ts.length)
  | .reply _ v _ => (if v == 2 then 8 else 9, 0)

/-- The header of a packet, but for the bytes 12 to 31 that a kind gives a meaning of its own (Table 12-1). A payload that
is still in group-local memory has its length there. -/
def Packet.header (p : Packet) : List Byte :=
  let len := match p.pull with
    | some x => x.2.2
    | none => p.body.kindLen.2
  packetHeader p.body.kindLen.1 p.dest (classByte p.cls p.wk) p.src p.asid len p.slot p.vc p.seq

/-- Sends one copy of a message to a core. -/
def State.sendTo (s : State) (w : Wave) (cmd : Nat) (m : Msg) (needs : List Nat)
    (pull : Option (Nat × Nat × Nat)) (dest : Nat) : State :=
  let (seq, s) := s.nextSeq w.core w.slot dest m.cls
  s.sendPacket w dest m.cls seq (.msg { m with seq } cmd) m.wk needs pull

/-- The three sends (Table 12-5). -/
inductive SendKind where
  | send | sendl | mcast
  deriving DecidableEq, Repr

/-- The clusters that ms0 and ms1 name (Table 12-7). -/
def Wave.mcastMask (w : Wave) : BitVec 80 := w.ms0.setWidth 80 ||| ((w.ms1.setWidth 16).setWidth 80 <<< 64)

/-- The clusters of a mask, ascending. -/
def clustersOf (m : BitVec 80) : List Nat := (List.range 80).filter fun i => m.getLsbD i

/-- The cores that a mask and CSEL name (R280). -/
def mcastCores (m : BitVec 80) (csel : Nat) : List Nat :=
  ((clustersOf m).map fun c => match csel with
    | 0 => [2 * c]
    | 1 => [2 * c + 1]
    | _ => [2 * c, 2 * c + 1]).flatten

/-- The control word or the operand of a send is out of range (R278, R279). -/
def sendArgBad (k : SendKind) (a b : Word) (limit : Int) : Bool :=
  bitsAt b 16 16 != 0 ||
  match k with
  | .mcast => bitsAt b 0 8 != 0 || bitsAt b 14 2 == 3
  | .send => bitsAt b 14 2 != 0 || Nat.blt 159 (bitsAt b 0 8)
  | .sendl => bitsAt b 14 2 != 0 || Nat.blt 159 (bitsAt b 0 8) || bitsAt a 31 1 != 0 ||
      bitsAt a 0 18 % 4 != 0 || bitsAt a 18 13 % 4 != 0 || Nat.blt 4096 (bitsAt a 18 13) ||
      decide (limit < bitsAt a 0 18 + bitsAt a 18 13)

/-- The registers that a send reads. -/
def sendSrcs (k : SendKind) (a b : Reg) : List (Reg × Nat) :=
  match k with
  | .sendl => [(a, 1), (b, 1)]
  | _ => [(a, 16), (b, 1)]

/-- A block of 16 w registers, as bytes (R278). -/
def Wave.block (w : Wave) (a : Reg) : List Byte := bytesOf ((List.range 16).map fun k => w.readW (regAt a k))

/-- MSG.SEND, MSG.SENDL and MSG.MCAST (R279, R280): the checks, and the packets. -/
def sendOp (k : SendKind) (sw : Bool) (d a b : Reg) (s : State) : Out :=
  xOp s sw (sendSrcs k a b) [(d, 1)] fun s w p =>
    let x := w.readW a
    let y := w.readW b
    let part := s.partOfGroup w.core w.gslot
    let cls := bitsAt y 8 4
    let retry := bitsAt y 13 1 == 1
    let wk := bitsAt y 12 1 == 1
    let mask := w.mcastMask
    if sendArgBad k x y (s.localLimit w) then s.trapBy w p 0x301
    else if s.routePart w.core cls != part then s.trapBy w p 0x305
    else if retry && w.isHandler then s.trapBy w p 0x300
    else if k != .mcast && s.partAt (bitsAt y 0 8 / 2) != part then s.trapBy w p 0x303
    else if k == .mcast && (clustersOf mask).any (fun c => s.partAt c != part) then s.trapBy w p 0x302
    else if k == .mcast && mask == 0 then s.xReply w sw d (.val 0)
    else
      let dests := if k == .mcast then mcastCores mask (bitsAt y 14 2) else [bitsAt y 0 8]
      let needs := if wk then [] else s.groupGrps w
      let m : Msg :=
        { asid := s.asidOf w, cls, src := w.core, slot := w.slot, long := k == .sendl, mcast := k == .mcast,
          wk, payload := if k == .sendl then [] else w.block a, seq := 0 }
      let pull := if k == .sendl then some (w.gslot, bitsAt x 0 18, bitsAt x 18 13) else none
      let (cmd, s) := s.fresh
      let s : State := { s with sends := s.sends ++
        [{ cmd, core := w.core, slot := w.slot, gslot := w.gslot, dst := d, retry, mcast := k == .mcast,
           left := dests.length, worst := 0, refused := [], asid := s.asidOf w, pc := p.pc, lid := s.lidOf w }] }
      (dests.foldl (fun s c => s.sendTo w cmd m needs pull c) s).xReply w sw d (.reply cmd)

/-- MSG.SEND (R279). -/
def execMsgSend (sw : Bool) (d a b : Reg) (s : State) : Out := sendOp .send sw d a b s
/-- MSG.SENDL (R279). -/
def execMsgSendl (sw : Bool) (d a b : Reg) (s : State) : Out := sendOp .sendl sw d a b s
/-- MSG.MCAST (R280). -/
def execMsgMcast (sw : Bool) (d a b : Reg) (s : State) : Out := sendOp .mcast sw d a b s

/-- MSG.WAKE (R287). -/
def execMsgWake (sw : Bool) (d a b : Reg) (s : State) : Out :=
  xOp s sw [(a, 16), (b, 1)] [(d, 1)] fun s w p =>
    let y := w.readW b
    let off := (w.ms1.extractLsb' 16 18).toNat
    let len := bitsAt y 17 7
    let dest := bitsAt y 0 8
    if bitsAt y 25 7 != 0 || Nat.blt 159 dest || len % 4 != 0 || Nat.blt 64 len || off % 4 != 0 then
      s.trapBy w p 0x301
    else if s.partAt (dest / 2) != s.partOfGroup w.core w.gslot then s.trapBy w p 0x303
    else
      let wk := bitsAt y 24 1 == 1
      let needs := if wk then [] else s.groupGrps w
      let gang := match s.groupOf w with
        | some g => g.gang
        | none => 0
      let (cmd, s) := s.fresh
      let body := PBody.wake (bitsAt y 8 5) (bitsAt y 13 4) off ((w.block a).take len) cmd (s.lidOf w) gang
        w.isHandler
      let (seq, s) := s.nextSeq w.core w.slot dest 16
      let s : State := { s with sends := s.sends ++
        [{ cmd, core := w.core, slot := w.slot, gslot := w.gslot, dst := d, retry := false, mcast := false,
           left := 1, worst := 0, refused := [], asid := s.asidOf w, pc := p.pc, lid := s.lidOf w }] }
      (s.sendPacket w dest 0 seq body wk needs none).xReply w sw d (.reply cmd)

/-! ## Arrival -/

/-- Two packets of one wave to one core that keep their order (R243, R306). -/
def Packet.inOrder (p q : Packet) : Bool :=
  p.src == q.src && p.slot == q.slot && p.born == q.born && p.dest == q.dest &&
  match p.body, q.body with
  | .msg .., .msg .. => p.cls == q.cls
  | .wake .., .wake .. => true
  | .msg .., .wake .. => true
  | .wake .., .msg .. => true
  | .caps a _, .caps b _ => a.cls == b.cls
  | .mail .., .mail .. => true
  | _, _ => false

/-- A packet that may arrive now: no earlier one of its order is on its way, and what it releases has been
performed (R243, R279). -/
def State.packetReady (s : State) (p : Packet) : Bool × State :=
  if p.hold || Nat.blt s.clock p.notBefore ||
      ((s.net.takeWhile fun q => q.id != p.id).any fun q => !q.hold && q.inOrder p) then (false, s)
  else s.settleNeeds p.src p.needs

/-- Removes a packet. -/
def State.dropPacket (s : State) (id : Nat) : State := { s with net := s.net.filter fun q => q.id != id }

/-- Reads a payload that is still in group-local memory (R243, R279). -/
def State.pullPayload (s : State) (p : Packet) : Packet × State :=
  match p.pull, p.body with
  | some (gslot, off, len), .msg m cmd =>
    let (bs, s) := s.bankRead p.asid (localBase p.src gslot + off) len
    let q := { p with body := .msg { m with payload := bs } cmd, pull := none }
    (q, { s with net := s.net.map fun x => if x.id == p.id then q else x })
  | _, _ => (p, s)

/-- A context is resident on a core: a group of it stands there (R282). -/
def State.residentAt (s : State) (core asid : Nat) : Bool := s.groups.any fun g => g.core == core && g.asid == asid

/-- Payload chunks of a message (R282). -/
def Msg.chunks (m : Msg) : Nat := (m.payload.length + 63) / 64

/-- Payload chunks of the pool of a core that are in use, by messages and held capsules (R282, R296). -/
def Core.chunksUsed (c : Core) : Nat :=
  (c.inq.map Msg.chunks).foldl (· + ·) 0 + (c.held.map fun h => (h.size + 63) / 64).foldl (· + ·) 0

/-- A message may enter its class queue (R282 step 2). -/
def State.queueRoom (s : State) (core : Nat) (m : Msg) : Bool :=
  let c := s.core core
  let q := c.inq.filter fun x => x.cls == m.cls
  let others := c.htab.any fun e => e.1 % 16 == m.cls && e.1 / 16 != m.asid && e.2.isSome &&
    s.residentAt core (e.1 / 16)
  s.residentAt core m.asid && Nat.blt q.length 32 &&
  (!others || Nat.blt (q.filter fun x => x.asid == m.asid).length 24) &&
  Nat.ble (c.chunksUsed + m.chunks) 256

/-- A message's ring record (R283). -/
def msgRecord (core vc : Nat) (m : Msg) : List Byte :=
  packetHeader (if m.mcast then 1 else 0) core (classByte m.cls m.wk) m.src m.asid m.payload.length
    m.slot vc m.seq ++ List.replicate 32 0 ++ m.payload ++
  List.replicate (64 * m.chunks - m.payload.length) 0

/-- Writes a message into the overflow ring of a core; none when there is no room (R283). -/
def State.putMsgRing (s : State) (core vc : Nat) (m : Msg) : Option State :=
  match s.ctx? m.asid with
  | none => none
  | some x =>
    let recs := (assoc (s.core core).ovf m.asid).getD []
    let b := msgRecord core vc m
    match ringPlace (1024 * x.ovkb) b.length recs with
    | none => none
    | some off =>
      let (recs, s) := s.putRec (x.movbase + core * x.ovkb * 1024) (1024 * x.ovkb) recs
        ⟨off, b.length, some m, none, false⟩ b
      some (s.modCore core fun k => { k with ovf := setAssoc k.ovf m.asid recs })

/-- A ring record that holds a message of a class. -/
def RingRec.ofClass (r : RingRec) (cls : Nat) : Bool :=
  match r.msg with
  | some m => m.cls == cls
  | none => false

/-- The decision on a message at its router (R282): 0 accepted, 1 overflow, 2 full. -/
def State.decideMsg (s : State) (core vc : Nat) (m : Msg) : Nat × State :=
  let (arr, s) := s.fresh
  let m := { m with arr }
  let waits := ((assoc (s.core core).ovf m.asid).getD []).any fun r => r.ofClass m.cls
  if !waits && s.queueRoom core m then (0, s.modCore core fun c => { c with inq := c.inq ++ [m] })
  else match s.putMsgRing core vc m with
    | some t => (1, t)
    | none => (2, s)

/-- Returns an acceptance or a refusal to a sender. -/
def State.answerSend (s : State) (p : Packet) (cmd v : Nat) : State :=
  s.inject p.src p.dest p.slot p.asid (.reply cmd v p.dest)

/-- A message arrives: a refused one that is to be sent again waits at its sender (R279, R282). -/
def State.arriveMsg (s : State) (p : Packet) : State :=
  let (p, s) := s.pullPayload p
  match p.body with
  | .msg m cmd =>
    let (v, s) := s.decideMsg p.dest p.vc m
    let again := v == 2 && s.sends.any fun x => x.cmd == cmd && x.retry
    let s := if again
      then { s with net := s.net.map fun q => if q.id == p.id then { p with hold := true, notBefore := 0 } else q }
      else s.dropPacket p.id
    s.answerSend p cmd v
  | _ => s

/-- A message for a service core enters its mailbox, or waits for room there (R393). -/
def State.arriveMail (s : State) (p : Packet) : State :=
  match p.body with
  | .mail kind core slot asid body =>
    (s.dropPacket p.id).modCore p.dest fun c =>
      if Nat.blt c.mail.length 64 && c.mailWait.isEmpty then { c with mail := c.mail ++ [⟨kind, core, slot, asid, body⟩] }
      else { c with mailWait := c.mailWait ++ [⟨kind, core, slot, asid, body⟩] }
  | _ => s

/-- MESSAGE_ARRIVAL: the k-th packet reaches its router (R282, R393). -/
def execMessageArrival (k : Nat) (s : State) : Out :=
  match s.net[k]? with
  | none => .next s
  | some p =>
    match s.packetReady p with
    | (false, s) => .next s
    | (true, s) => match p.body with
      | .msg .. => .next (s.arriveMsg p)
      | .mail .. => .next (s.arriveMail p)
      | _ => .next s

/-! ## Replies -/

/-- The result of a send is outstanding no longer: a multicast's mask comes with it (R280). -/
def State.replySend (s : State) (x : Send) : State :=
  let mask := x.refused.foldl (fun (m : BitVec 80) c => m ||| BitVec.ofNat 80 (2 ^ c)) 0
  s.modWave x.core x.slot fun w =>
    { w with
      pend := w.pend.map fun q =>
        if q.src == .reply x.cmd then
          { q with
            src := .val (BitVec.ofNat 32 x.worst)
            dst := if x.mcast then .mcast x.dst mask else q.dst }
        else q }

/-- The record of a send whose message is discarded (R279, R290). -/
def State.postSend (s : State) (x : Send) (cause : Cause) : State :=
  s.postAsync { asid := x.asid, cause, engine := 4, gslot := if isService x.core then 0xFF else x.gslot,
                slot := x.slot, core := x.core, lid := x.lid, pc := x.pc, op := x.cmd }

/-- An answer comes back to a send (R279, R280). -/
def State.gotAnswer (s : State) (x : Send) (v core : Nat) : State :=
  if v == 2 && x.retry then
    { s with net := s.net.map fun q => match q.body with
        | .msg _ cmd =>
          if cmd == x.cmd && q.dest == core && q.hold && q.notBefore == 0 then { q with notBefore := s.clock + 64 }
          else q
        | _ => q }
  else
    let x := { x with
      left := x.left - 1
      worst := max x.worst v
      refused := if v == 2 then x.refused ++ [core / 2] else x.refused }
    if x.left == 0 then
      let s := { s with sends := s.sends.filter fun y => y.cmd != x.cmd }
      let s := if x.worst == 2 && x.dst == 0 then s.postSend x 0x304 else s
      s.replySend x
    else { s with sends := s.sends.map fun y => if y.cmd == x.cmd then x else y }

/-- SEND_REPLY: an acceptance or a refusal reaches its sender (R279). -/
def execSendReply (k : Nat) (s : State) : Out :=
  match s.net[k]? with
  | none => .next s
  | some p => match p.body with
    | .reply cmd v core =>
      let s := s.dropPacket p.id
      match s.sends.find? fun x => x.cmd == cmd with
      | some x => .next (s.gotAnswer x v core)
      | none => .next s
    | _ => .next s

/-- SEND_RETRY: a refused message is injected again after 64 cycles (R279). -/
def execSendRetry (k : Nat) (s : State) : Out :=
  match s.net[k]? with
  | none => .next s
  | some p =>
    if p.hold && p.notBefore != 0 && Nat.ble p.notBefore s.clock then
      let s := s.dropPacket p.id
      .next { s with net := s.net ++ [{ p with hold := false, notBefore := 0 }] }
    else .next s

/-- LINK_REPLAY: a link sends a packet again; only its timing changes (R273). -/
def execLinkReplay (k : Nat) (s : State) : Out :=
  match s.net[k]? with
  | none => .next s
  | some p => .next { s with net := s.net.map fun q => if q.id == p.id then { q with replays := q.replays + 1 } else q }

/-! ## Wakes -/

/-- A group that a sender may wake (R287). -/
def Group.wakes (g : Group) (lid gang : Nat) (handler : Bool) : Bool :=
  g.lid == lid && (handler || (g.hgd.isNone && g.gang == gang))

/-- A wake takes effect at its core: its reply, and the state (R287). -/
def State.wakeNow (s : State) (x : Send) (dest gslot bar off : Nat) (bs : List Byte) (lid gang : Nat)
    (handler : Bool) : Nat × State :=
  match s.group? dest gslot with
  | none => (3, s.postSend x 0x306)
  | some g =>
    if !g.wakes lid gang handler || Nat.ble g.bars bar || Nat.blt (1024 * g.localkb) (off + bs.length) then
      (3, s.postSend x 0x306)
    else
      let s := s.rawWrite (localBase dest gslot + off) bs
      if decide (g.bytesAt bar - bs.length < -2 ^ 35) then (4, s.postSend x 0x307)
      else (0, s.addBytes dest gslot bar (-(bs.length : Int)) true)

/-- A wake arrives. -/
def State.arriveWake (s : State) (p : Packet) : State :=
  match p.body with
  | .wake gslot bar off bs cmd lid gang handler =>
    let s := s.dropPacket p.id
    match s.sends.find? fun x => x.cmd == cmd with
    | none => s
    | some x =>
      let (v, s) := s.wakeNow x p.dest gslot bar off bs lid gang handler
      let s := { s with sends := s.sends.filter fun y => y.cmd != cmd }
      s.replySend { x with worst := v }
  | _ => s

/-- WAKE_ARRIVAL (R287). -/
def execWakeArrival (k : Nat) (s : State) : Out :=
  match s.net[k]? with
  | none => .next s
  | some p => match p.body with
    | .wake .. => match s.packetReady p with
      | (false, s) => .next s
      | (true, s) => .next (s.arriveWake p)
    | _ => .next s

/-! ## Overflow -/

/-- OVERFLOW_RECORD_MOVE: the oldest overflowed message of a class enters the queue when it has room
(R283). -/
def execOverflowRecordMove (core asid cls : Nat) (s : State) : Out :=
  let recs := (assoc (s.core core).ovf asid).getD []
  match recs.find? fun r => r.ofClass cls with
  | none => .next s
  | some r => match r.msg with
    | none => .next s
    | some m =>
      if s.queueRoom core m then
        .next (s.modCore core fun c =>
          { c with ovf := setAssoc c.ovf asid (ringDrop recs fun x => x == r), inq := c.inq ++ [m] })
      else .next s

/-! ## Handler tables -/

/-- The entry of a class of a context on a core. -/
def State.handler? (s : State) (core asid cls : Nat) : Option HEntry :=
  Tab.get none (s.core core).htab (16 * asid + cls)

/-- The EN bits of the classes of a context on a core. -/
def State.enMask (s : State) (core asid : Nat) : Word :=
  (List.range 16).foldl (fun m c => match s.handler? core asid c with
    | some e => if e.en then m ||| BitVec.ofNat 32 (2 ^ c) else m
    | none => m) 0

/-- The handler group that an entry names has a free slot (R169). -/
def State.handlerFree (s : State) (core asid : Nat) (e : HEntry) : Bool :=
  match s.group? core e.hgroup with
  | some g => g.hgd.isSome && g.asid == asid && s.runsOn asid core && g.slots.any fun k => s.slotFree core k
  | none => false

/-- PEND of a class: an event is queued that cannot start, or has overflowed or waits as a capsule
(Table 12-3, R296). -/
def State.pending (s : State) (core asid cls : Nat) : Bool :=
  let c := s.core core
  let start := match s.handler? core asid cls with
    | some e => e.en && s.handlerFree core asid e
    | none => false
  let ringed := ((assoc c.ovf asid).getD []).any (fun r => r.ofClass cls) ||
    ((assoc c.covf asid).getD []).any fun r => !r.dead && match r.caps with
      | some x => x.cls == cls
      | none => false
  let queued := (c.inq.any fun m => m.asid == asid && m.cls == cls) ||
    (c.batches.any fun b => b.asid == asid && b.cls == cls) ||
    s.groups.any fun g => g.core == core && g.asid == asid && g.hgd.isSome && g.caps.any fun e => match e.2 with
      | some x => x.owner.isNone && x.cls == cls
      | none => false
  ringed || (c.held.any fun h => h.asid == asid && h.cls == cls) || (queued && !start)

/-- The PEND bits. -/
def State.pendMask (s : State) (core asid : Nat) : Word :=
  (List.range 16).foldl (fun m c => if s.pending core asid c then m ||| BitVec.ofNat 32 (2 ^ c) else m) 0

/-- Sets EN of the bound classes of a mask. -/
def State.setEn (s : State) (core asid : Nat) (m : Word) (v : Bool) : State :=
  s.modCore core fun c => { c with
    htab := (List.range 16).foldl (fun t k =>
      match Tab.get none t (16 * asid + k) with
      | some e => if m.getLsbD k then Tab.put none t (16 * asid + k) (some { e with en := v }) else t
      | none => t) c.htab }

/-- MSG.MASK and MSG.UNMASK (R285). -/
def maskOp (v : Bool) (sw : Bool) (d b : Reg) (s : State) : Out :=
  xOp s sw [(b, 1)] [(d, 1)] fun s w p =>
    let m := w.readW b
    if bitsAt m 16 16 != 0 then s.trapBy w p 0x301
    else
      let old := s.enMask w.core (s.asidOf w)
      (s.setEn w.core (s.asidOf w) m v).xReply w sw d (.val old)

/-- MSG.MASK (R285). -/
def execMsgMask (sw : Bool) (d b : Reg) (s : State) : Out := maskOp false sw d b s
/-- MSG.UNMASK (R285). -/
def execMsgUnmask (sw : Bool) (d b : Reg) (s : State) : Out := maskOp true sw d b s

/-- MSG.PEND (R285). -/
def execMsgPend (sw : Bool) (d : Reg) (s : State) : Out :=
  xOp s sw [] [(d, 1)] fun s w _ =>
    let asid := s.asidOf w
    s.xReply w sw d (.val (s.pendMask w.core asid ||| (s.enMask w.core asid <<< 16)))

/-- MSG.HBIND, privileged (R286). -/
def execMsgHbind (sw : Bool) (d a b : Reg) (s : State) : Out :=
  xOp s sw [(a, 2), (b, 1)] [(d, 1)] fun s w p =>
    let va := w.readW2 a
    let y := w.readW b
    if !isService w.core then s.trapBy w p 0x004
    else if va.toNat % 16 != 0 || bitsAt y 9 7 != 0 || bitsAt y 21 11 != 0 || Nat.blt 159 (bitsAt y 0 8) then
      s.trapBy w p 0x301
    else
      let (x, s) := s.newCmd w p 0x3C 8 d va y [] (s.groupGrps w)
      s.postCmd w sw x

/-- An HBIND command acts: an invalid entry changes nothing (R286). -/
def State.runHbind (s : State) (x : Cmd) : State :=
  if s.cmdBehind x x.wa then s
  else
    let s := s.forceGrps x.core x.needs
    match s.cmdRead x x.wa 16 with
    | (.error t, _) => t
    | (.ok b, s) =>
      let core := bitsAt x.wb 0 8
      let gslot := bitsAt x.wb 16 5
      match readBind b, s.group? core gslot with
      | some (pc, cls, prio, en), some g =>
        if g.hgd.isSome && g.asid == x.asid then
          let e := if bitsAt x.wb 8 1 == 1 then some (⟨pc, gslot, prio, en⟩ : HEntry) else none
          (s.modCore core fun c => { c with htab := Tab.put none c.htab (16 * x.asid + cls) e }).endCmd x 0
        else s.endCmd x 1
      | _, _ => s.endCmd x 1

end Sys2Proof.Machine
end

