-- ==== Sys2Proof/Machine/Capsules.lean ====
section
/-! DEFINITION. Capsules (R292 to R306): the CAPS commands, the arrival of a capsule at its core, and its
way into a slot. -/

namespace Sys2Proof.Machine

/-! ## Stops -/

def stopCluster (x : DWord) : Nat := x.toNat % 128
def stopCore (x : DWord) : Nat := x.toNat / 2 ^ 7 % 2
def stopClass (x : DWord) : Nat := x.toNat / 2 ^ 8 % 16
def stopAny (x : DWord) : Bool := x.getLsbD 12

/-- A class or a cluster that an issuer may not send a capsule to (R300). -/
def State.capRouteBad (s : State) (core gslot cluster cls : Nat) : Bool :=
  s.partAt cluster != s.partOfGroup core gslot || s.routePart core cls != s.partOfGroup core gslot

/-! ## Reading group-local memory at issue -/

/-- The wave's own earlier accesses to bytes of its group-local memory are performed (R195): false while one
is held. -/
def State.localSettle (s : State) (w : Wave) (off len : Nat) : Bool × State :=
  let pa := localBase w.core w.gslot + off
  let mine (e : SQ) : Bool := e.slot == w.slot && overlaps e.range.1 e.range.2 pa len
  let s := s.forceAll w.core (((s.core w.core).sq.filter mine).map fun e => Todo.entry e.id)
  let loads := match s.wave? w.core w.slot with
    | some v => (v.loads.filter fun x => overlaps x.2.1 x.2.2.1 pa len).map fun x => Todo.load v.slot x.1 x.2.1
    | none => []
  let s := s.forceAll w.core loads
  (!(s.core w.core).sq.any mine, s)

/-- A capsule command that reads or writes bytes of group-local memory at issue, after the wave's earlier
accesses to them; it waits while they are held (R195, R264). -/
def State.withLocal (s : State) (w : Wave) (off len : Nat) (f : State → Wave → List Byte → State) : State :=
  let s := s.flushAll w.core w.slot
  match s.beginAccess w with
  | (false, s) => s.modWave w.core w.slot fun w => { w with stat := .stall }
  | (true, s) => match s.localSettle w off len with
    | (false, s) => s.modWave w.core w.slot fun w => { w with stat := .stall }
    | (true, s) => match s.wave? w.core w.slot with
      | none => s
      | some w => f s w ((s.place (localBase w.core w.gslot + off) len).1)

/-! ## Sending -/

/-- Sends a capsule whose USER and tile stand at an offset of group-local memory (R243, R299, R301). -/
def State.sendCaps (s : State) (w : Wave) (c : Caps) (dest : Nat) (any wk : Bool) (off : Nat) : State :=
  let needs := if wk then [] else s.groupGrps w
  let (seq, s) := s.nextSeq w.core w.slot dest (32 + c.cls)
  s.sendPacket w dest c.cls seq (.caps { c with wk } any) wk needs (some (w.gslot, off, c.size))

/-- The wave goes on after a capsule command. -/
def State.capDone (s : State) (w : Wave) (sw : Bool) (d : Reg) (v : Word) : State :=
  match s.wave? w.core w.slot with
  | some w => s.xReply w sw d (.val v)
  | none => s

/-- A capsule as CAP.NEW makes it from the first 128 bytes of an image (R300). -/
def newCaps (b : List Byte) (asid core count : Nat) : Caps :=
  let c := capsOf b 0 core 0
  { c with asid, id := BitVec.ofNat 64 (core * 2 ^ 48 + count), flags := 0, index := 0, origin := core,
           magic := 0xCA95, major := 1, cls := stopClass (c.stops.getD 0 0), tile := [] }

/-- CAP.NEW (R300). -/
def execCapNew (sw : Bool) (d a b : Reg) (s : State) : Out :=
  xOp s sw [(a, 1), (b, 1)] [(d, 1)] fun s w p =>
    let off := (w.readW a).toNat
    let y := w.readW b
    let limit := s.localLimit w
    if bitsAt y 1 31 != 0 || off % 64 != 0 || decide (limit < off + 128) then s.trapBy w p 0x308
    else s.withLocal w off 128 fun s w b =>
      let n := (s.core w.core).capNew + 1
      let c := newCaps b (s.asidOf w) w.core n
      let stop := c.stops.getD 0 0
      if c.count == 0 || Nat.blt 8 c.count || Nat.blt 16 c.len || decide (limit < off + c.size) || c.park == 0 ||
          !canonical c.park || c.park.toNat % 64 != 0 then s.trapBy w p 0x308
      else if !stopValid stop then s.trapBy w p 0x30A
      else if s.capRouteBad w.core w.gslot (stopCluster stop) (stopClass stop) then s.trapBy w p 0x30E
      else
        let s := s.modCore w.core fun k => { k with capNew := n }
        (s.sendCaps w c (2 * stopCluster stop + stopCore stop) (stopAny stop) (bitsAt y 0 1 == 1) off).capDone w sw d
          (BitVec.ofNat 32 n)

/-- The slot that a capsule command names, when the wave owns it (R299): the group and the kept fields. -/
def State.ownedSlot (s : State) (w : Wave) (k : Nat) : Option (Group × CSlot) :=
  match s.groupOf w with
  | none => none
  | some g =>
    match Tab.get none g.caps k with
    | some x => if x.owner == some w.slot && Nat.blt k g.cslots then some (g, x) else none
    | none => none

/-- Replaces the kept fields of a slot. -/
def State.setSlot (s : State) (g : Group) (k : Nat) (x : Option CSlot) : State :=
  s.modGroup g.core g.gslot fun g => { g with caps := Tab.put none g.caps k x }

/-- The capsule of a slot, with the itinerary and PARK of the slot's bytes 0 to 127 (R301). -/
def CSlot.caps (x : CSlot) (core : Nat) (b : List Byte) : Caps :=
  { capsOf b x.cls core 0 with
    asid := x.asid, id := x.id, flags := x.flags, index := x.index, count := x.count, len := x.len,
    origin := x.origin, magic := 0xCA95, major := 1, tile := [] }

/-- A command that names a slot (R299): the control word, then the slot, then the bytes 0 to 127 of the
slot as the wave's earlier accesses leave them. -/
def slotOp (sw : Bool) (d : Reg) (srcs : List (Reg × Nat)) (b : Reg) (bad : Word → Bool)
    (f : State → Wave → Path → Group → Nat → CSlot → List Byte → State) (s : State) : Out :=
  xOp s sw ((b, 1) :: srcs) [(d, 1)] fun s w p =>
    let y := w.readW b
    if bad y then s.trapBy w p 0x308
    else
      let k := bitsAt y 0 4
      match s.ownedSlot w k with
      | none => s.trapBy w p 0x309
      | some (g, x) => s.withLocal w (g.slotBase k) 128 fun s w b => f s w p g k x b

/-- CAP.FWD (R301). -/
def execCapFwd (sw : Bool) (d b : Reg) (s : State) : Out :=
  slotOp sw d [] b (fun y => bitsAt y 5 27 != 0) (fun s w p g k x bs =>
    let c := x.caps w.core bs
    let stop := c.stops.getD (x.index + 1) 0
    if Nat.ble x.count (x.index + 1) || !stopValid stop then s.trapBy w p 0x30A
    else if s.capRouteBad w.core w.gslot (stopCluster stop) (stopClass stop) then s.trapBy w p 0x30E
    else
      let c := { c with index := x.index + 1, cls := stopClass stop }
      let s := s.setSlot g k (some { x with owner := none, out := some s.nextId })
      (s.sendCaps w c (2 * stopCluster stop + stopCore stop) (stopAny stop) (bitsAt (w.readW b) 4 1 == 1)
        (g.slotBase k)).capDone w sw d 0) s

/-- CAP.RET (R301). -/
def execCapRet (sw : Bool) (d b : Reg) (s : State) : Out :=
  slotOp sw d [] b (fun y => bitsAt y 5 3 != 0 || bitsAt y 12 20 != 0) (fun s w _ g k x bs =>
    let y := w.readW b
    let c := { x.caps w.core bs with index := x.count, flags := x.flags ||| 1, cls := bitsAt y 8 4 }
    let s := s.setSlot g k (some { x with owner := none, out := some s.nextId })
    (s.sendCaps w c x.origin false (bitsAt y 4 1 == 1) (g.slotBase k)).capDone w sw d 0) s

/-- CAP.PARK: the image is written by a command (R301). -/
def execCapPark (sw : Bool) (d b : Reg) (s : State) : Out :=
  slotOp sw d [] b (fun y => bitsAt y 4 28 != 0) (fun s w p g k x bs =>
    let (c, s) := s.newCmd w p 0x3D 6 d (BitVec.ofNat 64 (g.slotBase k)) (BitVec.ofNat 32 k) bs (s.groupGrps w)
    let s := s.setSlot g k (some { x with owner := none, out := some c.id })
    s.postCmd w sw c) s

/-- Writes stops over the itinerary of a slot. -/
def State.putStops (s : State) (g : Group) (k : Nat) (stops : List DWord) : State :=
  s.rawWrite (localBase g.core g.gslot + g.slotBase k + 64) ((stops.map fun x => bytesLE 8 x.toNat).flatten)

/-- CAP.INS (R302). -/
def execCapIns (sw : Bool) (d a b : Reg) (s : State) : Out :=
  slotOp sw d [(a, 2)] b (fun y => bitsAt y 8 24 != 0) (fun s w p g k x bs =>
    let i := bitsAt (w.readW b) 4 4
    let st := (capsOf bs 0 0 0).stops
    let stop := w.readW2 a
    if !(Nat.blt x.index i && Nat.ble i x.count && Nat.blt x.count 8 && stopValid stop) then s.trapBy w p 0x30A
    else
      let st := st.take i ++ [stop] ++ (st.drop i).take (x.count - i) ++ st.drop (x.count + 1)
      ((s.putStops g k st).setSlot g k (some { x with count := x.count + 1 })).capDone w sw d
        (BitVec.ofNat 32 (x.count + 1))) s

/-- CAP.DEL (R302). -/
def execCapDel (sw : Bool) (d b : Reg) (s : State) : Out :=
  slotOp sw d [] b (fun y => bitsAt y 8 24 != 0) (fun s w p g k x bs =>
    let i := bitsAt (w.readW b) 4 4
    let st := (capsOf bs 0 0 0).stops
    if !(Nat.blt x.index i && Nat.blt i x.count) then s.trapBy w p 0x30A
    else
      let st := st.take i ++ (st.drop (i + 1)).take (x.count - i - 1) ++ [0] ++ st.drop x.count
      ((s.putStops g k st).setSlot g k (some { x with count := x.count - 1 })).capDone w sw d
        (BitVec.ofNat 32 (x.count - 1))) s

/-- CAP.SET (R302). -/
def execCapSet (sw : Bool) (d a b : Reg) (s : State) : Out :=
  slotOp sw d [(a, 2)] b (fun y => bitsAt y 8 24 != 0) (fun s w p g k x bs =>
    let i := bitsAt (w.readW b) 4 4
    let st := (capsOf bs 0 0 0).stops
    let stop := w.readW2 a
    if !(Nat.blt x.index i && Nat.blt i x.count && stopValid stop) then s.trapBy w p 0x30A
    else (s.putStops g k (st.set i stop)).capDone w sw d (BitVec.ofNat 32 x.count)) s

/-- CAP.LOAD (R303). -/
def execCapLoad (sw : Bool) (d a b : Reg) (s : State) : Out :=
  xOp s sw [(a, 2), (b, 1)] [(d, 1)] fun s w p =>
    let y := w.readW b
    if bitsAt y 3 29 != 0 then s.trapBy w p 0x308
    else
      let (x, s) := s.newCmd w p 0x3D 7 d (w.readW2 a) y [] (s.groupGrps w)
      s.postCmd w sw x

/-! ## Reading out -/

/-- A capsule with USER and the tile of image bytes, and its CRC (R294, R301). -/
def Caps.fill (c : Caps) (b : List Byte) : Caps :=
  let c := { c with user := (b.drop 32).take 28, tile := (b.drop 128).take (256 * c.len) }
  { c with crc := c.crcOf }

/-- Reads the rest of a capsule out of group-local memory (R243, R301). -/
def State.pullCaps (s : State) (p : Packet) : Packet × State :=
  match p.pull, p.body with
  | some (gslot, off, len), .caps c any =>
    let (bs, s) := s.bankRead p.asid (localBase p.src gslot + off) len
    let q := { p with body := .caps (c.fill bs) any, pull := none }
    let s : State := { s with net := s.net.map fun (x : Packet) => if x.id == p.id then q else x }
    (q, s.freeOut p.src gslot p.id)
  | _, _ => (p, s)

/-- A CAP.PARK command acts (R301, R306). -/
def State.runCapPark (s : State) (x : Cmd) : State :=
  match s.settleNeeds x.core x.needs with
  | (false, s) => s
  | (true, s) =>
    match s.group? x.core x.gslot with
    | none => s.endCmd x 0
    | some g => match Tab.get none g.caps x.wb.toNat with
      | none => s.endCmd x 0
      | some k =>
        let c := k.caps x.core x.blk
        let (bs, s) := s.bankRead x.asid (localBase x.core x.gslot + x.wa.toNat) c.size
        (s.dropCmd x.id).parkCaps x.core (c.fill bs) 0 false (some x.id) (some (x.gslot, x.id)) none

/-- A CAP.LOAD command acts (R303). Its capsule keeps the number of the command, so that a DRAIN that waits for the one
waits for the other (R299). -/
def State.runCapLoad (s : State) (x : Cmd) : State :=
  if x.wa.toNat % 64 != 0 then s.endCmd x 0x8000030B
  else if s.cmdBehind x x.wa then s
  else
    let s := s.forceGrps x.core x.needs
    match s.cmdRead x x.wa 4224 with
    | (.error t, _) => t
    | (.ok b, s) =>
      let c := capsOf b 0 x.core 0
      let index := c.index + bitsAt x.wb 1 1
      let stop := c.stops.getD index 0
      let good := c.magic == 0xCA95 && c.major == 1 && (bitsAt x.wb 2 1 == 1 || c.crc == crc32c (b.take 60 ++ (b.drop 64).take 64))
      if !good || c.asid != x.asid || Nat.blt 16 c.len then s.endCmd x 0x8000030B
      else if Nat.ble (min c.count 8) index || !stopValid stop then s.endCmd x 0x8000030A
      else if s.capRouteBad x.core x.gslot (stopCluster stop) (stopClass stop) then s.endCmd x 0x8000030E
      else
        let c := { c with index, flags := (c.flags &&& 1) ||| 4, cls := stopClass stop, prev := x.core,
                          wk := bitsAt x.wb 0 1 == 1 }
        let c := { c with crc := c.crcOf }
        let dest := 2 * stopCluster stop + stopCore stop
        let vc := ((s.route (clusterOf x.core) c.cls).extractLsb' 1 3).toNat
        let born := match s.wave? x.core x.slot with
          | some w => w.born
          | none => 0
        let (seq, s) := s.nextSeq x.core x.slot dest (32 + c.cls)
        let s : State := { s with net := s.net ++
          [{ id := x.id, dest, src := x.core, slot := x.slot, asid := x.asid, cls := c.cls, vc, seq,
             body := .caps c (stopAny stop), wk := c.wk, born, needs := if c.wk then [] else x.needs }] }
        s.endCmd x 0

/-! ## Arrival -/

/-- Slots of a handler group that hold no capsule. -/
def Group.freeSlots (g : Group) : List Nat :=
  (List.range g.cslots).filter fun k => (Tab.get none g.caps k).isNone

/-- Free slots of the handler group of a class on a core (R296). -/
def State.freeFor (s : State) (core asid cls : Nat) : Nat :=
  match s.handler? core asid cls with
  | some e => match s.group? core e.hgroup with
    | some g => if g.asid == asid && g.hgd.isSome then g.freeSlots.length else 0
    | none => 0
  | none => 0

/-- The group and the slot that a capsule may take (R296 step 2). -/
def State.slotFor (s : State) (core asid cls : Nat) : Option (Group × Nat) :=
  match s.handler? core asid cls with
  | some e =>
    if e.en then
      match s.group? core e.hgroup with
      | some g => if g.asid == asid && g.hgd.isSome then (g.freeSlots.head?.map fun k => (g, k)) else none
      | none => none
    else none
  | none => none

/-- A capsule takes a slot (R295). This is the moment of its arrival in the order of R169 (DESIGN CHOICE, log entry 43:
the spec does not say whether that order counts the arrival at the router or the entry into a slot). -/
def State.intoSlot (s : State) (c : Caps) (g : Group) (k : Nat) : State :=
  let pa := localBase g.core g.gslot + g.slotBase k
  let (n, s) := s.fresh
  let prev := if c.index == 0 then c.origin else c.prev
  let s := s.rawWrite pa c.image
  let s := s.rawWrite (pa + 4224) (bytesLE 8 s.clock ++ bytesLE 4 prev ++ bytesLE 116 0)
  let x : CSlot :=
    { id := c.id, origin := c.origin, asid := c.asid, flags := c.flags, index := c.index, count := c.count,
      len := c.len, cls := c.cls, seq := n, owner := none }
  s.setSlot g k (some x)

/-- A capsule in a ring record that is alive, of a context and a class. -/
def RingRec.waits (r : RingRec) (asid cls : Nat) : Bool :=
  !r.dead && match r.caps with
    | some c => c.asid == asid && c.cls == cls
    | none => false

/-- Capsules of a context and a class wait at a core (R296 step 1). -/
def State.capsWait (s : State) (core asid cls : Nat) : Bool :=
  ((s.core core).held.any fun h => h.asid == asid && h.cls == cls) ||
  ((assoc (s.core core).covf asid).getD []).any fun r => r.waits asid cls

/-- A capsule is decided at a core (R296): a slot, the hold, overflow, or its parking area. One of a context that is not
resident there overflows (R305). -/
def State.decideCaps (s : State) (core : Nat) (c : Caps) (cmd : Option Nat) : State :=
  let overflow : State := match s.putCapsRing core c false with
    | some t => t
    | none => s.parkCaps core c 0x30C true cmd none none
  if !s.residentAt core c.asid || s.capsWait core c.asid c.cls then overflow
  else match s.slotFor core c.asid c.cls with
    | some (g, k) => s.intoSlot c g k
    | none =>
      let k := s.core core
      if Nat.blt k.held.length 2 && Nat.ble (k.chunksUsed + (c.size + 63) / 64) 256 then
        s.modCore core fun k => { k with held := k.held ++ [c] }
      else overflow

/-- The core that a capsule for either core of a cluster goes to (R296). -/
def State.anyCore (s : State) (cl asid cls : Nat) : Nat :=
  if Nat.blt (s.freeFor (2 * cl) asid cls) (s.freeFor (2 * cl + 1) asid cls) then 2 * cl + 1 else 2 * cl

/-- A packet holds a capsule for either core of its cluster. -/
def Packet.isAny (p : Packet) : Bool :=
  match p.body with
  | .caps _ any => any
  | _ => false

/-- Two capsules of one sender to one cluster, of which one may go to either core, keep their order. -/
def Packet.sameCluster (p q : Packet) : Bool :=
  p.src == q.src && p.slot == q.slot && p.born == q.born && p.cls == q.cls && p.dest / 2 == q.dest / 2 && (p.isAny || q.isAny) &&
  match q.body with
  | .caps .. => true
  | _ => false

/-- A capsule arrives. -/
def State.arriveCaps (s : State) (p : Packet) : State :=
  let (p, s) := s.pullCaps p
  match p.body with
  | .caps c any =>
    let core := if any then s.anyCore (p.dest / 2) c.asid c.cls else p.dest
    let s := s.dropPacket p.id
    let c := { c with prev := p.src, wslot := p.slot, vc := p.vc, seq := p.seq }
    if c.good then s.decideCaps core c (some p.id) else s.parkCaps core c 0x30B true (some p.id) none none
  | _ => s

/-- CAPSULE_ARRIVAL (R296, R306). -/
def execCapsuleArrival (k : Nat) (s : State) : Out :=
  match s.net[k]? with
  | none => .next s
  | some p => match p.body with
    | .caps .. =>
      if ((s.net.takeWhile fun q => q.id != p.id).any fun q => p.sameCluster q) ||
          (s.cmds.any fun x => x.core == p.src && x.slot == p.slot && x.maj == 0x3D && x.fn == 7 && Nat.blt x.id p.id)
      then .next s
      else match s.packetReady p with
        | (false, s) => .next s
        | (true, s) => .next (s.arriveCaps p)
    | _ => .next s

/-- The capsules that wait at a core, in order: those in the hold, then those of the rings. -/
def Core.waiting (c : Core) : List Caps :=
  c.held ++ (c.covf.map fun e => e.2.filterMap fun r => if r.dead then none else r.caps).flatten

/-- Removes a waiting capsule. -/
def Core.unwait (c : Core) (x : Caps) : Core :=
  if c.held.any fun h => h == x then { c with held := c.held.erase x }
  else { c with
    covf := c.covf.map fun e =>
      if e.1 == x.asid then (e.1, ringDrop e.2 fun r => !r.dead && r.caps == some x) else e }

/-- CAPSULE_SLOT_ENTRY: the k-th capsule that waits at a core takes a slot, the oldest of its class first
(R296). -/
def execCapsuleSlotEntry (core k : Nat) (s : State) : Out :=
  let ws := (s.core core).waiting
  match ws[k]? with
  | none => .next s
  | some c =>
    if (ws.take k).any fun x => x.asid == c.asid && x.cls == c.cls then .next s
    else match s.slotFor core c.asid c.cls with
      | some (g, i) => .next ((s.modCore core fun x => x.unwait c).intoSlot c g i)
      | none => .next s

end Sys2Proof.Machine
end

