-- ==== Sys2Proof/Machine/Trav.lean ====
section
/-! DEFINITION. Traversal threads: their memory accesses (R363, R387), record extensions (R362), nodes and
decode tables (R364, R365), the posting of completion entries (R380) and the end of a thread (R388). -/

namespace Sys2Proof.Machine

/-! ## Registers -/

def Thread.read (t : Thread) (r : TReg) : Word := Tab.get 0 t.t r.toNat
/-- A pair, low word in the even register (R358). -/
def Thread.read2 (t : Thread) (r : TReg) : DWord := t.read (r + 1) ++ t.read r
def Thread.write (t : Thread) (r : TReg) (v : Word) : Thread := { t with t := Tab.put 0 t.t r.toNat v }
def Thread.write2 (t : Thread) (r : TReg) (v : DWord) : Thread :=
  (t.write r (v.setWidth 32)).write (r + 1) (v.extractLsb' 32 32)

/-- The next word (R357). -/
def Thread.next (t : Thread) : Thread := { t with pc := t.pc + 1 }

/-- Entries of the stack (R359). -/
def Thread.depth (t : Thread) : Nat := t.stack.length + t.spilled

/-- Removes a thread. -/
def State.dropThread (s : State) (core num : Nat) : State :=
  s.modCore core fun c => { c with trp := { c.trp with threads := c.trp.threads.filter fun t => t.num != num } }

/-- A thread exists with an instruction under way. -/
def withThread (s : State) (f : Thread → State) : Out :=
  match (s.core s.selCore).trp.threads.find? fun t => t.num == s.selSlot with
  | none => .fault .noThread
  | some t => .next (f t)

/-! ## Memory -/

/-- Bytes that an engine is to read or to write. -/
structure Want where
  write : Bool
  va : DWord
  len : Nat
  deriving DecidableEq, Repr

/-- The physical pieces of ranges of an engine of a core, which translates through a store of its own, or the first range
that cannot be reached (R251). -/
def State.grant (s : State) (core : Nat) (via : Via) (asid : Nat) :
    List Want → Except (Want × Tr) (List (List (Nat × Nat))) × State
  | [] => (.ok [], s)
  | w :: t =>
    match s.pieces core via asid (if w.write then { w := true } else { r := true }) w.va w.len with
    | (.error (va, r), s) => (.error ({ w with va }, r), s)
    | (.ok ps, s) => match State.grant s core via asid t with
      | (.ok l, s) => (.ok (ps :: l), s)
      | r => r

/-- An engine of a core writes bytes over pieces (R246). -/
def State.engineWrites (s : State) (core path : Nat) (ps : List (Nat × Nat)) (bs : List Byte) : State :=
  (ps.foldl (fun (t : State × List Byte) p => (t.1.engineWrite core path p.1 (t.2.take p.2), t.2.drop p.2)) (s, bs)).1

/-- A thread waits for the replay of an access (R387). -/
def State.holdThread (s : State) (core : Nat) (t : Thread) (w : Want) (kind : Nat) : State :=
  let r : FRec :=
    { src := 2, idx := t.num, core, kind, access := if w.write then 5 else 4, asid := t.asid, gslot := t.gslot,
      slot := t.slot, pc := 0, posted := s.clock
      accs := [{ grp := t.cmd, lane := 32, va := w.va, pc := 0, kind := .cmd t.cmd }] }
  (s.setThread core t).addRec r kind

/-- The asynchronous record of a thread (R387). -/
def State.reportThread (s : State) (core : Nat) (t : Thread) (cause : Cause) (frozen : Bool) (va : DWord) : State :=
  s.postAsync { asid := t.asid, cause, engine := 3, frozen, gslot := t.gslot, slot := t.slot, core, lid := t.lid,
                addr := va, op := t.cmd }

/-! ## Extensions -/

/-- Bytes 0 to 127 of an extension (Table 16-2). -/
def Thread.extHead (t : Thread) (pc sdr : Nat) : List Byte :=
  bytesOf ((List.range 16).map fun i => Tab.get 0 t.t i) ++ bytesLE 4 pc ++
  [BitVec.ofNat 8 t.depth, BitVec.ofNat 8 sdr, BitVec.ofNat 8 (match t.node with
    | some n => n.id
    | none => 0xFF), 0] ++
  bytesLE 8 (match t.node with
    | some n => n.va.toNat
    | none => 0) ++ List.replicate 48 0

/-- The bytes of resident stack entries, bottom first. -/
def Thread.stackBytes (t : Thread) : List Byte := (t.stack.reverse.map fun x => bytesLE 8 x.toNat).flatten

/-- The extension of a thread. -/
def Thread.extVa (t : Thread) : DWord := t.rva + BitVec.ofNat 64 t.ext

/-- The ranges of an extension that are written; none when the record has no extension. -/
def Thread.extWants (t : Thread) : List Want :=
  if t.ext == 0 then []
  else [⟨true, t.extVa, 128⟩, ⟨true, t.extVa + BitVec.ofNat 64 (128 + 8 * t.spilled), 8 * t.stack.length⟩]

/-- Writes an extension over granted pieces. -/
def State.writeExt (s : State) (core : Nat) (t : Thread) (pc sdr : Nat) (ps : List (List (Nat × Nat))) : State :=
  if t.ext == 0 then s
  else (s.engineWrites core 5 (ps.getD 0 []) (t.extHead pc sdr)).engineWrites core 5 (ps.getD 1 []) t.stackBytes

/-- The STATUS word of a record (Table 16-1). -/
def Thread.statusWant (t : Thread) : Want := ⟨true, t.rva + 60, 4⟩

/-! ## Completion queues -/

/-- A queue of a core. -/
def State.cq? (s : State) (core asid num : Nat) : Option CQ :=
  (s.core core).cqs.find? fun q => q.num == num && q.asid == asid

/-- Replaces a queue. -/
def State.setCq (s : State) (core : Nat) (q : CQ) : State :=
  s.modCore core fun c => { c with cqs := c.cqs.map fun x => if x.num == q.num then q else x }

/-- The words of a completion entry (Table 16-6). -/
def entryWords (rva payload : DWord) (kind cq num seq : Nat) (ws : List Word) : List Word :=
  [rva.setWidth 32, rva.extractLsb' 32 32, payload.setWidth 32, payload.extractLsb' 32 32,
   BitVec.ofNat 32 (kind + 16 * (cq % 8) + 256 * (num % 64) + 65536 * (seq % 65536)),
   ws.getD 0 0, ws.getD 1 0, ws.getD 2 0]

/-- What comes of a try to write an entry: written, no room, no queue, or an access that cannot be made. -/
inductive Posted where
  | done
  | wait
  | stuck (w : Want) (t : Tr)
  deriving DecidableEq, Repr

/-- Writes an entry and then PROD, when the queue has room (R380). In mode 0 CONS is read from the
descriptor. -/
def State.putEntry (s : State) (core asid num : Nat) (ws : List Word) : Posted × State :=
  match s.cq? core asid num with
  | none => (.wait, s)
  | some q =>
    let cons : Except (Want × Tr) Nat × State :=
      if q.mode == 0 then
        match s.grant core .trav asid [⟨false, q.desc + 20, 4⟩] with
        | (.ok ps, s) =>
          let (b, s) := s.readPieces asid ps.flatten
          (.ok (leNat b), s)
        | (.error e, s) => (.error e, s)
      else (.ok q.cons, s)
    match cons with
    | (.error (w, r), s) => (.stuck w r, s)
    | (.ok c, s) =>
      if (q.prod + 2 ^ 32 - c) % 2 ^ 32 == 2 ^ q.logn then (.wait, s)
      else
        let va := q.base + BitVec.ofNat 64 (32 * (q.prod % 2 ^ q.logn))
        match s.grant core .trav asid [⟨true, va, 32⟩, ⟨true, q.desc + 16, 4⟩] with
        | (.error (w, r), s) => (.stuck w r, s)
        | (.ok ps, s) =>
          let prod := (q.prod + 1) % 2 ^ 32
          let s := s.engineWrites core 5 (ps.getD 0 []) (bytesOf ws)
          let s := s.engineWrites core 5 (ps.getD 1 []) (bytesLE 4 prod)
          (.done, s.setCq core { q with
            prod
            waiting := if q.mode == 1 then q.waiting ++ [(s.clock, ws)] else q.waiting })

/-- A thread of a record ends with a cause (R387, R388): its extension and STATUS 3, after a violation an asynchronous
record, and then what `last` says. Where the record cannot be written only the record of the queue is made. -/
def State.endWith (s : State) (core : Nat) (t : Thread) (cause : Cause) (frozen : Bool) (va : DWord) (posts : Bool)
    (last : State → State) : State :=
  let report (s : State) : State := if frozen then s.reportThread core t cause true va else s
  match s.grant core .trav t.asid (t.extWants ++ [t.statusWant]) with
  | (.error (w, .miss k), s) => s.holdThread core { t with stat := .held (.fault cause frozen va posts) } w k
  | (.error (w, .viol c), s) => last ((report s).reportThread core t c true w.va)
  | (.error (_, _), s) => last (report s)
  | (.ok ps, s) =>
    let s := s.writeExt core t t.pc 0 ps
    last (report (s.engineWrites core 5 (ps.getLast?.getD []) (bytesLE 4 3)))

/-- The entry sequence of a record whose thread has left its TRP is kept (R380). -/
def State.keepSeq (s : State) (t : Thread) (seq : Nat) : State :=
  { s with seqs := (t.asid, t.rva, seq % 65536) :: s.seqs.filter fun x => !(x.1 == t.asid && x.2.1 == t.rva) }

/-- The entry sequence that a record goes on with. -/
def State.seqOf (s : State) (asid : Nat) (va : DWord) : Nat :=
  match s.seqs.find? fun q => q.1 == asid && q.2.1 == va with
  | some q => q.2.2
  | none => 0

/-- A thread posts an entry, and then goes on or ends; it waits while the queue has no room (R380), and ends without it
when it may not be written (R387). The entries of a handed-off thread go back to its peer (R445). -/
def State.post (s : State) (core : Nat) (t : Thread) (p : Post) : State :=
  let after (s : State) : State :=
    if p.ends then s.dropThread core t.num
    else s.setThread core { t.next with stat := .ready, seq := (t.seq + 1) % 65536 }
  match t.kind with
  | .prefetch => s.dropThread core t.num
  | .handed seq peer =>
    let ret : HandReturn :=
      { seq, kind := p.kind, words := p.words, endWords := if p.kind == 4 || p.kind == 1 then p.words else [],
        final := p.ends }
    after (if s.linkUp then { s with out := s.out ++ [.handReturn peer ret] } else s)
  | .record =>
    let t := { t with stat := .posting p }
    match s.putEntry core t.asid t.cq (entryWords t.rva t.payload p.kind t.cq t.num t.seq p.words) with
    | (.done, s) => after (if p.kind == 2 then s.keepSeq t (t.seq + 1) else s)
    | (.wait, s) => s.setThread core t
    | (.stuck w (.miss k), s) => s.holdThread core t w k
    | (.stuck w (.viol c), s) => s.endWith core t c true w.va false fun s => s.dropThread core t.num
    | (.stuck _ _, s) => s.setThread core t

/-! ## The end of a thread -/

/-- A thread ends with a cause (R387, R388): its extension, STATUS 3, and a fault entry; after a violation
an asynchronous record too. -/
def State.endFault (s : State) (core : Nat) (t : Thread) (cause : Cause) (frozen : Bool) (va : DWord) : State :=
  let p : Post := ⟨3, [cause.setWidth 32, BitVec.ofNat 32 t.pc, 0], true⟩
  let report (s : State) : State := if frozen then s.reportThread core t cause true va else s
  match t.kind with
  | .prefetch => s.dropThread core t.num
  | .handed _ _ => (report s).post core t p
  | .record => s.endWith core t cause frozen va true fun s => s.post core t p

/-- The reply of a failed command (R382). -/
def failWord (c : Cause) : Word := 0x80000000 ||| c.setWidth 32

/-- An access that a thread was to make is a violation: the thread freezes (R387, R402). One that has not read its record
yet has nothing to write there; the command that resumes a record has its reply (R384; log entry 50). -/
def State.failHold (s : State) (core : Nat) (t : Thread) (h : THold) (c : Cause) (va : DWord) : State :=
  match h with
  | .start => ((s.reportThread core t c true va).dropThread core t.num).replyAll t.cmd (failWord c)
  | .status _ => (s.replyAll t.cmd 0).endFault core { t with ext := 0 } c true va
  | .ext _ => (s.replyAll t.cmd 0).endFault core { t with ext := 0 } c true va
  | .renode _ _ => (s.replyAll t.cmd 0).endFault core t c true va
  | .fault cause frozen va' posts =>
    let s := if frozen then s.reportThread core t cause true va' else s
    let s := s.reportThread core t c true va
    if posts then s.post core t ⟨3, [cause.setWidth 32, BitVec.ofNat 32 t.pc, 0], true⟩ else s.dropThread core t.num
  | .cons _ _ => (s.reportThread core t c true va).dropThread core t.num
  | _ => s.endFault core t c true va

/-- An access of a thread that cannot be made: it waits for a replay, and then does what `h` says, or the thread freezes
(R387). A prefetch thread ends (R211). -/
def State.blocked (s : State) (core : Nat) (t : Thread) (h : THold) (w : Want) (r : Tr) : State :=
  if t.kind == .prefetch then s.dropThread core t.num
  else match r with
    | .miss k => s.holdThread core { t with stat := .held h } w k
    | .viol c => s.failHold core t h c w.va
    | .ok _ _ => s

/-- A thread reads bytes at the home banks (R363). -/
def State.threadRead (s : State) (core : Nat) (t : Thread) (h : THold) (va : DWord) (len : Nat)
    (f : State → List Byte → State) : State :=
  match s.grant core .trav t.asid [⟨false, va, len⟩] with
  | (.error (w, r), s) => s.blocked core t h w r
  | (.ok ps, s) =>
    let (b, s) := s.readPieces t.asid ps.flatten
    f s b

/-- An instruction that only changes its thread, or ends it. -/
def tReg (s : State) (f : Thread → Except Cause Thread) : Out :=
  withThread s fun t => match f t with
    | .ok t => s.setThread s.selCore t.next
    | .error c => s.endFault s.selCore t c false 0

/-! ## Nodes -/

/-- A field of a decode table (Table 16-3). -/
def tabField (b : BitVec 256) (i n : Nat) : Nat := b.toNat / 2 ^ i % 2 ^ n

/-- Node bytes of a table. -/
def tabSize (b : BitVec 256) : Nat := 64 * 2 ^ tabField b 0 2

/-- A node buffer as its table decodes it. -/
def Node.field (n : Node) (i k : Nat) : Nat := tabField n.tab i k
/-- Bytes of a node as a number. -/
def Node.at (n : Node) (off len : Nat) : Nat := fieldNat n.bytes off len
/-- 0 inner, 1 leaf, 2 remote, 3 invalid. -/
def Node.nkind (n : Node) : Nat := n.at 0 8 / 2 ^ n.field 8 6 % 4
def Node.cnt (n : Node) : Nat := n.at 0 8 / 2 ^ n.field 16 6 % 16
def Node.size (n : Node) : Nat := tabSize n.tab
def Node.chmode (n : Node) : Nat := n.field 24 2
def Node.boxmode (n : Node) : Nat := n.field 64 2
def Node.keyw (n : Node) : Nat := n.field 112 2
/-- Bytes of a key. -/
def Node.kwidth (n : Node) : Nat := if n.keyw == 2 then 8 else 4
def Node.prefb (n : Node) : Nat := n.field 115 3
def Node.trioff (n : Node) : Nat := n.field 160 16

/-- Children, keys and triangles of the decoded view (R365). -/
def Node.children (n : Node) : Nat := if n.nkind == 0 then n.cnt else 0
def Node.keys (n : Node) : Nat := if n.nkind == 1 && n.keyw != 0 then n.cnt else 0
def Node.tris (n : Node) : Nat := if n.nkind == 1 && n.trioff != 0 then min n.cnt 4 else 0

/-- The fields that a node uses, as offset and length (R365). -/
def Node.uses (n : Node) : List (Nat × Nat) :=
  match n.nkind with
  | 0 =>
    [(n.field 32 16, n.cnt * (match n.chmode with
      | 0 => 8
      | 1 => 4
      | _ => 2))] ++
    (if n.chmode == 0 then [] else [(n.field 48 16, 8)]) ++
    (match n.boxmode with
      | 0 => []
      | 1 => [(n.field 80 16, 24 * n.cnt)]
      | _ => [(n.field 80 16, 6 * n.cnt), (n.field 96 16, 16)])
  | 1 =>
    (if n.keyw == 0 then []
      else [(n.field 128 16, n.cnt * (n.kwidth - n.prefb)), (n.field 144 16, n.prefb)]) ++
    (if n.trioff == 0 then [] else [(n.trioff, 36 * n.tris)])
  | _ => [(n.field 176 16, 16)]

/-- A node that cannot be decoded (R365). -/
def Node.bad (n : Node) : Bool :=
  n.nkind == 3 || Nat.blt n.bytes.length n.size ||
  (n.nkind == 0 && (n.cnt == 0 || Nat.blt 8 n.cnt)) ||
  (n.nkind == 1 && n.keyw == 0 && n.trioff != 0 && Nat.blt 4 n.cnt) ||
  n.uses.any fun u => u.2 != 0 && Nat.blt n.size (u.1 + u.2)

/-- The VA of child k (Table 16-3). -/
def Node.child (n : Node) (k : Nat) : DWord :=
  let off := n.field 32 16
  match n.chmode with
  | 0 => BitVec.ofNat 64 (n.at (off + 8 * k) 8)
  | 1 => BitVec.ofNat 64 (n.at (n.field 48 16) 8 + n.at (off + 4 * k) 4 * n.size)
  | _ => BitVec.ofNat 64 (n.at (n.field 48 16) 8 + n.at (off + 2 * k) 2 * n.size)

/-- Key k (R365). -/
def Node.key (n : Node) (k : Nat) : Nat :=
  let m := n.kwidth - n.prefb
  n.at (n.field 144 16) n.prefb * 2 ^ (8 * m) + n.at (n.field 128 16 + m * k) m

/-- A bound of a quantised box: the origin and the steps, added exactly and rounded once (R365). -/
def quantBound (o k e : Nat) (up : Bool) : Nat :=
  let rm := if up then Rm.rup else Rm.rdn
  (f32.pack rm (FNum.add rm (f32.num o) (.fin false k ((e : Int) - 127))).1).1

/-- The box of child k: lo x, y, z, then hi x, y, z, as FP32 (R365). -/
def Node.box (n : Node) (k : Nat) : List Nat :=
  let off := n.field 80 16
  if n.boxmode == 1 then (List.range 6).map fun i => n.at (off + 24 * k + 4 * i) 4
  else
    let q := n.field 96 16
    (List.range 6).map fun i =>
      quantBound (n.at (q + 4 * (i % 3)) 4) (n.at (off + 6 * k + i) 1) (n.at (q + 12 + i % 3) 1) (Nat.ble 3 i)

/-- Vertex coordinates of triangle k: v0, v1, v2 (Table 16-3). -/
def Node.tri (n : Node) (k : Nat) : List Nat := (List.range 9).map fun i => n.at (n.trioff + 36 * k + 4 * i) 4

/-- A table of a context in a TRP (R364). -/
def State.dtab? (s : State) (core asid id : Nat) : Option DTab :=
  (s.core core).trp.tables.find? fun d => d.asid == asid && d.id == id

end Sys2Proof.Machine
end

