-- ==== Sys2Proof/Machine/TravOps.lean ====
section
/-! DEFINITION. The traversal instructions (R366 to R378) and a word that is none (R38). -/

namespace Sys2Proof.Machine

/-! ## Arithmetic -/

/-- An operation on two registers (R367). -/
def talu (d a b : TReg) (f : Word → Word → Word) (s : State) : Out :=
  tReg s fun t => .ok (t.write d (f (t.read a) (t.read b)))

/-- TNOP (R366). -/
def execTnop (s : State) : Out := tReg s fun t => .ok t
/-- TADD (R367). -/
def execTadd (d a b : TReg) (s : State) : Out := talu d a b (fun x y => x + y) s
/-- TSUB (R367). -/
def execTsub (d a b : TReg) (s : State) : Out := talu d a b (fun x y => x - y) s
/-- TAND (R367). -/
def execTand (d a b : TReg) (s : State) : Out := talu d a b (fun x y => x &&& y) s
/-- TOR (R367). -/
def execTor (d a b : TReg) (s : State) : Out := talu d a b (fun x y => x ||| y) s
/-- TXOR (R367). -/
def execTxor (d a b : TReg) (s : State) : Out := talu d a b (fun x y => x ^^^ y) s
/-- TSHL (R367). -/
def execTshl (d a b : TReg) (s : State) : Out := talu d a b shlF s
/-- TSHR (R367). -/
def execTshr (d a b : TReg) (s : State) : Out := talu d a b shrF s
/-- TSRA (R367). -/
def execTsra (d a b : TReg) (s : State) : Out := talu d a b sraF s
/-- TMIN (R367). -/
def execTmin (d a b : TReg) (s : State) : Out := talu d a b minF s
/-- TMAX (R367). -/
def execTmax (d a b : TReg) (s : State) : Out := talu d a b maxF s
/-- TMINU (R367). -/
def execTminu (d a b : TReg) (s : State) : Out := talu d a b minuF s
/-- TMAXU (R367). -/
def execTmaxu (d a b : TReg) (s : State) : Out := talu d a b maxuF s
/-- TMUL (R367). -/
def execTmul (d a b : TReg) (s : State) : Out := talu d a b (fun x y => x * y) s

/-- An FP32 operation to nearest even (R367). -/
def tfalu (d a b : TReg) (f : FNum → FNum → Nat × Flags) (s : State) : Out :=
  talu d a b (fun x y => BitVec.ofNat 32 (f (f32.num x.toNat) (f32.num y.toNat)).1) s

/-- TFADD (R367). -/
def execTfadd (d a b : TReg) (s : State) : Out := tfalu d a b (f32.add .rne false) s
/-- TFSUB (R367). -/
def execTfsub (d a b : TReg) (s : State) : Out := tfalu d a b (fun x y => f32.add .rne false x y.neg) s
/-- TFMUL (R367). -/
def execTfmul (d a b : TReg) (s : State) : Out := tfalu d a b (f32.mul .rne false) s
/-- TFMIN (R367). -/
def execTfmin (d a b : TReg) (s : State) : Out := tfalu d a b (f32.minmax false false) s
/-- TFMAX (R367). -/
def execTfmax (d a b : TReg) (s : State) : Out := tfalu d a b (f32.minmax false true) s

/-- An operation on a register and a constant. -/
def talui (d a : TReg) (f : Word → Word) (s : State) : Out := tReg s fun t => .ok (t.write d (f (t.read a)))

/-- TADDI (R367). -/
def execTaddi (d a : TReg) (imm : BitVec 14) (s : State) : Out := talui d a (fun x => x + imm.signExtend 32) s
/-- TANDI (R367). -/
def execTandi (d a : TReg) (imm : BitVec 14) (s : State) : Out := talui d a (fun x => x &&& imm.signExtend 32) s
/-- TORI (R367). -/
def execTori (d a : TReg) (imm : BitVec 14) (s : State) : Out := talui d a (fun x => x ||| imm.setWidth 32) s
/-- TSHLI (R367). -/
def execTshli (d a : TReg) (n : BitVec 5) (s : State) : Out := talui d a (fun x => x <<< n.toNat) s
/-- TSHRI (R367). -/
def execTshri (d a : TReg) (n : BitVec 5) (s : State) : Out := talui d a (fun x => x >>> n.toNat) s
/-- TSRAI (R367). -/
def execTsrai (d a : TReg) (n : BitVec 5) (s : State) : Out := talui d a (fun x => x.sshiftRight n.toNat) s
/-- TROLI (R367). -/
def execTroli (d a : TReg) (n : BitVec 5) (s : State) : Out := talui d a (fun x => x.rotateLeft n.toNat) s
/-- TLUI (R367). -/
def execTlui (d : TReg) (imm : BitVec 22) (s : State) : Out :=
  tReg s fun t => .ok (t.write d (imm.setWidth 32 <<< 10))

/-! ## Branches and special reads -/

/-- The conditions of TBR (R368). -/
def tcond (c : TCond) (a b : Word) : Bool :=
  let x := f32.num a.toNat
  let y := f32.num b.toNat
  let ordered := !x.isNaN && !y.isNaN
  match c with
  | .eq => a == b
  | .ne => a != b
  | .lt => a.slt b
  | .ge => !a.slt b
  | .ltu => a.ult b
  | .geu => !a.ult b
  | .flt => ordered && FNum.cmp x y == .lt
  | .fge => ordered && FNum.cmp x y != .lt
  | .al => true

/-- A thread continues at another word; a negative index ends it (R366). -/
def State.tjump (s : State) (t : Thread) (off : BitVec 14) : State :=
  let pc : Int := t.pc + off.toInt
  if pc < 0 then s.endFault s.selCore t 0x235 false 0 else s.setThread s.selCore { t with pc := pc.toNat }

/-- TBR (R368). -/
def execTbr (cond : TCond) (a b : TReg) (off : BitVec 14) (s : State) : Out :=
  withThread s fun t =>
    if tcond cond (t.read a) (t.read b) then s.tjump t off else s.setThread s.selCore t.next

/-- A read of what the record gives; a prefetch thread reads 0 (R368). -/
def trsr (d : TReg) (f : Thread → Word) (s : State) : Out :=
  tReg s fun t => .ok (t.write d (if t.kind == .prefetch then 0 else f t))

/-- TRSR RECLO (R368). -/
def execTrsrReclo (d : TReg) (s : State) : Out := trsr d (fun t => t.rva.setWidth 32) s
/-- TRSR RECHI (R368). -/
def execTrsrRechi (d : TReg) (s : State) : Out := trsr d (fun t => t.rva.extractLsb' 32 32) s
/-- TRSR TAG (R368). -/
def execTrsrTag (d : TReg) (s : State) : Out := trsr d (fun t => t.tag.setWidth 32) s
/-- TRSR THREAD (R368). -/
def execTrsrThread (d : TReg) (s : State) : Out := tReg s fun t => .ok (t.write d (BitVec.ofNat 32 t.num))

/-! ## Nodes -/

/-- A thread fetches a node and decodes it by a table (R369). A node that decodes to nothing leaves the node buffer as it
was (DEDUCED, log entry 49). -/
def State.fetchNode (s : State) (core : Nat) (t : Thread) (va : DWord) (bits : BitVec 256) (id : Nat) : State :=
  s.threadRead core t (.node va bits id) va (tabSize bits) fun s bs =>
    let x : Node := { va, bytes := bs, tab := bits, id }
    if x.bad then s.endFault core t 0x231 false 0
    else s.setThread core { t with node := some x, stat := .ready }.next

/-- NFETCH (R369). -/
def execNfetch (a : TReg) (n : BitVec 4) (s : State) : Out :=
  withThread s fun t =>
    let core := s.selCore
    match s.dtab? core t.asid n.toNat with
    | none => s.endFault core t 0x233 false 0
    | some d =>
      let va := t.read2 a
      if va.toNat % tabSize d.bits != 0 then s.endFault core t 0x231 false 0
      else s.fetchNode core t va d.bits n.toNat

/-- NDEC (R369), with the same choice as NFETCH. -/
def execNdec (n : BitVec 4) (s : State) : Out :=
  withThread s fun t =>
    let core := s.selCore
    match t.node, s.dtab? core t.asid n.toNat with
    | none, _ => s.endFault core t 0x232 false 0
    | some _, none => s.endFault core t 0x233 false 0
    | some x, some d =>
      let x := { x with tab := d.bits, id := n.toNat }
      if x.bad then s.endFault core t 0x231 false 0
      else s.setThread core { t with node := some x }.next

/-- An instruction on the decoded view: none ends the thread (R369). -/
def nodeOp (s : State) (f : Thread → Node → Except Cause Thread) : Out :=
  tReg s fun t => match t.node with
    | none => .error 0x232
    | some n => f t n

/-- A field of the decoded view, when it can answer. -/
def nget (d : TReg) (ok : Node → Bool) (f : Node → Nat) (s : State) : Out :=
  nodeOp s fun t n => if ok n then .ok (t.write d (BitVec.ofNat 32 (f n))) else .error 0x232

/-- A pair from the decoded view, when it can answer. -/
def nget2 (d : TReg) (ok : Node → Bool) (f : Node → DWord) (s : State) : Out :=
  nodeOp s fun t n => if ok n then .ok (t.write2 d (f n)) else .error 0x232

/-- NGET kind (R369). -/
def execNgetKind (d : TReg) (s : State) : Out := nget d (fun _ => true) Node.nkind s
/-- NGET cnt (R369). -/
def execNgetCnt (d : TReg) (s : State) : Out := nget d (fun _ => true) Node.cnt s
/-- NGET child (R369). -/
def execNgetChild (d : TReg) (k : BitVec 3) (s : State) : Out :=
  nget2 d (fun n => Nat.blt k.toNat n.children) (fun n => n.child k.toNat) s
/-- NGET keylo (R369). -/
def execNgetKeylo (d : TReg) (k : BitVec 4) (s : State) : Out :=
  nget d (fun n => Nat.blt k.toNat n.keys) (fun n => n.key k.toNat % 2 ^ 32) s
/-- NGET keyhi (R369). -/
def execNgetKeyhi (d : TReg) (k : BitVec 4) (s : State) : Out :=
  nget d (fun n => Nat.blt k.toNat n.keys) (fun n => n.key k.toNat / 2 ^ 32) s
/-- NGET peer (R369). -/
def execNgetPeer (d : TReg) (s : State) : Out :=
  nget d (fun n => n.nkind == 2) (fun n => n.at (n.field 176 16) 1) s
/-- NGET remote (R369). -/
def execNgetRemote (d : TReg) (s : State) : Out :=
  nget2 d (fun n => n.nkind == 2) (fun n => BitVec.ofNat 64 (n.at (n.field 176 16 + 8) 8)) s
/-- NGET word (R369). -/
def execNgetWord (d : TReg) (n : BitVec 7) (s : State) : Out :=
  nget d (fun x => Nat.blt (4 * n.toNat) x.size) (fun x => x.at (4 * n.toNat) 4) s

/-! ## Memory -/

/-- A thread reads a word (R370), or 128 bytes into its chunk n (R370). -/
def State.fetchLd (s : State) (core : Nat) (t : Thread) (d : TReg) (va : DWord) : State :=
  s.threadRead core t (.word d va) va 4 fun s bs =>
    s.setThread core { (t.write d (BitVec.ofNat 32 (leNat bs))).next with stat := .ready }

def State.fetchChunk (s : State) (core : Nat) (t : Thread) (n : Nat) (va : DWord) : State :=
  s.threadRead core t (.chunk n va) va 128 fun s bs =>
    s.setThread core { t with chunks := Tab.put [] t.chunks n bs, stat := .ready }.next

/-- TLD (R370). -/
def execTld (d a : TReg) (off : BitVec 14) (s : State) : Out :=
  withThread s fun t =>
    let core := s.selCore
    let va := t.read2 a + BitVec.ofInt 64 (4 * off.toInt)
    if va.toNat % 4 != 0 then s.endFault core t 0x231 false 0
    else s.fetchLd core t d va

/-- TQLD (R370). -/
def execTqld (a : TReg) (n : BitVec 3) (s : State) : Out :=
  withThread s fun t =>
    let core := s.selCore
    let va := t.read2 a
    if va.toNat % 32 != 0 then s.endFault core t 0x231 false 0
    else s.fetchChunk core t n.toNat va

/-- A prefetch of the line of a VA, into the node cache, which holds no bytes of its own, or into the L1
(R363, R370); one that would fault is dropped. -/
def State.travPrefetch (s : State) (core asid : Nat) (va : DWord) (l1 : Bool) : State :=
  match s.translate core .trav asid { r := true } va with
  | (.ok pa how, s) =>
    if !inDev pa then s
    else
      let (line, s) := s.bankRead asid (pa / 32 * 32) 32
      let c := s.core core
      if l1 && how == 0 && (assoc c.l1 (pa / 32)).isNone &&
          !(c.sq.any fun e => overlaps e.range.1 e.range.2 (pa / 32 * 32) 32) then
        s.modCore core fun c => { c with l1 := l1Fill c.l1 (pa / 32) line }
      else s
  | (_, s) => s

/-- TPF.NC (R370). -/
def execTpfNc (a : TReg) (s : State) : Out :=
  withThread s fun t => (s.travPrefetch s.selCore t.asid (t.read2 a) false).setThread s.selCore t.next
/-- TPF.L1 (R370). -/
def execTpfL1 (a : TReg) (s : State) : Out :=
  withThread s fun t => (s.travPrefetch s.selCore t.asid (t.read2 a) true).setThread s.selCore t.next

/-! ## Rays -/

def fAdd (x y : Nat) : Nat := (f32.add .rne false (f32.num x) (f32.num y)).1
def fSub (x y : Nat) : Nat := (f32.add .rne false (f32.num x) (f32.num y).neg).1
def fMul (x y : Nat) : Nat := (f32.mul .rne false (f32.num x) (f32.num y)).1
def fDiv (x y : Nat) : Nat := (f32.div .rne (f32.num x) (f32.num y)).1
def fMin (x y : Nat) : Nat := (f32.minmax false false (f32.num x) (f32.num y)).1
def fMax (x y : Nat) : Nat := (f32.minmax false true (f32.num x) (f32.num y)).1
def fNaN (x : Nat) : Bool := (f32.num x).isNaN
/-- An ordered comparison: at most. -/
def fLe (x y : Nat) : Bool := !fNaN x && !fNaN y && FNum.cmp (f32.num x) (f32.num y) != .gt

/-- The ray block at a register: origin, direction, tmin, tmax (R371). -/
def Thread.ray (t : Thread) (a : TReg) : List Nat :=
  (List.range 8).map fun i => (t.read (a + BitVec.ofNat 4 i)).toNat

/-- The interval of a ray in a box: near and far (R371). -/
def boxHit (ray box : List Nat) : Nat × Nat :=
  (List.range 3).foldl (fun nf ax =>
    let inv := fDiv 0x3F800000 (ray.getD (3 + ax) 0)
    let org := ray.getD ax 0
    let t1 := fMul (fSub (box.getD ax 0) org) inv
    let t2 := fMul (fSub (box.getD (3 + ax) 0) org) inv
    if fNaN t1 || fNaN t2 then nf else (fMax nf.1 (fMin t1 t2), fMin nf.2 (fMax t1 t2)))
    (ray.getD 6 0, ray.getD 7 0)

/-- Inserts a hit child by ascending entry; an equal one of lower index stays before it. -/
def insertHit (x : Nat × Nat) : List (Nat × Nat) → List (Nat × Nat)
  | [] => [x]
  | y :: t => if fLe y.2 x.2 then y :: insertHit x t else x :: y :: t

/-- The result of TBOX: the hit mask and the order of the children (R371). -/
def boxWord (hits : List (Nat × Nat)) : Word :=
  let order := ((hits.foldl (fun l x => insertHit x l) []).map fun x => x.1)
  let all := order ++ (List.range 8).filter fun i => !order.any fun k => k == i
  let mask := order.foldl (fun m i => m + 2 ^ i) 0
  BitVec.ofNat 32 (mask + (all.zipIdx.map fun e => e.1 * 2 ^ (8 + 3 * e.2)).foldl (· + ·) 0)

/-- TBOX (R371). -/
def execTbox (d a : TReg) (s : State) : Out :=
  nodeOp s fun t n =>
    if n.nkind != 0 || n.boxmode == 0 then .error 0x232
    else
      let hits := (List.range n.cnt).filterMap fun i =>
        let (near, far) := boxHit (t.ray a) (n.box i)
        if fLe near far then some (i, near) else none
      .ok (t.write d (boxWord hits))

/-- The dot product, rounded after each operation (R372). -/
def fDot (x y : List Nat) : Nat :=
  fAdd (fAdd (fMul (x.getD 0 0) (y.getD 0 0)) (fMul (x.getD 1 0) (y.getD 1 0))) (fMul (x.getD 2 0) (y.getD 2 0))
/-- The cross product. -/
def fCross (x y : List Nat) : List Nat :=
  (List.range 3).map fun i =>
    let j := (i + 1) % 3
    let k := (i + 2) % 3
    fSub (fMul (x.getD j 0) (y.getD k 0)) (fMul (x.getD k 0) (y.getD j 0))
/-- The difference of two vectors. -/
def fDiff (x y : List Nat) : List Nat := (List.range 3).map fun i => fSub (x.getD i 0) (y.getD i 0)

/-- The result of TTRI: the distance, and the packed barycentrics (R372). -/
def triHit (ray tri : List Nat) : Nat × Nat :=
  let org := ray.take 3
  let dir := (ray.drop 3).take 3
  let v0 := tri.take 3
  let e1 := fDiff ((tri.drop 3).take 3) v0
  let e2 := fDiff (tri.drop 6) v0
  let sv := fDiff org v0
  let p := fCross dir e2
  let det := fDot e1 p
  let miss := (0x7F800000, 0)
  if fNaN det || (f32.num det).isZero then miss
  else
    let u := fDiv (fDot sv p) det
    let qv := fCross sv e1
    let v := fDiv (fDot dir qv) det
    let t := fDiv (fDot e2 qv) det
    if fLe 0 u && fLe 0 v && fLe (fAdd u v) 0x3F800000 && fLe (ray.getD 6 0) t && fLe t (ray.getD 7 0) then
      (t, (Fmt.convert f32 f16 .rne v).1 * 2 ^ 16 + (Fmt.convert f32 f16 .rne u).1)
    else miss

/-- TTRI (R372). -/
def execTtri (d a : TReg) (n : BitVec 2) (s : State) : Out :=
  nodeOp s fun t x =>
    if Nat.ble x.tris n.toNat then .error 0x232
    else
      let r := triHit (t.ray a) (x.tri n.toNat)
      .ok ((t.write d (BitVec.ofNat 32 r.1)).write (d + 1) (BitVec.ofNat 32 r.2))

/-! ## Distances and keys -/

/-- The BF16 values of bytes. -/
def bfVals (bs : List Byte) : List FNum := (List.range 64).map fun i => bf16.num (fieldNat bs (2 * i) 2)

/-- D + s for TDIST: every product and sum exact, rounded once (R373). -/
def distWord (dot : Bool) (acc : Word) (q x : List Byte) : Word :=
  let terms := ((bfVals q).zip (bfVals x)).map fun e =>
    if dot then (FNum.mul e.1 e.2).1.neg
    else
      let y := (FNum.add .rne e.1 e.2.neg).1
      (FNum.mul y y).1
  BitVec.ofNat 32 (f32.pack .rne (sumNums .rne (f32.num acc.toNat :: terms)).1).1

/-- A thread reads 128 bytes and adds their distance from its chunk n (R373). -/
def State.fetchDist (s : State) (core : Nat) (t : Thread) (dot : Bool) (d : TReg) (n : Nat) (va : DWord) : State :=
  s.threadRead core t (.dist dot d n va) va 128 fun s bs =>
    s.setThread core { (t.write d (distWord dot (t.read d) (Tab.get [] t.chunks n) bs)).next with stat := .ready }

/-- TDIST (R373). -/
def tdist (dot : Bool) (d a : TReg) (n : BitVec 3) (s : State) : Out :=
  withThread s fun t =>
    let core := s.selCore
    let va := t.read2 a
    if va.toNat % 32 != 0 then s.endFault core t 0x231 false 0
    else s.fetchDist core t dot d n.toNat va

/-- TDIST.L2 (R373). -/
def execTdistL2 (d a : TReg) (n : BitVec 3) (s : State) : Out := tdist false d a n s
/-- TDIST.DOT (R373). -/
def execTdistDot (d a : TReg) (n : BitVec 3) (s : State) : Out := tdist true d a n s

/-- The number of keys below a value, or at most it (R374). -/
def Node.countKeys (n : Node) (le : Bool) (v : Nat) : Nat :=
  let w := 8 * n.kwidth
  let num (x : Nat) : Int := if n.field 114 1 == 1 then (BitVec.ofNat w x).toInt else x
  ((List.range n.keys).filter fun i =>
    if le then decide (num (n.key i) ≤ num v) else decide (num (n.key i) < num v)).length

/-- TKEY (R374). -/
def tkey (le : Bool) (d a : TReg) (s : State) : Out :=
  nodeOp s fun t n =>
    if n.nkind != 1 || n.keyw == 0 then .error 0x232
    else if n.keyw == 2 && a.toNat % 2 != 0 then .error 0x005
    else
      let v := if n.keyw == 2 then (t.read2 a).toNat else (t.read a).toNat
      .ok (t.write d (BitVec.ofNat 32 (n.countKeys le v)))

/-- TKEY.LT (R374). -/
def execTkeyLt (d a : TReg) (s : State) : Out := tkey false d a s
/-- TKEY.LE (R374). -/
def execTkeyLe (d a : TReg) (s : State) : Out := tkey true d a s

/-! ## The stack -/

/-- Entries that a thread may hold (R359). -/
def Thread.stackLimit (t : Thread) : Nat := if t.ext == 0 then 8 else 16

/-- Entries that a thread keeps in its TRP: the packet of a handed-off thread has no home here (R445). -/
def Thread.resident (t : Thread) : Nat :=
  match t.kind with
  | .handed _ _ => 16
  | _ => 8

/-- A thread has a stack with new values on it. What would pass the resident entries is spilled first; where the limit
stopped the push, the thread then ends (R359, R375). -/
def State.spill (s : State) (core : Nat) (t : Thread) (stack : List DWord) (more : Bool) : State :=
  let k := stack.length - t.resident
  let out := stack.drop (stack.length - k)
  let finish (s : State) (t : Thread) : State :=
    let t := { t with stat := .ready }
    if more then s.endFault core t 0x230 false 0 else s.setThread core t.next
  if k == 0 then finish s { t with stack }
  else match s.grant core .trav t.asid [⟨true, t.extVa + BitVec.ofNat 64 (128 + 8 * t.spilled), 8 * k⟩] with
    | (.error (w, r), s) => s.blocked core t (.push stack more) w r
    | (.ok ps, s) =>
      let s := s.engineWrites core 5 ps.flatten ((out.reverse.map fun x => bytesLE 8 x.toNat).flatten)
      finish s { t with stack := stack.take (stack.length - k), spilled := t.spilled + k }

/-- Pushes values in order, as far as the limit allows (R359, R375). -/
def State.pushAll (s : State) (t : Thread) (vs : List DWord) : State :=
  let n := min vs.length (t.stackLimit - t.depth)
  s.spill s.selCore t ((vs.take n).reverse ++ t.stack) (Nat.blt n vs.length)

/-- TPUSH (R375). -/
def execTpush (a : TReg) (s : State) : Out := withThread s fun t => s.pushAll t [t.read2 a]

/-- The hit children that a TBOX result lists, in its order (R371). -/
def hitList (v : Word) : List Nat :=
  ((List.range 8).map fun j => v.toNat / 2 ^ (8 + 3 * j) % 8).filter fun i => v.getLsbD i

/-- TPUSHC (R375). -/
def execTpushc (a : TReg) (s : State) : Out :=
  withThread s fun t => match t.node with
    | none => s.endFault s.selCore t 0x232 false 0
    | some n =>
      let v := t.read a
      if n.nkind != 0 || Nat.ble (2 ^ n.cnt) (v.toNat % 256) then s.endFault s.selCore t 0x232 false 0
      else s.pushAll t ((hitList v).reverse.map fun i => n.child i)

/-- The last resident entry is popped, and spilled ones come back (R359). -/
def State.refill (s : State) (core : Nat) (t : Thread) (d : TReg) (x : DWord) : State :=
  let k := min 8 t.spilled
  s.threadRead core t (.refill d x) (t.extVa + BitVec.ofNat 64 (128 + 8 * (t.spilled - k))) (8 * k) fun s bs =>
    let back := ((List.range k).map fun i => BitVec.ofNat 64 (fieldNat bs (8 * i) 8)).reverse
    s.setThread core ({ t with stack := back, spilled := t.spilled - k, stat := .ready }.write2 d x).next

/-- TPOP (R359, R375). -/
def execTpop (d : TReg) (off : BitVec 14) (s : State) : Out :=
  withThread s fun t => match t.stack with
    | [] => s.tjump t off
    | x :: rest =>
      let core := s.selCore
      if !rest.isEmpty || t.spilled == 0 then s.setThread core ({ t with stack := rest }.write2 d x).next
      else s.refill core t d x

/-- TDEPTH (R375). -/
def execTdepth (d : TReg) (s : State) : Out := tReg s fun t => .ok (t.write d (BitVec.ofNat 32 t.depth))

/-! ## Results -/

/-- The result words at a register (R376). -/
def Thread.result (t : Thread) (a : TReg) : List Word := (List.range 3).map fun i => t.read (a + BitVec.ofNat 4 i)

/-- EMIT (R376). -/
def execEmit (a : TReg) (s : State) : Out :=
  withThread s fun t => s.post s.selCore t ⟨0, t.result a, false⟩

/-- A record ends: the result words, STATUS 1, and an entry (R376). -/
def State.endRecord (s : State) (core : Nat) (t : Thread) (kind : Nat) (ws : List Word) : State :=
  match s.grant core .trav t.asid [⟨true, t.rva + 36, 12⟩, t.statusWant] with
  | (.error (w, r), s) => s.blocked core t (.done kind ws) w r
  | (.ok ps, s) =>
    let s := s.engineWrites core 5 (ps.getD 0 []) (bytesOf ws)
    let s := s.engineWrites core 5 (ps.getD 1 []) (bytesLE 4 1)
    s.post core t ⟨kind, ws, true⟩

/-- END: the result words, STATUS 1, and an entry (R376). -/
def endOp (kind : Nat) (a : TReg) (s : State) : Out :=
  withThread s fun t =>
    match t.kind with
    | .record => s.endRecord s.selCore t kind (t.result a)
    | _ => s.post s.selCore t ⟨kind, t.result a, true⟩

/-- END.DONE (R376). -/
def execEndDone (a : TReg) (s : State) : Out := endOp 4 a s
/-- END.MISS (R376). -/
def execEndMiss (a : TReg) (s : State) : Out := endOp 1 a s

/-- A record is suspended: its extension, STATUS 2, and an entry (R377). -/
def State.suspend (s : State) (core : Nat) (t : Thread) (sdr : Nat) (ws : List Word) : State :=
  match s.grant core .trav t.asid (t.extWants ++ [t.statusWant]) with
  | (.error (w, r), s) => s.blocked core t (.susp sdr ws) w r
  | (.ok ps, s) =>
    let s := s.writeExt core t (t.pc + 1) sdr ps
    let s := s.engineWrites core 5 (ps.getLast?.getD []) (bytesLE 4 2)
    s.post core t ⟨2, ws, true⟩

/-- SUSP (R377, R446). -/
def execSusp (d a b : TReg) (s : State) : Out :=
  withThread s fun t =>
    let core := s.selCore
    match t.kind with
    | .prefetch => s.dropThread core t.num
    | .handed _ _ => s.endFault core t 0x232 false 0
    | .record =>
      if t.ext == 0 then s.endFault core t 0x232 false 0
      else s.suspend core t (d.toNat + 16 * b.toNat) (t.result a)

/-- The remote node of a thread, if its decoded view is one: the peer and the root VA. -/
def Thread.remote (t : Thread) : Option (Nat × DWord) :=
  match t.node with
  | some n =>
    if n.nkind == 2 then some (n.at (n.field 176 16) 1, BitVec.ofNat 64 (n.at (n.field 176 16 + 8) 8)) else none
  | none => none

/-- The port can deliver a hand-off: the link is up and the interface has a version that both ports accept (R442). -/
def State.handUp (s : State) : Bool := s.linkUp && Nat.ble s.linkLo 1 && Nat.ble 1 s.linkHi

/-- A record and its extension, which carries the remote root VA in t8:t9, go to a peer (R378, R445). A hand-off that the
port cannot deliver, as to an id that no link reaches (R443), ends the record. -/
def State.handOver (s : State) (core : Nat) (t : Thread) (peer : Nat) (root : DWord) : State :=
  if !s.handUp || !s.reachable peer then s.endFault core (t.write2 8 root) 0x234 false 0
  else match s.grant core .trav t.asid (t.extWants ++ [⟨false, t.rva, 64⟩, ⟨false, t.extVa, 256⟩]) with
    | (.error (w, r), s) => s.blocked core t (.hand peer root) w r
    | (.ok ps, s) =>
      let s := s.writeExt core (t.write2 8 root) (t.pc + 1) 0 ps
      let (rb, s) := s.readPieces t.asid (ps.getD 2 [])
      let (eb, s) := s.readPieces t.asid (ps.getD 3 [])
      let pkt := rb ++ eb ++ bytesLE 8 t.rva.toNat ++ [BitVec.ofNat 8 s.peerId, BitVec.ofNat 8 core] ++
        bytesLE 2 t.asid ++ bytesLE 4 s.handSeq ++ List.replicate 16 0
      let h : HandOut :=
        { seq := s.handSeq, peer, core, asid := t.asid, rva := t.rva, payload := t.payload, cq := t.cq,
          thread := t.num, entries := t.seq, cmd := t.cmd, ext := t.ext }
      let s : State := { s with
        handOut := s.handOut ++ [h]
        handSeq := (s.handSeq + 1) % 2 ^ 32
        out := s.out ++ [.handPacket peer pkt] }
      s.dropThread core t.num

/-- THAND (R378, R446). -/
def execThand (s : State) : Out :=
  withThread s fun t =>
    let core := s.selCore
    match t.kind with
    | .prefetch => s.dropThread core t.num
    | .handed _ _ => s.endFault core t 0x232 false 0
    | .record =>
      match t.remote with
      | none => s.endFault core t 0x232 false 0
      | some (peer, root) =>
        if t.ext == 0 then s.endFault core t 0x232 false 0 else s.handOver core t peer root

/-- A traversal word that is not an instruction, or a word index beyond the program (R38, R366). -/
def execTraversalWordNotInstruction (_w : Word) (s : State) : Out :=
  withThread s fun t =>
    s.endFault s.selCore t (if Nat.ble t.words.length t.pc then 0x235 else t.bad.getD 0x001) false 0

end Sys2Proof.Machine
end

