-- ==== Sys2Proof/Machine/TravCmds.lean ====
section
/-! DEFINITION. The TRAV commands and PF.ARM (R210, R382 to R385), the start of threads (R211, R358, R361,
R384, R445), and the batches of completion queues (R380, R381). -/

namespace Sys2Proof.Machine

/-! ## Commands -/

/-- A TRAV command of a wave waits for its TRP (R245, R382); PF.DISARM has no descriptor. -/
def travCmd (fn : Nat) (sw : Bool) (d : Reg) (a : Option Reg) (b : Reg) (s : State) : Out :=
  xOp s sw ((a.toList.map fun r => (r, 2)) ++ [(b, 1)]) [(d, 1)] fun s w p =>
    let va : DWord := match a with
      | some r => w.readW2 r
      | none => 0
    let (x, s) := s.newCmd w p 0x3B fn d va (w.readW b) [] (s.ownGrps w)
    s.postCmd w sw x

/-- TR.LAUNCH (R383). -/
def execTrLaunch (sw : Bool) (d a b : Reg) (s : State) : Out := travCmd 0 sw d (some a) b s
/-- TR.RESUME (R384). -/
def execTrResume (sw : Bool) (d a b : Reg) (s : State) : Out := travCmd 1 sw d (some a) b s
/-- TR.CQCFG (R385). -/
def execTrCqcfg (sw : Bool) (d a b : Reg) (s : State) : Out := travCmd 2 sw d (some a) b s
/-- TR.DTAB (R385). -/
def execTrDtab (sw : Bool) (d a b : Reg) (s : State) : Out := travCmd 4 sw d (some a) b s
/-- TR.PROG (R385). -/
def execTrProg (sw : Bool) (d a b : Reg) (s : State) : Out := travCmd 5 sw d (some a) b s
/-- PF.ARM (R210). -/
def execPfArm (sw : Bool) (d a b : Reg) (s : State) : Out := travCmd 8 sw d (some a) b s
/-- PF.DISARM (R385). -/
def execPfDisarm (sw : Bool) (d b : Reg) (s : State) : Out := travCmd 9 sw d none b s

/-- A command reads its descriptor and then acts (R382). -/
def State.withDesc (s : State) (x : Cmd) (len : Nat) (f : State → List Byte → State) : State :=
  if s.cmdBehind x x.wa then s
  else match s.settleNeeds x.core x.needs with
    | (false, s) => s
    | (true, s) => match s.cmdRead x x.wa len with
      | (.error t, _) => t
      | (.ok b, s) => f s b

/-- A change to the TRP of a core. -/
def State.modTrp (s : State) (core : Nat) (f : Trp → Trp) : State := s.modCore core fun c => { c with trp := f c.trp }

/-- A request for a thread. -/
def Cmd.treq (x : Cmd) (va : DWord) (queue : Option Nat) (resume : Option Word) : TReq :=
  { va, asid := x.asid, gslot := x.gslot, slot := x.slot, lid := x.lid, cmd := x.id, queue, resume, hand := none,
    needs := x.needs }

/-- TR.LAUNCH acts (R383). -/
def State.runTrLaunch (s : State) (x : Cmd) : State :=
  if x.wa.toNat % 64 != 0 || bitsAt x.wb 20 12 != 0 then s.endCmd x (failWord 0x236)
  else
    let n := bitsAt x.wb 0 16
    let q := if bitsAt x.wb 19 1 == 1 then some (bitsAt x.wb 16 3) else none
    (s.modTrp x.core fun t => { t with
      queue := t.queue ++ (List.range n).map fun i => x.treq (x.wa + BitVec.ofNat 64 (64 * i)) q none }).endCmd x
        (BitVec.ofNat 32 n)

/-- TR.RESUME acts: the thread that starts gives the reply (R384). -/
def State.runTrResume (s : State) (x : Cmd) : State :=
  if x.wa.toNat % 64 != 0 then s.endCmd x (failWord 0x236)
  else (s.modTrp x.core fun t => { t with queue := t.queue ++ [x.treq x.wa none (some x.wb)] }).dropCmd x.id

/-- A queue descriptor that TR.CQCFG refuses (R385). -/
def cqDescBad (b : List Byte) : Bool :=
  let mode := fieldNat b 9 1
  let logn := fieldNat b 8 1
  Nat.blt 2 mode || Nat.blt 15 (fieldNat b 10 1) || fieldNat b 11 5 != 0 || fieldNat b 24 8 != 0 ||
  (mode != 2 && (fieldNat b 0 8 % 256 != 0 || Nat.blt logn 5 || Nat.blt 16 logn))

/-- TR.CQCFG acts (R385): it waits while a repacking queue holds unbatched entries. -/
def State.runTrCqcfg (s : State) (x : Cmd) : State :=
  let num := bitsAt x.wb 0 3
  let cur := (s.core x.core).cqs.find? fun q => q.num == num
  let other := match cur with
    | some q => q.asid != x.asid
    | none => false
  let busy := match cur with
    | some q => q.mode == 1 && !q.waiting.isEmpty
    | none => false
  if x.wa.toNat % 32 != 0 || bitsAt x.wb 3 29 != 0 || other then s.endCmd x (failWord 0x236)
  else if busy then s
  else s.withDesc x 32 fun s b =>
    if cqDescBad b then s.endCmd x (failWord 0x236)
    else
      let q : CQ :=
        { num, asid := x.asid, base := BitVec.ofNat 64 (fieldNat b 0 8), logn := fieldNat b 8 1,
          mode := fieldNat b 9 1, cls := fieldNat b 10 1, desc := x.wa, prod := fieldNat b 16 4,
          cons := fieldNat b 20 4 }
      (s.modCore x.core fun c =>
        { c with
          cqs := (c.cqs.filter fun y => y.num != num) ++ (if q.mode == 2 then [] else [q]) }).endCmd x 0

/-- A decode table that TR.DTAB refuses (R364, R385). -/
def dtabBad (b : BitVec 256) : Bool :=
  let f := tabField b
  let keyw := f 112 2
  f 0 2 == 3 || f 24 2 == 3 || f 64 2 == 3 || keyw == 3 ||
  (keyw == 1 && Nat.ble 4 (f 115 3)) || Nat.blt 62 (f 8 6) || Nat.blt 60 (f 16 6) ||
  f 2 6 != 0 || f 14 2 != 0 || f 22 2 != 0 || f 26 6 != 0 || f 66 14 != 0 || f 118 10 != 0 || f 192 64 != 0

/-- TR.DTAB acts (R385). -/
def State.runTrDtab (s : State) (x : Cmd) : State :=
  if x.wa.toNat % 32 != 0 || bitsAt x.wb 4 28 != 0 then s.endCmd x (failWord 0x236)
  else s.withDesc x 32 fun s b =>
    let bits : BitVec 256 := BitVec.ofNat 256 (leNat b)
    let id := bitsAt x.wb 0 4
    if dtabBad bits then s.endCmd x (failWord 0x236)
    else (s.modTrp x.core fun t => { t with
      tables := ⟨x.asid, id, bits⟩ :: t.tables.filter fun d => !(d.asid == x.asid && d.id == id) }).endCmd x 0

/-- TR.PROG acts (R385). -/
def State.runTrProg (s : State) (x : Cmd) : State :=
  let len := bitsAt x.wb 8 13
  let index := bitsAt x.wb 0 6
  if x.wa.toNat % 4 != 0 || bitsAt x.wb 6 2 != 0 || bitsAt x.wb 21 11 != 0 || len == 0 || Nat.blt 4096 len then
    s.endCmd x (failWord 0x236)
  else s.withDesc x (4 * len) fun s b =>
    let rest := (s.core x.core).trp.progs.filter fun p => !(p.asid == x.asid && p.index == index)
    let used := (rest.map fun p => p.words.length).foldl (· + ·) 0
    if Nat.blt 16384 (used + len) then s.endCmd x (failWord 0x235)
    else (s.modTrp x.core fun t => { t with progs := ⟨x.asid, index, wordsOf len b⟩ :: rest }).endCmd x 0

/-- PF.ARM acts (R210). -/
def State.runPfArm (s : State) (x : Cmd) : State :=
  if x.wb != 0 then s.endCmd x (failWord 0x236)
  else if x.wa.toNat % 32 != 0 then s.endCmd x 0xFFFFFFFE
  else s.withDesc x 32 fun s b =>
    let lo := fieldNat b 0 8
    let hi := fieldNat b 8 8
    let arms := (s.core x.core).trp.arms
    if lo % 32 != 0 || hi % 32 != 0 || Nat.ble hi lo || fieldNat b 18 2 != 0 then s.endCmd x 0xFFFFFFFE
    else match (List.range 4).find? fun k => !arms.any fun a => a.num == k with
      | none => s.endCmd x 0xFFFFFFFF
      | some num =>
        let a : Arm :=
          { num, asid := x.asid, gslot := x.gslot, lo := BitVec.ofNat 64 lo, hi := BitVec.ofNat 64 hi,
            prog := fieldNat b 16 2, user := BitVec.ofNat 32 (fieldNat b 20 4),
            target := BitVec.ofNat 64 (fieldNat b 24 8) }
        (s.modTrp x.core fun t => { t with arms := t.arms ++ [a] }).endCmd x (BitVec.ofNat 32 num)

/-- PF.DISARM acts (R385). -/
def State.runPfDisarm (s : State) (x : Cmd) : State :=
  let num := bitsAt x.wb 0 2
  let mine (a : Arm) : Bool := a.num == num && a.asid == x.asid
  if bitsAt x.wb 2 30 != 0 then s.endCmd x (failWord 0x236)
  else if (s.core x.core).trp.arms.any mine then
    (s.modTrp x.core fun t => { t with arms := t.arms.filter fun a => !mine a }).endCmd x 0
  else s.endCmd x 0xFFFFFFFF

/-- A TRAV command acts (R382). -/
def State.runTrav (s : State) (x : Cmd) : State :=
  match x.fn with
  | 0 => s.runTrLaunch x
  | 1 => s.runTrResume x
  | 2 => s.runTrCqcfg x
  | 4 => s.runTrDtab x
  | 5 => s.runTrProg x
  | 8 => s.runPfArm x
  | _ => s.runPfDisarm x

/-! ## Starting threads -/

/-- Gather and scatter copies of a core, which use thread contexts (R357). -/
def Core.gathers (c : Core) : Nat := (c.copies.filter fun x => x.fn == 8 || x.fn == 9).length

/-- The lowest free thread context (R357): one whose fault record is free too. -/
def Core.freeThread (c : Core) : Option Nat :=
  if Nat.ble 64 (c.trp.threads.length + c.gathers) then none
  else (List.range 64).find? fun k =>
    !(c.trp.threads.any fun t => t.num == k) && !c.recs.any fun r => r.src == 2 && r.idx == k

/-- A thread context that a request takes, before its record is read. -/
def TReq.thread (r : TReq) (core num : Nat) : Thread :=
  { num, kind := .record, core, asid := r.asid, gslot := r.gslot, lid := r.lid, cmd := r.cmd, rva := r.va, t := [],
    pc := 0, words := [], payload := 0, tag := 0, cq := 0, ext := 0, dtab := 0, prog := 0, slot := r.slot,
    stat := .held .start, start := some r }

/-- A program of a context (R385). -/
def State.prog? (s : State) (core asid index : Nat) : Option (List Word) :=
  ((s.core core).trp.progs.find? fun p => p.asid == asid && p.index == index).map fun p => p.words

/-- Registers as a table. -/
def tregs (ws : List Word) : Tab Word := Tab.putAll 0 [] (ws.zipIdx.map fun e => (e.2, e.1))

/-- A thread of a record, with the fields that every start reads (Table 16-1). -/
def Thread.ofRecord (t : Thread) (b : List Byte) (cq : Nat) (words : List Word) : Thread :=
  { t with
    payload := BitVec.ofNat 64 (fieldNat b 48 8), tag := BitVec.ofNat 24 (fieldNat b 13 3), cq,
    ext := fieldNat b 56 4, dtab := fieldNat b 10 1, prog := fieldNat b 8 2, words }

/-- The checks at the start of a record fail, but for STATUS (Table 16-1). -/
def State.recordBad (s : State) (core : Nat) (r : TReq) (b : List Byte) (cq : Nat) : Bool :=
  (s.prog? core r.asid (fieldNat b 8 2)).isNone || Nat.blt 15 (fieldNat b 10 1) || fieldNat b 11 1 != 0 ||
  (r.queue.isNone && Nat.ble 8 (fieldNat b 12 1)) || (s.cq? core r.asid cq).isNone || fieldNat b 56 4 % 64 != 0

/-- A record thread starts (R358, R361). -/
def State.startRecord (s : State) (core : Nat) (t : Thread) (r : TReq) (b : List Byte) : State :=
  let cq := match r.queue with
    | some q => q
    | none => fieldNat b 12 1 % 8
  if s.recordBad core r b cq || fieldNat b 60 4 != 0 then
    let t := { t with cq, payload := BitVec.ofNat 64 (fieldNat b 48 8) }
    if (s.cq? core r.asid cq).isSome then s.endFault core t 0x233 false 0
    else (s.reportThread core t 0x233 false t.rva).dropThread core t.num
  else
    let ws := wordsOf 8 (b.drop 16) ++ wordsOf 2 b ++ wordsOf 2 (b.drop 48)
    let t := t.ofRecord b cq ((s.prog? core r.asid (fieldNat b 8 2)).getD [])
    let s : State := { s with seqs := s.seqs.filter fun e => !(e.1 == r.asid && e.2.1 == r.va) }
    s.setThread core { t with t := tregs ws, stat := .ready, start := none }

/-- A thread with the registers, the PC and the stack of an extension (Table 16-2); at most `top` entries
are resident. -/
def Thread.reload (t : Thread) (e : List Byte) (top : Nat) : Thread :=
  let depth := min 16 (fieldNat e 68 1)
  let spilled := depth - top
  { t with
    t := tregs (wordsOf 16 e), pc := fieldNat e 64 4, spilled
    stack := ((List.range (depth - spilled)).map fun i => BitVec.ofNat 64 (fieldNat e (128 + 8 * (spilled + i)) 8)).reverse }

/-- A thread goes on from its extension (R384, R389): a resumed one with the new interval end `x`, which shortens the
register that SUSP named, and its command has its reply. -/
def State.goOn (s : State) (core : Nat) (t : Thread) (x : Option Word) (e : List Byte) : State :=
  let go (t : Thread) : Thread := { t with stat := .ready, start := none, seq := s.seqOf t.asid t.rva }
  match x with
  | none => s.setThread core (match t.kind with
      | .handed _ _ => { t with stat := .ready, start := none }
      | _ => go t)
  | some x =>
    let d : TReg := BitVec.ofNat 4 (fieldNat e 69 1)
    let rb : TReg := BitVec.ofNat 4 (fieldNat e 69 1 / 16)
    let less := tcond .flt x (t.read rb)
    let t := if less then t.write rb x else t
    let t := t.write d (if less then 1 else 0)
    (s.setThread core (go t)).replyAll t.cmd 0

/-- The saved node of an extension is fetched and decoded again, and the thread goes on, or ends with a cause (R384). -/
def State.renode (s : State) (core : Nat) (t : Thread) (x : Option Word) (e : List Byte) : State :=
  let id := fieldNat e 70 1
  let fail (s : State) (t : Thread) (c : Cause) : State := (s.replyAll t.cmd 0).endFault core t c false 0
  if id == 0xFF then s.goOn core t x e
  else match s.dtab? core t.asid id with
    | none => fail s t 0x233
    | some d =>
      let va : DWord := BitVec.ofNat 64 (fieldNat e 72 8)
      s.threadRead core t (.renode x e) va (tabSize d.bits) fun s bs =>
        let n : Node := { va, bytes := bs, tab := d.bits, id }
        if n.bad then fail s t 0x231 else s.goOn core { t with node := some n } x e

/-- The registers, the PC and the stack come back from the extension (R384, R389). -/
def State.readExt (s : State) (core : Nat) (t : Thread) (x : Option Word) : State :=
  s.threadRead core t (.ext x) t.extVa 256 fun s e => s.renode core (t.reload e 8) x e

/-- STATUS of a record that is resumed becomes 0, before anything else (R384). -/
def State.clearStatus (s : State) (core : Nat) (t : Thread) (x : Word) : State :=
  match s.grant core .trav t.asid [t.statusWant] with
  | (.error (w, r), s) => s.blocked core t (.status x) w r
  | (.ok ps, s) => (s.engineWrites core 5 ps.flatten (bytesLE 4 0)).readExt core t (some x)

/-- Another thread of a record, on any core. -/
def State.otherThread (s : State) (core num asid : Nat) (va : DWord) (f : Thread → Bool) : Bool :=
  s.cores.any fun e => e.2.trp.threads.any fun t =>
    t.asid == asid && t.rva == va && !(e.1 == core && t.num == num) && f t

/-- A resumption of the record is under way that has yet to make STATUS 0 (R390). -/
def Thread.resuming (t : Thread) : Bool :=
  match t.stat with
  | .held (.status _) => true
  | _ => false

/-- A suspended record goes on (R384): `x` is the new interval end. -/
def State.startResume (s : State) (core : Nat) (t : Thread) (r : TReq) (x : Word) (b : List Byte) : State :=
  let cq := fieldNat b 12 1 % 8
  if r.began then s.readExt core (t.ofRecord b cq r.words) (some x)
  else if fieldNat b 60 4 != 2 || fieldNat b 56 4 == 0 || s.recordBad core r b cq ||
      s.otherThread core t.num r.asid r.va Thread.resuming then
    (s.dropThread core t.num).replyAll r.cmd (failWord 0x233)
  else s.clearStatus core (t.ofRecord b cq ((s.prog? core r.asid (fieldNat b 8 2)).getD [])) x

/-- A thread that a pre-emption saved goes on from its extension, under the words that it had (R385, R389). -/
def State.startAgain (s : State) (core : Nat) (t : Thread) (r : TReq) (b : List Byte) : State :=
  s.readExt core (t.ofRecord b (r.queue.getD 0) r.words) none

/-- A thread handed off by a peer starts (R445): its record and its extension come in the packet. -/
def State.startHanded (s : State) (core : Nat) (t : Thread) (r : TReq) (pkt : List Byte) (peer seq : Nat) : State :=
  let b := pkt.take 64
  let e := (pkt.drop 64).take 256
  let t := t.ofRecord b (fieldNat b 12 1 % 8) ((s.prog? core r.asid (fieldNat b 8 2)).getD [])
  s.renode core (({ t with kind := .handed seq peer }).reload e 16) none e

/-- A thread context starts, or its record is read at a replay (R358, R384, R389, R445). -/
def State.startThread (s : State) (core : Nat) (t : Thread) (r : TReq) : State :=
  match r.hand with
  | some (pkt, peer, seq) => s.startHanded core t r pkt peer seq
  | none => s.threadRead core t .start r.va 64 fun s b =>
    match r.resume with
    | some x => s.startResume core t r x b
    | none => if r.cont then s.startAgain core t r b else s.startRecord core t r b

/-- A resumption waits for the entry of the suspension to be posted, and for an earlier one of the record that still reads
it (R380, R390). -/
def Thread.before (t : Thread) : Bool :=
  match t.stat with
  | .posting p => p.kind == 2
  | .held .start => match t.start with
    | some r => r.resume.isSome
    | none => false
  | _ => false

/-- A wave waits for the reply of a command of a context that is not being terminated. -/
def State.awaited (s : State) (asid cmd : Nat) : Bool :=
  (match s.ctx? asid with
    | some c => c.killed.isNone
    | none => false) && s.waves.any fun w => w.pend.any fun p => p.src == .reply cmd

/-- A record may take a thread of a TRP: its context runs there, or a wave that is to be saved waits for its reply (R177,
R384). -/
def State.mayStart (s : State) (core : Nat) (r : TReq) : Bool :=
  (s.runsOn r.asid core || (r.resume.isSome && s.awaited r.asid r.cmd)) && Nat.blt r.gslot 65536 &&
    !(r.resume.isSome && s.otherThread core 64 r.asid r.va Thread.before)

/-- TRP_THREAD_START: the next record of a running context takes a free thread (R358, R383). -/
def execTrpThreadStart (core : Nat) (s : State) : Out :=
  let c := s.core core
  match c.freeThread, c.trp.queue.find? (s.mayStart core) with
  | some num, some r =>
    match s.settleNeeds core r.needs with
    | (false, s) => .next s
    | (true, s) =>
      let t := r.thread core num
      .next ((s.modTrp core fun x => { x with queue := x.queue.erase r, threads := x.threads ++ [t] }).startThread core t r)
  | _, _ => .next s

/-- PREFETCH_THREAD_START: a trigger starts a prefetch kernel when a thread is free; else it is dropped
(R211). -/
def execPrefetchThreadStart (core k : Nat) (s : State) : Out :=
  match (s.core core).trp.triggers[k]? with
  | none => .next s
  | some g =>
    let a := g.arm
    let s := s.modTrp core fun x => { x with triggers := x.triggers.eraseIdx k }
    match (s.core core).freeThread, s.prog? core a.asid a.prog with
    | some num, some words =>
      let ws := (g.words ++ List.replicate 8 0).take 8 ++
        [g.va.setWidth 32, g.va.extractLsb' 32 32, a.target.setWidth 32, a.target.extractLsb' 32 32, a.user]
      let t : Thread :=
        { num, kind := .prefetch, core, asid := a.asid, gslot := a.gslot, lid := 0, cmd := 0, rva := 0, t := tregs ws,
          pc := 0, words, payload := 0, tag := 0, cq := 0, ext := 0, dtab := 0, prog := a.prog }
      .next (s.modTrp core fun x => { x with threads := x.threads ++ [t] })
    | _, _ => .next s

/-! ## Completion queues -/

/-- CQ_POST_RESUME: a thread that waits to post tries again, unless an access of it is held (R380). -/
def execCqPostResume (core thread : Nat) (s : State) : Out :=
  match (s.core core).trp.threads.find? fun t => t.num == thread with
  | none => .next s
  | some t => match t.stat with
    | .posting p => .next (if (s.rec? core 2 t.num).isSome then s else s.post core t p)
    | _ => .next s

/-- A batch of the oldest unbatched entries of a queue (R381). -/
def State.formBatch (s : State) (core : Nat) (q : CQ) (n : Nat) (timeout : Bool) : State :=
  let (seq, s) := s.fresh
  let b : Batch :=
    { queue := q.num, asid := q.asid, cls := q.cls, n, timeout, entries := (q.waiting.take n).map fun e => e.2, seq }
  (s.setCq core { q with waiting := q.waiting.drop n }).modCore core fun c => { c with batches := c.batches ++ [b] }

/-- A repacking queue of a running context. -/
def State.repacks (s : State) (core q : Nat) : Option CQ :=
  (s.core core).cqs.find? fun x => x.num == q && x.mode == 1 && s.runsOn x.asid core

/-- CQ_BATCH_FORM: 32 entries wait (R381). -/
def execCqBatchForm (core q : Nat) (s : State) : Out :=
  match s.repacks core q with
  | some x => .next (if Nat.ble 32 x.waiting.length then s.formBatch core x 32 false else s)
  | none => .next s

/-- CQ_BATCH_TIMEOUT: 512 cycles have passed since the oldest entry was posted (R381). -/
def execCqBatchTimeout (core q : Nat) (s : State) : Out :=
  match s.repacks core q with
  | some x => match x.waiting with
    | [] => .next s
    | e :: _ => .next (if Nat.ble (e.1 + 512) s.clock then s.formBatch core x (min 32 x.waiting.length) true else s)
  | none => .next s

/-- CONS of a repacking queue stands in its descriptor (R381). -/
def State.putCons (s : State) (core : Nat) (t : Thread) (va : DWord) (v : Nat) : State :=
  match s.grant core .trav t.asid [⟨true, va, 4⟩] with
  | (.error (w, .miss k), s) => s.holdThread core { t with stat := .held (.cons va v) } w k
  | (.error (w, .viol c), s) => s.failHold core t (.cons va v) c w.va
  | (.error _, s) => s.dropThread core t.num
  | (.ok ps, s) => (s.engineWrites core 5 ps.flatten (bytesLE 4 v)).dropThread core t.num

/-- CONS of a repacking queue advances when the wave of a batch starts (R381). The write has a thread context of the TRP for
its record; where none is free, and the TRP has no translation, it takes that of the default tables (R263; log entry 29). -/
def State.advanceCons (s : State) (core : Nat) (b : Batch) : State :=
  match s.cq? core b.asid b.queue with
  | none => s
  | some q =>
    let cons := (q.cons + b.n) % 2 ^ 32
    let va := q.desc + 20
    let s := s.setCq core { q with cons }
    match (s.core core).freeThread with
    | some num =>
      let t : Thread :=
        { num, kind := .prefetch, core, asid := b.asid, gslot := 0xFF, lid := 0, cmd := 0, rva := va, t := [], pc := 0
          words := [], payload := 0, tag := 0, cq := b.queue, ext := 0, dtab := 0, prog := 0, slot := 0xFF
          stat := .held (.cons va cons) }
      (s.modTrp core fun x => { x with threads := x.threads ++ [t] }).putCons core t va cons
    | none => match s.grant core .trav b.asid [⟨true, va, 4⟩] with
      | (.ok ps, s) => s.engineWrites core 5 ps.flatten (bytesLE 4 cons)
      | (.error _, s) => match s.walkTo b.asid 3 va with
        | some pa => s.engineWrite core 5 pa (bytesLE 4 cons)
        | none => s

/-! ## Replays -/

/-- A thread does what it waited for, with the operands that it kept (R266, R387, R403). -/
def State.replayThread (s : State) (core : Nat) (t : Thread) (h : THold) : State :=
  match h with
  | .node va bits id => s.fetchNode core t va bits id
  | .word d va => s.fetchLd core t d va
  | .chunk n va => s.fetchChunk core t n va
  | .dist dot d n va => s.fetchDist core t dot d n va
  | .push stack more => s.spill core t stack more
  | .refill d x => s.refill core t d x
  | .done kind ws => s.endRecord core t kind ws
  | .susp sdr ws => s.suspend core t sdr ws
  | .hand peer root => s.handOver core t peer root
  | .fault c frozen va posts =>
    if posts then s.endFault core t c frozen va
    else s.endWith core t c frozen va false fun s => s.dropThread core t.num
  | .start => match t.start with
    | some r => s.startThread core t r
    | none => s
  | .status x => s.clearStatus core t x
  | .ext x => s.readExt core t x
  | .renode x e => s.renode core t x e
  | .cons va v => s.putCons core t va v

end Sys2Proof.Machine
end

