-- ==== Sys2Proof/Machine/Handlers.lean ====
section
/-! DEFINITION. Handler waves (R169, R275, R298, R381), the release of a group's resources (R144, R168)
and the completion of launches (R162). -/

namespace Sys2Proof.Machine

/-! ## Events -/

/-- An event that may start a handler wave: a queued message, a capsule in a slot, or a batch. -/
inductive Ev where
  | msg (m : Msg)
  | caps (k : Nat) (x : CSlot)
  | batch (b : Batch)
  deriving DecidableEq, Repr

def Ev.cls (e : Ev) : Nat :=
  match e with
  | .msg m => m.cls
  | .caps _ x => x.cls
  | .batch b => b.cls

/-- The order of arrival. -/
def Ev.arr (e : Ev) : Nat :=
  match e with
  | .msg m => m.arr
  | .caps _ x => x.seq
  | .batch b => b.seq

/-- The oldest queued message of each class of a context (R284). -/
def oldestMsgs (q : List Msg) (asid : Nat) : List Msg :=
  (List.range 16).filterMap fun c => q.find? fun m => m.asid == asid && m.cls == c

/-- A class of a context is enabled, and its entry names a group (R169). -/
def State.startsIn (s : State) (g : Group) (cls : Nat) : Bool :=
  match s.handler? g.core g.asid cls with
  | some e => e.en && e.hgroup == g.gslot
  | none => false

/-- The priority of a class of a context on a core. -/
def State.classPrio (s : State) (core asid cls : Nat) : BitVec 2 :=
  match s.handler? core asid cls with
  | some e => e.prio
  | none => 0

/-- The events that wait for a slot of a handler group. -/
def State.events (s : State) (g : Group) : List Ev :=
  let c := s.core g.core
  let ms := (oldestMsgs c.inq g.asid).map Ev.msg
  let cs := g.caps.filterMap fun e => match e.2 with
    | some x => if x.owner.isNone && x.out.isNone then some (Ev.caps e.1 x) else none
    | none => none
  let bs := (c.batches.filter fun b => b.asid == g.asid).map Ev.batch
  (ms ++ cs ++ bs).filter fun e => s.startsIn g e.cls

/-- Event `a` goes before event `b`: the higher priority, the lower class, the earlier arrival (R169). -/
def State.evBefore (s : State) (g : Group) (a b : Ev) : Bool :=
  let p (e : Ev) : Nat := (s.classPrio g.core g.asid e.cls).toNat
  if p a != p b then Nat.blt (p b) (p a)
  else if a.cls != b.cls then Nat.blt a.cls b.cls
  else Nat.blt a.arr b.arr

/-- The event that a handler group takes. -/
def State.firstEv (s : State) (g : Group) : List Ev → Option Ev
  | [] => none
  | a :: t => match State.firstEv s g t with
    | none => some a
    | some b => some (if s.evBefore g b a then b else a)

/-! ## Starts -/

/-- Payload words of a long message over the lanes, as far as the registers of the wave go (R275). -/
def longRegs (blocks : Nat) (payload : List Byte) : List (Nat × Word) :=
  let ws := wordsOf (payload.length / 4) payload
  (ws.zipIdx.filter fun e => Nat.blt (8 + e.2 / 32) (8 * blocks)).map fun e => (32 * (8 + e.2 / 32) + e.2 % 32, e.1)

/-- A payload word falls beyond the registers of the wave. -/
def longTrunc (blocks : Nat) (payload : List Byte) : Bool :=
  Nat.blt (8 * blocks) (8 + (payload.length / 4 + 31) / 32)

/-- The g and w registers of a handler wave for a message (R275). -/
def msgRegs (m : Msg) (blocks : Nat) (args : DWord) : List (Nat × Word) × List (Nat × Word) :=
  let tr := m.long && longTrunc blocks m.payload
  let info := m.src + 256 * m.cls + (if m.long then 4096 else 0) + (if tr then 8192 else 0) + 65536 * m.payload.length
  let ws := [(1, BitVec.ofNat 32 info)] ++ wpair 2 args
  if m.long then (longRegs blocks m.payload, ws)
  else ([], ws ++ (wordsOf 16 m.payload).zipIdx.map fun e => (16 + e.2, e.1))

/-- The w registers of a handler wave for a capsule (Table 13-3); `stop` is stop INDEX of the slot. -/
def capsRegs (g : Group) (k : Nat) (x : CSlot) (stop : DWord) (args : DWord) : List (Nat × Word) :=
  let done := Nat.ble x.count x.index
  let info := k + 16 * x.index + 256 * x.count + 4096 * x.cls + 65536 * x.len +
    (if x.flags.getLsbD 2 then 2 ^ 21 else 0)
  [(1, BitVec.ofNat 32 info)] ++ wpair 2 x.id ++
  [(4, if done then 0 else BitVec.ofNat 32 (stop.toNat / 2 ^ 16 % 2 ^ 16)),
   (5, if done then 0 else stop.extractLsb' 32 32),
   (6, BitVec.ofNat 32 (g.slotBase k)), (7, BitVec.ofNat 32 x.origin), (8, BitVec.ofNat 32 x.flags.toNat)] ++
  wpair 10 args

/-- The g registers of a handler wave for a batch (R381). -/
def batchG (b : Batch) : List (Nat × Word) :=
  (b.entries.zipIdx.map fun e => (e.1.take 8).zipIdx.map fun x => (32 * (4 + x.2) + e.2, x.1)).flatten

/-- The w registers of a handler wave for a batch (R381). -/
def batchW (b : Batch) (args : DWord) : List (Nat × Word) :=
  [(1, BitVec.ofNat 32 (b.n + 64 * b.queue + 4096 * b.cls + (if b.timeout then 65536 else 0)))] ++ wpair 2 args

/-- The lowest free slot of a handler group, with its index (R169). -/
def State.handlerSlot (s : State) (g : Group) : Option (Nat × Nat) :=
  (g.slots.zipIdx.find? fun e => s.slotFree g.core e.1).map fun e => (e.1, e.2)

/-- A handler wave starts for an event; the start is an acquire at device scope (R243, R288). -/
def State.startHandler (s : State) (g : Group) (h : HEntry) (slot idx : Nat) (e : Ev) : State :=
  let args : DWord := match s.launch? g.lid with
    | some l => l.recd.args
    | none => 0
  let s := s.l1Clear g.core
  let wave (m : Lanes) (ws : List (Nat × Word)) : Wave :=
    newWave g.core slot g.gslot idx .handler m h.pc h.prio g.fpcr (wregs ws)
  match e with
  | .msg m =>
    let (gs, ws) := msgRegs m g.blocks args
    let s := s.modCore g.core fun c => { c with inq := c.inq.erase m }
    s.startWave { wave (BitVec.allOnes 32) ws with g := Tab.putAll 0 [] gs }
  | .caps k x =>
    let stop : DWord := BitVec.ofNat 64 (leNat (g.loc.read (g.slotBase k + 64 + 8 * x.index) 8))
    let s := s.setSlot g k (some { x with owner := some slot })
    s.startWave (wave (BitVec.allOnes 32) (capsRegs g k x stop args))
  | .batch b =>
    let s := s.modCore g.core fun c => { c with batches := c.batches.erase b }
    (s.advanceCons g.core b).startWave
      { wave (maskOf fun l => Nat.blt l b.n) (batchW b args) with g := Tab.putAll 0 [] (batchG b) }

/-- The instructions of ended waves of a handler group that have accesses outstanding: a start follows them (R432). -/
def State.endedGrps (s : State) (g : Group) : List Nat :=
  s.grpsOf g.core fun k => g.slots.any (fun i => i == k) && match s.wave? g.core k with
    | some w => w.live == 0
    | none => true

/-- HANDLER_WAVE_START (R169). -/
def execHandlerWaveStart (core gslot : Nat) (s : State) : Out :=
  match s.group? core gslot with
  | none => .next s
  | some g =>
    if g.hgd.isNone || !s.runsOn g.asid core then .next s
    else match s.settleNeeds core (s.endedGrps g) with
      | (false, s) => .next s
      | (true, s) => match s.handlerSlot g, s.firstEv g (s.events g) with
        | some (slot, idx), some e => match s.handler? core g.asid e.cls with
          | some h => .next (s.startHandler g h slot idx e)
          | none => .next s
        | _, _ => .next s

/-! ## Release -/

/-- The prefetch arms of a group slot are disarmed (R210). -/
def State.dropArms (s : State) (core gslot : Nat) : State :=
  s.modTrp core fun t => { t with arms := t.arms.filter fun a => a.gslot != gslot }

/-- The resources of a group are free (R144, R168). -/
def State.freeGroup (s : State) (g : Group) : State :=
  ((s.releaseFctx g.core g.gslot).dropArms g.core g.gslot).removeGroup g

/-- GROUP_RESOURCE_RELEASE (R144, R168). -/
def execGroupResourceRelease (core gslot : Nat) (s : State) : Out :=
  match s.group? core gslot with
  | some g => .next (if g.ended && s.groupIdle g then s.freeGroup g else s)
  | none => .next s

/-! ## Completion -/

/-- No group of a launch stands on a core or is saved, but for idle handler groups without a live wave. -/
def State.groupsDone (s : State) (lid : Nat) : Bool :=
  (s.groups.all fun g => g.lid != lid || (g.hgd.isSome && s.groupIdle g)) &&
  !(s.saved.any fun v => v.groups.any fun g => g.lid == lid) &&
  !(s.waves.any fun w => !isService w.core && s.lidOf w == lid && w.live != 0)

/-- Every access that a launch made has been performed: its copies, threads, commands and matrix commands have
ended (R162). -/
def State.accessesDone (s : State) (lid : Nat) : Bool :=
  (s.cores.all fun e =>
    !(e.2.copies.any fun x => x.lid == lid) && !(e.2.trp.threads.any fun t => t.kind != .prefetch && t.lid == lid) &&
    !(e.2.trp.queue.any fun t => t.lid == lid)) &&
  (s.clusters.all fun e => e.2.fctx.all fun f => f.inbox.all fun m => m.lid != lid) &&
  !(s.cmds.any fun x => x.lid == lid) && !(s.sends.any fun x => x.lid == lid)

/-- Slots by the order in which their capsules arrived. -/
def slotInsert (a : Nat × CSlot) : List (Nat × CSlot) → List (Nat × CSlot)
  | [] => [a]
  | b :: t => if Nat.blt a.2.seq b.2.seq then a :: b :: t else b :: slotInsert a t

/-- The occupied slots of a group, the capsule that arrived first before the others. -/
def Group.inOrder (g : Group) : List (Nat × CSlot) :=
  g.caps.foldl (fun l e => match e.2 with
    | some x => slotInsert (e.1, x) l
    | none => l) []

/-- Capsules that wait in slots of a handler group that is released are decided again at their core, and after them those
of their classes that wait there already, so that they keep their order (R296, R306; log entry 43). -/
def State.evictCaps (s : State) (g : Group) : State :=
  let mine := g.inOrder.map fun e => g.capsAt e.1 e.2
  let later := (s.core g.core).waiting.filter fun c => c.asid == g.asid && mine.any fun x => x.cls == c.cls
  let s := later.foldl (fun (s : State) c => s.modCore g.core fun k => k.unwait c) s
  (mine ++ later).foldl (fun s c => s.decideCaps g.core c none) s

/-- A handler group is released: its entries are cleared (R162, R274). -/
def State.freeHandler (s : State) (g : Group) : State :=
  let s := s.unbindGroup g
  let s := match s.group? g.core g.gslot with
    | some h => (s.setGroup { h with caps := [] }).evictCaps h
    | none => s
  s.freeGroup g

/-- Deque entries of a launch, and those on their way, are discarded (R162). -/
def State.dropTasks (s : State) (lid : Nat) : State :=
  { s with
    cores := Tab.update {} (fun c => { c with deque := c.deque.filter fun t => t.lid != lid }) s.cores
    net := s.net.map fun p => match p.body with
      | .ship ts => { p with body := .ship (ts.filter fun t => t.lid != lid) }
      | _ => p }

/-- A launch is complete: its handler groups are released, its deque entries discarded, and DONE written with a
status (R162). -/
def State.completeLaunch (s : State) (l : Launch) (status : Nat) : State :=
  let s := (s.groups.filter fun g => g.lid == l.lid).foldl (fun s g => s.freeHandler g) s
  let s := s.dropTasks l.lid
  let s := s.writeDone l.recd.asid l.lid l.recd.done status
  { s with
    dleft := Tab.put 0 s.dleft l.lid 0
    launches := s.launches.filter fun k => k.lid != l.lid }

/-- LAUNCH_COMPLETION (R162). -/
def execLaunchCompletion (lid : Nat) (s : State) : Out :=
  match s.launch? lid with
  | none => .next s
  | some l =>
    if l.next == l.gangs && s.groupsDone lid && s.accessesDone lid then .next (s.completeLaunch l 0)
    else .next s

end Sys2Proof.Machine
end

