-- ==== Sys2Proof/Machine/Matrix.lean ====
section
/-! DEFINITION. Format contexts and their inboxes (R309 to R312, R318), the operands and the arithmetic of the
matrix engine (R313 to R317), and what each MATRIX command does when the engine takes it (R320 to R331). -/

namespace Sys2Proof.Machine

/-! ## Format contexts -/

/-- The format context that the commands of a wave go to (R309). -/
def Wave.fctx (w : Wave) : Nat := 2 * (w.core % 2) + (if w.isHandler then 1 else 0)

/-- Changes a format context. -/
def State.modFctx (s : State) (cl k : Nat) (f : FCtx → FCtx) : State :=
  s.modCluster cl fun c => { c with fctx := c.fctx.zipIdx.map fun e => if e.2 == k then f e.1 else e.1 }

/-- A command of a wave enters its inbox; without room it does not issue (R311). -/
def State.postMx (s : State) (w : Wave) (p : Path) (sw : Bool) (d : Reg) (fn : Nat) (wa wa1 wb : Word)
    (needs : List Nat) : State :=
  let cl := clusterOf w.core
  if Nat.ble 32 (s.fctx cl w.fctx).inbox.length then s.stallWave w
  else
    let (id, s) := s.fresh
    let m : MPkt :=
      { id, fn, core := w.core, gslot := w.gslot, slot := w.slot, asid := s.asidOf w, lid := s.lidOf w, wa, wa1, wb,
        pc := p.pc, needs }
    (s.modFctx cl w.fctx fun f => { f with inbox := f.inbox ++ [m] }).xReply w sw d (.reply id)

/-- The w registers that the operands of an engine command name: A alone or a pair, and B. -/
def mxSrcs (a b : Option Reg) (pair : Bool) : List (Reg × Nat) :=
  (match a with
    | some a => [(a, if pair then 2 else 1)]
    | none => []) ++
  (match b with
    | some b => [(b, 1)]
    | none => [])

/-- The value of an operand; zero for one that a command does not have (R318). -/
def Wave.opt (w : Wave) (r : Option Reg) : Word :=
  match r with
  | some r => w.readW r
  | none => 0

/-- A MATRIX command at issue: a service core has no format context (R309, R318). MX.FENCE waits for what its
group has outstanding, another command for the accesses of its wave (R245, R247). -/
def mxOp (fn : Nat) (sw : Bool) (d : Reg) (a b : Option Reg) (pair : Bool) (s : State) : Out :=
  xOp s sw (mxSrcs a b pair) [(d, 1)] fun s w p =>
    if isService w.core then s.trapBy w p 0x019
    else
      let a1 : Option Reg := if pair then a.map fun r => r + 1 else none
      s.postMx w p sw d fn (w.opt a) (w.opt a1) (w.opt b) (if fn == 0x0E then s.groupGrps w else s.ownGrps w)

/-- MX.CTX (R321). -/
def execMxCtx (sw : Bool) (d : Reg) (s : State) : Out := mxOp 0x00 sw d none none false s
/-- MX.LDA (R322). -/
def execMxLda (sw : Bool) (d a b : Reg) (s : State) : Out := mxOp 0x01 sw d (some a) (some b) true s
/-- MX.LDB (R322). -/
def execMxLdb (sw : Bool) (d a : Reg) (s : State) : Out := mxOp 0x02 sw d (some a) none true s
/-- MX.MMA (R323). -/
def execMxMma (sw : Bool) (d a b : Reg) (s : State) : Out := mxOp 0x03 sw d (some a) (some b) false s
/-- MX.MMA.R (R323). -/
def execMxMmaR (sw : Bool) (d a b : Reg) (s : State) : Out := mxOp 0x04 sw d (some a) (some b) false s
/-- MX.MMAS (R323). -/
def execMxMmas (sw : Bool) (d a b : Reg) (s : State) : Out := mxOp 0x05 sw d (some a) (some b) false s
/-- MX.MMAS.R (R323). -/
def execMxMmasR (sw : Bool) (d a b : Reg) (s : State) : Out := mxOp 0x06 sw d (some a) (some b) false s
/-- MX.ZERO (R324). -/
def execMxZero (sw : Bool) (d a : Reg) (s : State) : Out := mxOp 0x08 sw d (some a) none false s
/-- MX.STACC (R325, R326). -/
def execMxStacc (sw : Bool) (d a b : Reg) (s : State) : Out := mxOp 0x09 sw d (some a) (some b) false s
/-- MX.LDACC (R324). -/
def execMxLdacc (sw : Bool) (d a b : Reg) (s : State) : Out := mxOp 0x0A sw d (some a) (some b) false s
/-- MX.SCALE (R327). -/
def execMxScale (sw : Bool) (d a b : Reg) (s : State) : Out := mxOp 0x0B sw d (some a) (some b) false s
/-- MX.SMAX (R328). -/
def execMxSmax (sw : Bool) (d a b : Reg) (s : State) : Out := mxOp 0x0C sw d (some a) (some b) false s
/-- MX.SNORM (R327). -/
def execMxSnorm (sw : Bool) (d a : Reg) (s : State) : Out := mxOp 0x0D sw d (some a) none false s
/-- MX.FENCE (R329). -/
def execMxFence (sw : Bool) (d : Reg) (s : State) : Out := mxOp 0x0E sw d none none false s
/-- MX.WAIT (R330). -/
def execMxWait (sw : Bool) (d : Reg) (s : State) : Out := mxOp 0x0F sw d none none false s
/-- MX.REL (R331). -/
def execMxRel (sw : Bool) (d a : Reg) (s : State) : Out := mxOp 0x10 sw d (some a) none false s

/-! ## Registers -/

/-- The bits of an mc register that are written (Table 14-1). -/
def mcMask (i : Nat) : DWord :=
  match i with
  | 0 => 0x1F
  | 1 => 0x3FFFFFFFFFFFFF
  | 2 => 0xFFFFFFFFF
  | 3 => 0x3FFFFFFFFFFFFF
  | 4 => 0xFFFFFFFFFFFFFFFF
  | _ => 0

def FCtx.mcr (f : FCtx) (i : Nat) : Nat := (Tab.get 0 f.mc i).toNat
def FCtx.fmt (f : FCtx) : Nat := f.mcr 0 % 8
def FCtx.spk (f : FCtx) : Nat := f.mcr 0 / 8 % 4
def FCtx.astr (f : FCtx) : Nat := f.mcr 1 % 2 ^ 18
def FCtx.aestr (f : FCtx) : Nat := f.mcr 1 / 2 ^ 18 % 2 ^ 18
def FCtx.amstr (f : FCtx) : Nat := f.mcr 1 / 2 ^ 36 % 2 ^ 18
def FCtx.bstr (f : FCtx) : Nat := f.mcr 2 % 2 ^ 18
def FCtx.bestr (f : FCtx) : Nat := f.mcr 2 / 2 ^ 18 % 2 ^ 18
def FCtx.cstr (f : FCtx) : Nat := f.mcr 3 % 2 ^ 18
def FCtx.cestr (f : FCtx) : Nat := f.mcr 3 / 2 ^ 18 % 2 ^ 18
def FCtx.pstr (f : FCtx) : Nat := f.mcr 3 / 2 ^ 36 % 2 ^ 18

/-- An mc register as it is read; mc5 shows the state of the context (Table 14-1). -/
def FCtx.readMc (f : FCtx) (i : Nat) : DWord :=
  if i == 5 then
    let ls := match f.latch with
      | some o => o.spk != 0
      | none => false
    let bw := match f.bbuf with
      | some o => o.spk != 0
      | none => false
    let bit (b : Bool) (k : Nat) : Nat := if b then 2 ^ k else 0
    BitVec.ofNat 64 (bit f.latch.isSome 0 + bit ls 1 + bit f.bbuf.isSome 2 + bit bw 3 + bit f.frozen.isSome 4 +
      32 * (match f.owner with
        | some o => o % 32 + 1
        | none => 0))
  else Tab.get 0 f.mc i

/-! ## Tiles -/

/-- The words of a tile, row by row. -/
def FCtx.tile (f : FCtx) (t : Nat) : List Word := (List.range 1024).map fun i => Tab.get 0 f.tiles (1024 * t + i)

/-- Replaces a tile. -/
def FCtx.setTile (f : FCtx) (t : Nat) (ws : List Word) : FCtx :=
  let new := ((ws.take 1024).zipIdx.filter fun e => e.1 != 0).map fun e => (1024 * t + e.2, e.1)
  { f with tiles := (f.tiles.filter fun e => Nat.blt e.1 (1024 * t)) ++ new ++
      f.tiles.filter fun e => Nat.ble (1024 * (t + 1)) e.1 }

/-- Minus infinity, the reset value of a softmax maximum (R310). -/
def negInf : Word := 0xFF800000
def FCtx.readM (f : FCtx) (t r : Nat) : Nat := (Tab.get negInf f.m (32 * t + r)).toNat
def FCtx.readL (f : FCtx) (t r : Nat) : Nat := (Tab.get 0 f.l (32 * t + r)).toNat

/-- Sets a tile and its side registers to zero (R324). -/
def FCtx.zeroTile (f : FCtx) (t : Nat) : FCtx :=
  { f.setTile t [] with
    m := f.m.filter fun e => e.1 / 32 != t
    l := f.l.filter fun e => e.1 / 32 != t }

/-! ## Operands -/

/-- A BX format. -/
def isBx (fmt : Nat) : Bool := fmt == 2 || fmt == 3
/-- The dense depth (Table 14-2). -/
def fmtK (fmt : Nat) : Nat :=
  match fmt with
  | 0 => 32
  | 1 => 32
  | 3 => 128
  | _ => 64
/-- Bits of an element. -/
def fmtBits (fmt : Nat) : Nat :=
  match fmt with
  | 0 => 16
  | 1 => 16
  | 3 => 4
  | _ => 8

/-- Stored values of a row of A (R313). -/
def storedA (fmt spk : Nat) : Nat := if spk == 1 then fmtK fmt / 2 else fmtK fmt
/-- Rows of B (R313). -/
def storedB (fmt spk : Nat) : Nat := if spk == 0 then fmtK fmt else 2 * fmtK fmt
/-- Bytes of stored values, and of their exponents. -/
def elemBytes (fmt n : Nat) : Nat := n * fmtBits fmt / 8
def expBytes (fmt n : Nat) : Nat := if isBx fmt then n / 16 else 0
/-- Groups of 8 of a sparse row, the width of a pattern number, and the bytes of a metadata row (R315). -/
def groups8 (fmt : Nat) : Nat := fmtK fmt / 4
def patBits (spk : Nat) : Nat := if spk == 1 then 5 else 7
def metaBytes (fmt spk : Nat) : Nat := if spk == 0 then 0 else (groups8 fmt * patBits spk + 7) / 8

/-- Bits set in a byte. -/
def bits8 (m : Nat) : Nat := ((List.range 8).filter fun c => m / 2 ^ c % 2 == 1).length
/-- The decode ROM: the masks with k bits set, ascending (Tables 14-3 and 14-4). -/
def patRom (k : Nat) : List Nat := (List.range 256).filter fun m => bits8 m == k

/-- The masks of a metadata row; none when a number is out of range (R316). -/
def rowMasks (fmt spk : Nat) (b : List Byte) : Option (List Nat) :=
  let v := leNat b
  let rom := patRom (2 * spk)
  (List.range (groups8 fmt)).foldr (fun g acc => match acc, rom[v / 2 ^ (g * patBits spk) % 2 ^ patBits spk]? with
    | some l, some m => some (m :: l)
    | _, _ => none) (some [])

/-- Element j of stored bytes, as a value (R96, R97); not for INT8. -/
def elemNum (fmt : Nat) (els exps : List Byte) (j : Nat) : FNum :=
  let e0 := fieldNat exps (2 * (j / 32)) 1
  let e1 := fieldNat exps (2 * (j / 32) + 1) 1
  match fmt with
  | 0 => bf16.num (fieldNat els (2 * j) 2)
  | 1 => f16.num (fieldNat els (2 * j) 2)
  | 2 => bx8.num e0 e1 (fieldNat els j 1)
  | _ => bx4.num e0 e1 (fieldNat els (j / 2) 1 / 16 ^ (j % 2) % 16)

/-- Spreads stored values over the logical positions of a sparse row (R316, R317). -/
def spread {α : Type} (zero : α) : List Nat → List α → List α
  | [], _ => []
  | m :: ms, vs =>
    let k := bits8 m
    let pick (c : Nat) : α :=
      if m / 2 ^ c % 2 == 1 then vs.getD (((List.range c).filter fun i => m / 2 ^ i % 2 == 1).length) zero else zero
    (List.range 8).map pick ++ spread zero ms (vs.drop k)

/-- The logical elements of row or column i of an operand. -/
def Oper.nums (o : Oper) (i : Nat) : List FNum :=
  let els := o.elems.getD i []
  let vs := (List.range (els.length * 8 / fmtBits o.fmt)).map (elemNum o.fmt els (o.exps.getD i []))
  match o.masks[i]? with
  | some ms => spread (.fin false 0 0) ms vs
  | none => vs
def Oper.ints (o : Oper) (i : Nat) : List Int :=
  let vs := (o.elems.getD i []).map fun (b : Byte) => b.toInt
  match o.masks[i]? with
  | some ms => spread 0 ms vs
  | none => vs

/-! ## Arithmetic -/

/-- Values in blocks of 32. -/
def blocks32 {α : Type} (n : Nat) (l : List α) : List (List α) :=
  (List.range n).map fun b => (l.drop (32 * b)).take 32

/-- RoundNE to FP32. -/
def rne32 (x : FNum) : Nat := (f32.pack .rne x).1
/-- RoundNE(a + b) of FP32 values and an exact one. -/
def addNum (a : Nat) (x : FNum) : Nat := rne32 (FNum.add .rne (f32.num a) x).1

/-- One element of a multiply command: the blocks along K in order (R317). -/
def dotF (acc : Nat) (a b : List (List FNum)) : Nat :=
  (a.zip b).foldl (fun acc e => addNum acc (sumNums .rne ((e.1.zip e.2).map fun p => (FNum.mul p.1 p.2).1)).1) acc
def dotI (acc : Word) (a b : List Int) : Word :=
  acc + BitVec.ofInt 32 (((a.zip b).map fun p => p.1 * p.2).foldl (· + ·) 0)

/-- The tile src + A * B (R317, R323). -/
def mmaTile (fmt : Nat) (a b : Oper) (src : List Word) : List Word :=
  if fmt == 4 then
    let bs := (List.range 32).map b.ints
    ((List.range 32).map fun r =>
      let row := a.ints r
      bs.zipIdx.map fun c => dotI (src.getD (32 * r + c.2) 0) row c.1).flatten
  else
    let bs := (List.range 32).map fun n => let c := b.nums n; blocks32 (c.length / 32) c
    ((List.range 32).map fun r =>
      let row := a.nums r
      let row := blocks32 (row.length / 32) row
      bs.zipIdx.map fun c => BitVec.ofNat 32 (dotF (src.getD (32 * r + c.2) 0).toNat row c.1)).flatten

/-- FMAX over a row (R328). -/
def rowMax (start : Nat) (xs : List Nat) : Nat :=
  xs.foldl (fun a x => (f32.minmax false true (f32.num a) (f32.num x)).1) start

/-- One row of an online-softmax step (R328): P as BF16, the new l and m, and the row of O. -/
def smaxRow (m0 l0 : Nat) (srow orow : List Nat) : List Nat × Nat × Nat × List Nat :=
  let m1 := rowMax m0 srow
  let sub (x : Nat) : Nat := addNum x (f32.num m1).neg
  let (c, ps) : Nat × List Nat :=
    if m1 == 0xFF800000 then (0x3F800000, srow.map fun _ => 0)
    else ((ex2 (sub m0)).1, srow.map fun x => (f32.convert bf16 .rne (ex2 (sub x)).1).1)
  let mul (x : Nat) : Nat := (f32.mul .rne false (f32.num x) (f32.num c)).1
  let l1 := addNum (mul l0) (sumNums .rne (ps.map bf16.num)).1
  (ps, l1, m1, orow.map mul)

/-! ## Commands -/

/-- What a command comes to: discarded with a cause, the context as it is left, or done: the context, bytes for
group-local memory by offset, and the reply. -/
inductive MxOut where
  | bad (c : Cause) (f : FCtx)
  | ok (f : FCtx) (ws : List (Nat × List Byte)) (v : Word)

/-- Group-local memory as a command reads it: its size, and its bytes. -/
structure MxMem where
  limit : Nat
  read : Nat → Nat → List Byte

/-- Rows of `len` bytes at a stride lie in group-local memory (R319). -/
def MxMem.fits (l : MxMem) (off stride len : Nat) : Bool := len == 0 || Nat.ble (off + 31 * stride + len) l.limit
def MxMem.rows (l : MxMem) (off stride len : Nat) : List (List Byte) :=
  (List.range 32).map fun r => l.read (off + r * stride) len

/-- The first check that fails, in the order of R320 (log entry 14). -/
def firstBad (cs : List (Bool × Cause)) : Option Cause := (cs.find? fun c => c.1).map fun c => c.2

def multOf (n : Nat) (xs : List Nat) : Bool := xs.all fun x => x % n == 0

/-- MX.LDA (R322). -/
def mxLda (f : FCtx) (l : MxMem) (wa wa1 wb : Nat) : MxOut :=
  let n := storedA f.fmt f.spk
  let eb := elemBytes f.fmt n
  let xb := expBytes f.fmt n
  let mb := metaBytes f.fmt f.spk
  let f0 := { f with latch := none }
  match firstBad
      [(Nat.ble 5 f.fmt || f.spk == 3 || !multOf 4 [wa, f.astr] || (isBx f.fmt && !multOf 2 [wa1, f.aestr]) ||
          (f.spk != 0 && !multOf 4 [wb, f.amstr]), 0x213),
       (!l.fits wa f.astr eb || !l.fits wa1 f.aestr xb || !l.fits wb f.amstr mb, 0x214)] with
  | some c => .bad c f0
  | none =>
    let ms := if f.spk == 0 then [] else (l.rows wb f.amstr mb).map (rowMasks f.fmt f.spk)
    if ms.any fun m => m.isNone then .bad 0x211 f0
    else
      let o : Oper := ⟨f.fmt, f.spk, l.rows wa f.astr eb, l.rows wa1 f.aestr xb, ms.filterMap id⟩
      .ok { f with latch := some o } [] 0

/-- MX.LDB (R322). -/
def mxLdb (f : FCtx) (l : MxMem) (wa wa1 : Nat) : MxOut :=
  let n := storedB f.fmt f.spk
  let eb := elemBytes f.fmt n
  let xb := expBytes f.fmt n
  match firstBad
      [(Nat.ble 5 f.fmt || f.spk == 3 || !multOf 4 [wa, f.bstr] || (isBx f.fmt && !multOf 2 [wa1, f.bestr]), 0x213),
       (!l.fits wa f.bstr eb || !l.fits wa1 f.bestr xb, 0x214)] with
  | some c => .bad c { f with bbuf := none }
  | none =>
    let o : Oper := ⟨f.fmt, f.spk, l.rows wa f.bstr eb, l.rows wa1 f.bestr xb, []⟩
    .ok { f with bbuf := some o } [] 0

/-- MX.MMA and MX.MMAS, with and without `.r` (R322, R323). -/
def mxMma (f : FCtx) (sparse again : Bool) (wa wb : Nat) : MxOut :=
  let fits (o : Oper) : Bool := o.fmt == f.fmt && o.spk == f.spk && (o.spk != 0) == sparse
  match firstBad
      [(Nat.ble 5 f.fmt || f.spk == 3, 0x213), (Nat.ble 16 wa || Nat.ble 16 wb, 0x210)] with
  | some c => .bad c f
  | none =>
    match f.latch, f.bbuf with
    | some a, some b =>
      if fits a && fits b then
        let f := f.setTile wa (mmaTile f.fmt a b (f.tile wb))
        .ok (if again then f else { f with latch := none }) [] 0
      else .bad 0x215 f
    | _, _ => .bad 0x215 f

/-- MX.ZERO (R324). -/
def mxZero (f : FCtx) (wa : Nat) : MxOut :=
  if Nat.ble (2 ^ 16) wa then .bad 0x210 f
  else .ok ((List.range 16).foldl (fun f t => if wa / 2 ^ t % 2 == 1 then f.zeroTile t else f) f) [] 0

/-- MX.LDACC (R324). -/
def mxLdacc (f : FCtx) (l : MxMem) (wa wb : Nat) : MxOut :=
  match firstBad [(!multOf 4 [wb, f.cstr], 0x213), (Nat.ble 16 wa, 0x210), (!l.fits wb f.cstr 128, 0x214)] with
  | some c => .bad c f
  | none => .ok (f.setTile wa ((l.rows wb f.cstr 128).map (wordsOf 32)).flatten) [] 0

/-- The bytes of a row of elements of 4 bits, low nibble first (R96). -/
def nibbles (xs : List Nat) : List Byte :=
  (List.range (xs.length / 2)).map fun i => BitVec.ofNat 8 (xs.getD (2 * i) 0 + 16 * xs.getD (2 * i + 1) 0)

/-- A row of a tile in an output format (R325): its bytes, its exponent bytes, and the flags. -/
def outRow (out : Nat) (row : List Word) : List Byte × List Byte × Flags :=
  let conv (f : Fmt) : List Byte × List Byte × Flags :=
    let rs := row.map fun x => f32.convert f .rne x.toNat
    ((rs.map fun r => bytesLE 2 r.1).flatten, [], rs.foldl (fun a r => a ||| r.2) 0)
  let bx (x : Bx) (four : Bool) : List Byte × List Byte × Flags :=
    let (e0, e1, els) := x.block (row.map fun v => some (f32.num v.toNat))
    (if four then nibbles (els.map fun e => e.1) else els.map fun e => BitVec.ofNat 8 e.1,
     [BitVec.ofNat 8 e0, BitVec.ofNat 8 e1], els.foldl (fun a r => a ||| r.2) 0)
  match out with
  | 1 => conv bf16
  | 2 => conv f16
  | 3 => bx bx8 false
  | 4 => bx bx4 true
  | _ => (bytesOf row, [], 0)

/-- Bytes of an output row. -/
def outBytes (out : Nat) : Nat :=
  match out with
  | 1 => 64
  | 2 => 64
  | 3 => 32
  | 4 => 16
  | _ => 128

/-- The checks of MX.STACC that do not depend on memory (R320, R325): its output is wA[6:4]. -/
def staccBad (f : FCtx) (wa wb : Nat) : Option Cause :=
  let out := wa / 16 % 8
  let xoff := wa / 128 % 2 ^ 18
  let bx := out == 3 || out == 4
  let fl := within 1 4 out || out == 6
  firstBad
    [((out != 0 && Nat.ble 5 f.fmt) || (f.fmt == 4 && fl) || (Nat.blt f.fmt 4 && out == 5) ||
        (if out == 6 then f.mcr 4 % 64 != 0 else !multOf 4 [wb, f.cstr]) || (bx && !multOf 2 [xoff, f.cestr]), 0x213),
     (out == 7 || Nat.ble (2 ^ 25) wa || (!bx && xoff != 0), 0x210)]

/-- MX.STACC to group-local memory (R325). -/
def mxStacc (f : FCtx) (l : MxMem) (wa wb : Nat) : MxOut :=
  let out := wa / 16 % 8
  let xoff := wa / 128 % 2 ^ 18
  let n := outBytes out
  let xn := if out == 3 || out == 4 then 2 else 0
  match staccBad f wa wb with
  | some c => .bad c f
  | none =>
    if !l.fits wb f.cstr n || !l.fits xoff f.cestr xn then .bad 0x214 f
    else
      let t := f.tile (wa % 16)
      let rs := (List.range 32).map fun r => outRow out ((t.drop (32 * r)).take 32)
      let ws := rs.zipIdx.map fun e => (wb + e.2 * f.cstr, e.1.1)
      let xs := if xn == 0 then [] else rs.zipIdx.map fun e => (xoff + e.2 * f.cestr, e.1.2.1)
      .ok f (ws ++ xs) ((rs.foldl (fun a r => a ||| r.2.2) (0 : Flags)).setWidth 32)

/-- MX.SCALE (R327). -/
def mxScale (f : FCtx) (wa : Nat) (k : Nat) : MxOut :=
  match firstBad [(Nat.ble 4 f.fmt, 0x213), (Nat.ble 16 wa, 0x210)] with
  | some c => .bad c f
  | none => .ok (f.setTile wa ((f.tile wa).map fun x =>
      BitVec.ofNat 32 (f32.mul .rne false (f32.num x.toNat) (f32.num k)).1)) [] 0

/-- MX.SNORM (R327). -/
def mxSnorm (f : FCtx) (wa : Nat) : MxOut :=
  match firstBad [(Nat.ble 4 f.fmt, 0x213), (Nat.ble 16 wa, 0x210)] with
  | some c => .bad c f
  | none => .ok (f.setTile wa ((f.tile wa).zipIdx.map fun e =>
      BitVec.ofNat 32 (f32.div .rne (f32.num e.1.toNat) (f32.num (f.readL wa (e.2 / 32)))).1)) [] 0

/-- MX.SMAX (R328). -/
def mxSmax (f : FCtx) (l : MxMem) (wa wb : Nat) : MxOut :=
  let st := wa % 16
  let ot := wa / 16 % 16
  match firstBad
      [(Nat.ble 4 f.fmt || !multOf 4 [wb, f.pstr], 0x213), (Nat.ble 256 wa || st == ot, 0x210),
       (!l.fits wb f.pstr 64, 0x214)] with
  | some c => .bad c f
  | none =>
    let ss := (f.tile st).map fun x => x.toNat
    let os := (f.tile ot).map fun x => x.toNat
    let rs := (List.range 32).map fun r =>
      smaxRow (f.readM ot r) (f.readL ot r) ((ss.drop (32 * r)).take 32) ((os.drop (32 * r)).take 32)
    let put (d : Word) (t : Tab Word) (g : List Nat × Nat × Nat × List Nat → Nat) : Tab Word :=
      Tab.putAll d t (rs.zipIdx.map fun e => (32 * ot + e.2, BitVec.ofNat 32 (g e.1)))
    let f := f.setTile ot ((rs.map fun r => r.2.2.2.map (BitVec.ofNat 32)).flatten)
    .ok { f with l := put 0 f.l (fun r => r.2.1), m := put negInf f.m (fun r => r.2.2.1) }
      (rs.zipIdx.map fun e => (wb + e.2 * f.pstr, (e.1.1.map (bytesLE 2)).flatten)) 0

/-- MX.REL (R331). -/
def mxRel (f : FCtx) (wa : Nat) : MxOut :=
  if Nat.ble 8 wa then .bad 0x210 f
  else
    let f := if wa % 2 == 1 then { f with latch := none } else f
    let f := if wa / 2 % 2 == 1 then { f with bbuf := none } else f
    .ok (if wa / 4 % 2 == 1 && f.frozen.isNone then f.released else f) [] 0

/-- Spans of group-local memory that a command reads when it is not discarded: offset and bytes (R322, R324). -/
def FCtx.reads (f : FCtx) (m : MPkt) : List (Nat × Nat) :=
  let rows (off stride len : Nat) : List (Nat × Nat) :=
    if len == 0 then [] else (List.range 32).map fun r => (off + r * stride, len)
  let wa := m.wa.toNat
  match m.fn with
  | 0x01 =>
    let n := storedA f.fmt f.spk
    rows wa f.astr (elemBytes f.fmt n) ++ rows m.wa1.toNat f.aestr (expBytes f.fmt n) ++
      rows m.wb.toNat f.amstr (metaBytes f.fmt f.spk)
  | 0x02 =>
    let n := storedB f.fmt f.spk
    rows wa f.bstr (elemBytes f.fmt n) ++ rows m.wa1.toNat f.bestr (expBytes f.fmt n)
  | 0x0A => rows m.wb.toNat f.cstr 128
  | _ => []

/-- A MATRIX command, or an mc write, of the group that owns the context. -/
def mxRun (f : FCtx) (l : MxMem) (m : MPkt) : MxOut :=
  let wa := m.wa.toNat
  let wb := m.wb.toNat
  match m.fn with
  | 0x01 => mxLda f l wa m.wa1.toNat wb
  | 0x02 => mxLdb f l wa m.wa1.toNat
  | 0x03 => mxMma f false false wa wb
  | 0x04 => mxMma f false true wa wb
  | 0x05 => mxMma f true false wa wb
  | 0x06 => mxMma f true true wa wb
  | 0x08 => mxZero f wa
  | 0x09 => mxStacc f l wa wb
  | 0x0A => mxLdacc f l wa wb
  | 0x0B => mxScale f wa wb
  | 0x0C => mxSmax f l wa wb
  | 0x0D => mxSnorm f wa
  | 0x0F => .ok { f with cause := 0 } [] (f.cause.setWidth 32)
  | 0x10 => mxRel f wa
  | 0x7F => .ok { f with mc := Tab.put 0 f.mc m.mci (m.mcv &&& mcMask m.mci) } [] 0
  | _ => .ok f [] 0

/-- A command as its context takes it (R310, R320, R321): the owner, and a frozen context, come first. -/
def FCtx.take (f : FCtx) (l : MxMem) (m : MPkt) : MxOut :=
  let mine := ownerCode m.core m.gslot
  match f.frozen with
  | some c =>
    if m.fn != 0 && f.owner != some mine then .bad 0x212 f
    else if m.fn == 0x0F || m.fn == 0x10 then mxRun f l m else .bad c f
  | none =>
    if m.fn == 0 then
      match f.owner with
      | none => .ok { f with owner := some mine } [] 0
      | some o => .ok f [] (if o == mine then 0 else 1)
    else if f.owner != some mine then .bad 0x212 f
    else mxRun f l m

end Sys2Proof.Machine
end

