-- ==== Sys2Proof/Machine/Delta.lean ====
section
/-! DEFINITION. Temporal delta reuse (R336 to R352): the DELTA commands at issue, and what each does when the
matrix engine takes it. A slot record stands in `slots`, and in the reuse area while no MXE caches it. -/

namespace Sys2Proof.Machine

/-! ## Issue -/

/-- DL.BIND (R345). -/
def execDlBind (sw : Bool) (d a b : Reg) (s : State) : Out := mxOp 0x80 sw d (some a) (some b) true s
/-- DL.RUN (R346). -/
def execDlRun (sw : Bool) (d a b : Reg) (s : State) : Out := mxOp 0x81 sw d (some a) (some b) true s
/-- DL.FULL (R346). -/
def execDlFull (sw : Bool) (d a b : Reg) (s : State) : Out := mxOp 0x82 sw d (some a) (some b) true s
/-- DL.INV (R347). -/
def execDlInv (sw : Bool) (d b : Reg) (s : State) : Out := mxOp 0x83 sw d none (some b) false s
/-- DL.QRY (R348). -/
def execDlQry (sw : Bool) (d a b : Reg) (s : State) : Out := mxOp 0x84 sw d (some a) (some b) false s
/-- DL.CFG (R348). -/
def execDlCfg (sw : Bool) (d a b : Reg) (s : State) : Out := mxOp 0x85 sw d (some a) (some b) true s

/-- Every slot of an ASID becomes unbound, and leaves the caches (R349). -/
def State.dropSlots (s : State) (asid : Nat) : State :=
  let mine (k : Nat) : Bool := k / 256 == asid
  let keys := (s.slots.filter fun e => mine e.1).map fun e => e.1
  let s := { s with
    slots := s.slots.filter fun e => !mine e.1
    clusters := Tab.update {} (fun c => { c with dcache := c.dcache.filter fun k => !mine k }) s.clusters }
  keys.foldl (fun s k => s.mirrorSlot k) s

/-- DL.DROPALL, privileged (R349). -/
def execDlDropall (sw : Bool) (d b : Reg) (s : State) : Out :=
  xOp s sw [(b, 1)] [(d, 1)] fun s w p =>
    let y := w.readW b
    if !isService w.core then s.trapBy w p 0x004
    else if bitsAt y 16 16 != 0 then
      (s.postAsync { asid := s.asidOf w, cause := 0x216, engine := 2, slot := w.slot, core := w.core,
                     pc := p.pc, op := s.nextId }).xReply w sw d (.val (failWord 0x216))
    else (s.dropSlots (bitsAt y 0 16)).xReply w sw d (.val 0)

/-! ## Slots -/

/-- The number of a slot over all contexts. -/
def slotKey (asid i : Nat) : Nat := 256 * asid + i
def State.dslot (s : State) (asid i : Nat) : DSlot := Tab.get {} s.slots (slotKey asid i)

/-- The status word (R344). -/
def DSlot.status (d : DSlot) : Word :=
  BitVec.ofNat 32 (d.version.toNat + (if d.valid then 2 ^ 16 else 0) + (if d.bound then 3 * 2 ^ 17 else 0))

/-- The MXE of a cluster caches a slot: another MXE writes it back first, and the least recently used record
leaves (R339). -/
def State.cacheSlot (s : State) (cl key : Nat) : State :=
  let out (s : State) (k : Nat) : State :=
    ({ s with clusters := Tab.update {} (fun c => { c with dcache := c.dcache.filter fun x => x != k }) s.clusters }
      ).mirrorSlot k
  let s := if s.clusters.any fun e => e.1 != cl && e.2.dcache.any fun k => k == key then out s key else s
  let l := key :: (s.cluster cl).dcache.filter fun k => k != key
  (l.drop 64).foldl out (s.modCluster cl fun c => { c with dcache := l })

/-- Row bytes of the element plane, of one block of it, and in all (R340, Table 15-3). -/
def rowElems (fmt n : Nat) : Nat := elemBytes fmt n
def rowBytes (fmt n : Nat) : Nat := elemBytes fmt n + expBytes fmt n

/-- A step that is positive, normal and finite (Table 15-1). -/
def stepOk (v : Word) : Bool := !v.msb && within 1 254 (v.toNat / 2 ^ 23)

/-! ## Reading for a command -/

/-- Why a command cannot go on: an access, or a cause of Table 15-5. -/
inductive DlErr where
  | tr (w : Want) (t : Tr)
  | cause (c : Cause)
  deriving DecidableEq, Repr

/-- Bytes that an engine command reads at a VA of its context. -/
def State.dlRead (s : State) (core asid : Nat) (va : DWord) (len : Nat) : Except DlErr (List Byte) × State :=
  match s.grant core .mxe asid [⟨false, va, len⟩] with
  | (.error (w, r), s) => (.error (.tr w r), s)
  | (.ok ps, s) =>
    let (b, s) := s.readPieces asid ps.flatten
    (.ok b, s)

/-- The physical spans of weights and the pages that they lie in, with the checks of R345. -/
def State.weightPages (s : State) (core asid : Nat) :
    Nat → DWord → Nat → Except DlErr (List (Nat × Nat) × List (Nat × Nat)) × State
  | 0, _, _ => (.ok ([], []), s)
  | k + 1, va, len =>
    if len == 0 then (.ok ([], []), s)
    else if !canonical va then (.error (.tr ⟨false, va, len⟩ (.viol 0x101)), s)
    else match s.lookup core .mxe asid va with
      | (none, s) => (.error (.tr ⟨false, va, len⟩ (.miss 0)), s)
      | (some e, s) => match e.give { r := true } va with
        | .ok pa cache =>
          if !inDev pa || Nat.ble 2 cache then (.error (.cause 0x216), s)
          else if !e.watch then (.error (.cause 0x105), s)
          else
            let n := min len (2 ^ e.shift - va57 va % 2 ^ e.shift)
            match State.weightPages s core asid k (va + BitVec.ofNat 64 n) (len - n) with
            | (.ok (sp, rs), s) => (.ok ((pa, n) :: sp, e.range :: rs), s)
            | r => r
        | t => (.error (.tr ⟨false, va, len⟩ t), s)

/-- Ranges that installed WATCH entries register (R350). -/
def State.tlbRanges (s : State) : List (Nat × Nat) :=
  ((s.clusters.map fun e => e.2.tlb.filterMap fun x => if x.watch then some x.range else none).flatten ++
   (s.cores.map fun e => e.2.tlb.filterMap fun x => if x.2.watch then some x.2.range else none).flatten).eraseDups

/-- The watch list, but for what one slot registers (R350). -/
def State.watchList (s : State) (key : Nat) : List (Nat × Nat) :=
  (s.tlbRanges ++ ((s.slots.filter fun e => e.1 != key).map fun e => e.2.ranges).flatten).eraseDups

/-- The ranges that a slot's weights register, when the list has room: their pages, and each listed range that they lie
partly in, whichever entry or slot registers it (R350). -/
def State.register (s : State) (key : Nat) (spans pages : List (Nat × Nat)) : Option (List (Nat × Nat)) :=
  let near := (s.watchList key).filter fun r => spans.any fun p => overlaps p.1 p.2 r.1 r.2
  let mine := (pages ++ near).eraseDups
  if Nat.blt 4096 (s.watchList key ++ mine).eraseDups.length then none else some mine

/-- FP32 words. -/
def fwords (n : Nat) (b : List Byte) : List Nat := (wordsOf n b).map fun w => w.toNat

/-! ## Arithmetic -/

/-- RoundNE of the exact quotient (x - y) / step to an integer, ties to even (R341). -/
def quantise (x y step : FNum) : Int :=
  match x, y, step with
  | .fin s1 m1 e1, .fin s2 m2 e2, .fin _ n h =>
    let (v, g) := dyAdd s1 m1 e1 (!s2) m2 e2
    let a := v.natAbs * 2 ^ (g - h).toNat
    let b := n * 2 ^ (h - g).toNat
    let q := a / b
    let r := 2 * (a % b)
    let q := if Nat.blt b r || (r == b && q % 2 == 1) then q + 1 else q
    if v < 0 then -(q : Int) else q
  | _, _, _ => 0

/-- An integer as a value. -/
def intNum (q : Int) : FNum := .fin (q < 0) q.natAbs 0

/-- The exact sum of a block; an element without a factor gives the product +0 (R341). -/
def blockSum (ws : List FNum) (fs : List (Option FNum)) : FNum :=
  (sumNums .rne ((ws.zip fs).map fun e => match e.2 with
    | some x => (FNum.mul e.1 x).1
    | none => .fin false 0 0)).1

/-- Block b of row m of the weights of a slot. -/
def State.weightBlock (s : State) (core asid : Nat) (d : DSlot) (m b : Nat) : Except DlErr (List FNum) × State :=
  let row := rowElems d.wfmt d.n
  let eb := elemBytes d.wfmt 32
  let at_ (n : Nat) : DWord := d.wva + BitVec.ofNat 64 n
  match s.dlRead core asid (at_ (m * row + b * eb)) eb with
  | (.error e, s) => (.error e, s)
  | (.ok els, s) =>
    match s.dlRead core asid (at_ (d.m * row + m * expBytes d.wfmt d.n + 2 * b)) (expBytes d.wfmt 32) with
    | (.error e, s) => (.error e, s)
    | (.ok xs, s) => (.ok ((List.range 32).map (elemNum d.wfmt els xs)), s)

/-- The sum of one row over blocks of factors; a block without factors is skipped (R341, R342). -/
def State.rowSum (s : State) (core asid : Nat) (d : DSlot) (m : Nat) (fs : List (Option (List (Option FNum)))) :
    Except DlErr Nat × State :=
  fs.zipIdx.foldl (fun t e =>
    match t, e.1 with
    | (.ok acc, s), some f =>
      match s.weightBlock core asid d m e.2 with
      | (.ok ws, s) => (.ok (addNum acc (blockSum ws f)), s)
      | (.error x, s) => (.error x, s)
    | t, _ => t) ((.ok 0, s) : Except DlErr Nat × State)

/-- The sums of all rows. -/
def State.allRows (s : State) (core asid : Nat) (d : DSlot) (fs : List (Option (List (Option FNum)))) :
    Except DlErr (List Nat) × State :=
  (List.range d.m).foldl (fun t m =>
    match t with
    | (.ok ys, s) => match s.rowSum core asid d m fs with
      | (.ok y, s) => (.ok (ys ++ [y]), s)
      | (.error x, s) => (.error x, s)
    | t => t) ((.ok [], s) : Except DlErr (List Nat) × State)

/-! ## What commands come to -/

/-- A command waits for an access, is frozen by one, is discarded, or ends with a reply. -/
inductive DlOut where
  | wait (w : Want) (kind : Nat) (s : State)
  | viol (w : Want) (c : Cause) (s : State)
  | fail (c : Cause) (s : State)
  | done (v : Word) (s : State)

/-- The end of a command that cannot go on; on a failure the state is as given (R344, R352). -/
def DlErr.out (e : DlErr) (s : State) (failed : State) : DlOut :=
  match e with
  | .tr w (.miss k) => .wait w k s
  | .tr w (.viol c) => .viol w c s
  | .tr _ (.ok _ _) => .done 0 s
  | .cause c => .fail c failed

/-- A command as it runs: the packet, its cluster, and the bytes of local memory of its group. -/
structure DlRun where
  m : MPkt
  cl : Nat
  limit : Nat

/-- Writes bytes of group-local memory of the command's group. -/
def DlRun.put (r : DlRun) (s : State) (off : Nat) (bs : List Byte) : State :=
  s.bankWrite (localBase r.m.core r.m.gslot + off) bs
def DlRun.get (r : DlRun) (s : State) (off n : Nat) : List Byte :=
  match s.group? r.m.core r.m.gslot with
  | some g => g.loc.read off n
  | none => List.replicate n 0

/-! ## DL.BIND -/

/-- The fields of a bind descriptor (R345). -/
def bindDesc (b : List Byte) (layer : Word) (d : DSlot) : DSlot :=
  { d with
    layer, wva := BitVec.ofNat 64 (fieldNat b 0 8), wbytes := BitVec.ofNat 64 (fieldNat b 8 8)
    xva := BitVec.ofNat 64 (fieldNat b 16 8), yva := BitVec.ofNat 64 (fieldNat b 24 8), n := fieldNat b 32 4
    m := fieldNat b 36 4, step := BitVec.ofNat 32 (fieldNat b 40 4), p := fieldNat b 44 2, clamp := fieldNat b 46 2
    wfmt := fieldNat b 48 1, count := 0, reason := 0, valid := false, bound := true }

/-- The fields of a descriptor are in range (Table 15-1, R340, Table 15-3). -/
def bindOk (b : List Byte) (d : DSlot) : Bool :=
  let dim (n : Nat) : Bool := n % 32 == 0 && within 32 16384 n
  d.wva.toNat % 256 == 0 && d.xva.toNat % 64 == 0 && d.yva.toNat % 64 == 0 && dim d.n && dim d.m &&
  stepOk d.step && within 1 64 d.p && Nat.ble d.wfmt 3 && d.wbytes.toNat == d.m * rowBytes d.wfmt d.n &&
  fieldNat b 49 15 == 0

/-- The slot that a binding of a layer takes, and whether it is new (R345). -/
def State.bindSlot (s : State) (asid lid : Nat) (layer : Word) : Option (Nat × Bool) :=
  match (List.range 256).find? fun i => (s.dslot asid i).bound && (s.dslot asid i).layer == layer with
  | some i => some (i, false)
  | none =>
    if Tab.get 0 s.dleft lid == 0 then none
    else ((List.range 256).find? fun i => !(s.dslot asid i).bound).map fun i => (i, true)

/-- Pages that a walk over weights visits at most. -/
def DSlot.pages (d : DSlot) : Nat := d.wbytes.toNat / 4096 + 2

/-- DL.BIND (R345). -/
def DlRun.bind (r : DlRun) (s : State) : DlOut :=
  let m := r.m
  let va : DWord := m.wa1 ++ m.wa
  if va.toNat % 64 != 0 then .fail 0x216 s
  else match s.dlRead m.core m.asid va 64 with
    | (.error e, s) => e.out s s
    | (.ok b, s) =>
      let d := bindDesc b m.wb {}
      if !bindOk b d then .fail 0x216 s
      else match s.weightPages m.core m.asid d.pages d.wva d.wbytes.toNat with
        | (.error e, s) => e.out s s
        | (.ok (spans, pages), s) =>
          let slot := s.bindSlot m.asid m.lid m.wb
          let key := match slot with
            | some (i, _) => slotKey m.asid i
            | none => 2 ^ 32
          match s.register key spans pages with
          | none => .fail 0x219 s
          | some ranges => match slot with
            | none => .fail 0x218 s
            | some (i, fresh) =>
              let s := if fresh then { s with dleft := Tab.put 0 s.dleft m.lid (Tab.get 0 s.dleft m.lid - 1) } else s
              let d := { bindDesc b m.wb (s.dslot m.asid i) with spans, ranges }
              .done (BitVec.ofNat 32 i) ((s.cacheSlot r.cl key).putSlot key d)

/-! ## DL.RUN and DL.FULL -/

/-- What a run has read and found before it writes: the inputs, and what it adds to CLAMPED. -/
structure DlIn where
  d : DSlot
  key : Nat
  x : List Nat
  yoff : Nat
  clamped : Nat

/-- The reply of a run (R346). -/
def runReply (version : BitVec 16) (reason : Nat) : Word :=
  BitVec.ofNat 32 (version.toNat + (if reason == 0 then 0 else 2 ^ 16) + reason * 2 ^ 17)

/-- The results of a run are written: the record, then Y to group-local memory, Y to YVA and X_rec to XVA, so
that a Y that overlaps the weights leaves the slot invalid (R341, R342, R352). -/
def DlRun.finish (r : DlRun) (s : State) (i : DlIn) (d : DSlot) (ys xs : List Nat) (v : Word) : DlOut :=
  let m := r.m
  match s.grant m.core .mxe m.asid [⟨true, i.d.yva, 4 * i.d.m⟩, ⟨true, i.d.xva, 4 * i.d.n⟩] with
  | (.error (w, t), s) => (DlErr.tr w t).out s s
  | (.ok ps, s) =>
    let bytes (l : List Nat) : List Byte := (l.map (bytesLE 4)).flatten
    let s := (s.cacheSlot r.cl i.key).putSlot i.key
      { d with runs := d.runs + 1, clamped := d.clamped + BitVec.ofNat 64 i.clamped }
    let s := r.put s i.yoff (bytes ys)
    let s := s.engineWrites m.core 4 (ps.getD 0 []) (bytes ys)
    .done v (s.engineWrites m.core 4 (ps.getD 1 []) (bytes xs))

/-- A full refresh (R342, R352). -/
def DlRun.refresh (r : DlRun) (s : State) (i : DlIn) (reason : Nat) : DlOut :=
  let m := r.m
  let dead (s : State) : State := s.putSlot i.key { Tab.get {} s.slots i.key with valid := false }
  match s.weightPages m.core m.asid i.d.pages i.d.wva i.d.wbytes.toNat with
  | (.error e, s) => e.out s (dead s)
  | (.ok (spans, pages), s) =>
    match s.register i.key spans pages with
    | none => .fail 0x219 (dead s)
    | some ranges =>
      let fs := (blocks32 (i.d.n / 32) i.x).map fun b => some (b.map fun x => some (f32.num x))
      match s.allRows m.core m.asid i.d fs with
      | (.error e, s) => e.out s (dead s)
      | (.ok ys, s) =>
        let d := i.d
        let version := d.version + 1
        r.finish s i
          { d with valid := true, version, count := 0, reason, refreshes := d.refreshes + 1, spans, ranges }
          ys i.x (runReply version reason)

/-- A delta run on quantised inputs (R341). -/
def DlRun.delta (r : DlRun) (s : State) (i : DlIn) (xr : List Nat) (qs : List Int) : DlOut :=
  let m := r.m
  let d := i.d
  let factor (q : Int) : Option FNum := if q == 0 then none else some (intNum q)
  let fs := (blocks32 (d.n / 32) qs).map fun b => if b.all fun q => q == 0 then none else some (b.map factor)
  match s.allRows m.core m.asid d fs with
  | (.error e, s) => e.out s s
  | (.ok ds, s) =>
    match s.dlRead m.core m.asid d.yva (4 * d.m) with
    | (.error e, s) => e.out s s
    | (.ok yb, s) =>
      let step := f32.num d.step.toNat
      let ys := ((fwords d.m yb).zip ds).map fun e => addNum e.1 (f32.num (f32.mul .rne false step (f32.num e.2)).1)
      let xs := (xr.zip qs).map fun e => addNum e.1 (FNum.mul (intNum e.2) step).1
      let groups := (List.range (d.n / 8)).map fun g => (qs.drop (8 * g)).take 8
      let skip := (groups.filter fun g => g.all fun q => q == 0).length
      r.finish s i
        { d with
          count := d.count + 1, gskip := d.gskip + BitVec.ofNat 64 skip
          gtotal := d.gtotal + BitVec.ofNat 64 (d.n / 8) } ys xs (runReply d.version 0)

/-- A finite FP32 value. -/
def finite32 (x : Nat) : Bool := (f32.num x).isFin

/-- DL.RUN, and DL.FULL when `full` (R341, R346). -/
def DlRun.run (r : DlRun) (s : State) (full : Bool) : DlOut :=
  let m := r.m
  let xoff := m.wa.toNat
  let yoff := m.wa1.toNat
  let key := slotKey m.asid (bitsAt m.wb 0 8)
  let d := Tab.get {} s.slots key
  if bitsAt m.wb 9 7 != 0 || xoff % 4 != 0 || yoff % 4 != 0 then .fail 0x216 s
  else if !d.bound then .fail 0x217 s
  else if Nat.blt r.limit (xoff + 4 * d.n) || Nat.blt r.limit (yoff + 4 * d.m) then .fail 0x214 s
  else
    let x := fwords d.n (r.get s xoff (4 * d.n))
    let s := s.consume m.asid (localBase m.core m.gslot + xoff) (4 * d.n)
    let i : DlIn := { d, key, x, yoff, clamped := 0 }
    let reason :=
      if !d.valid then 1
      else if bitsAt m.wb 8 1 == 1 && d.version.toNat != bitsAt m.wb 16 16 then 2
      else if full then 3
      else if Nat.ble d.p d.count then 4
      else 0
    if reason != 0 then r.refresh s i reason
    else match s.dlRead m.core m.asid d.xva (4 * d.n) with
      | (.error e, s) => e.out s s
      | (.ok b, s) =>
        let xr := fwords d.n b
        if !(x.all finite32 && xr.all finite32) then r.refresh s i 5
        else
          let step := f32.num d.step.toNat
          let raw := (x.zip xr).map fun e => quantise (f32.num e.1) (f32.num e.2) step
          let nc := (raw.filter fun q => Nat.blt 7 q.natAbs).length
          let i := { i with clamped := nc }
          if Nat.blt d.clamp nc then r.refresh s i 6
          else
            let clip (q : Int) : Int := if 7 < q then 7 else if q < -7 then -7 else q
            r.delta s i xr (raw.map clip)

/-! ## DL.INV, DL.QRY and DL.CFG -/

/-- DL.INV (R347). -/
def DlRun.inv (r : DlRun) (s : State) : DlOut :=
  let m := r.m
  let key := slotKey m.asid (bitsAt m.wb 0 8)
  let d := Tab.get {} s.slots key
  if bitsAt m.wb 9 23 != 0 then .fail 0x216 s
  else if !d.bound then .fail 0x217 s
  else if bitsAt m.wb 8 1 == 1 then .done d.status ((s.cacheSlot r.cl key).putSlot key {})
  else .done d.status ((s.cacheSlot r.cl key).putSlot key { d with valid := false, winv := d.winv + 1 })

/-- DL.QRY (R347, R348). -/
def DlRun.qry (r : DlRun) (s : State) : DlOut :=
  let m := r.m
  let key := slotKey m.asid (bitsAt m.wb 0 8)
  let d := Tab.get {} s.slots key
  let none_ := m.wa == 0xFFFFFFFF
  if bitsAt m.wb 8 24 != 0 || (!none_ && m.wa.toNat % 128 != 0) then .fail 0x216 s
  else if !none_ && Nat.blt r.limit (m.wa.toNat + 128) then .fail 0x214 s
  else
    let s := if d.bound then s.cacheSlot r.cl key else s
    let s := if none_ then s
      else r.put s m.wa.toNat (if d.bound then d.record m.asid else List.replicate 128 0)
    .done d.status s

/-- DL.CFG (R348). -/
def DlRun.cfg (r : DlRun) (s : State) : DlOut :=
  let m := r.m
  let key := slotKey m.asid (bitsAt m.wb 0 8)
  let d := Tab.get {} s.slots key
  let p := bitsAt m.wa1 16 7
  if bitsAt m.wb 8 24 != 0 || bitsAt m.wa1 24 8 != 0 || (m.wa != 0 && !stepOk m.wa) || Nat.blt 64 p then .fail 0x216 s
  else if !d.bound then .fail 0x217 s
  else
    let d := { d with
      step := if m.wa == 0 then d.step else m.wa
      p := if p == 0 then d.p else p
      clamp := if bitsAt m.wa1 23 1 == 1 then d.clamp else bitsAt m.wa1 0 16 }
    .done d.status ((s.cacheSlot r.cl key).putSlot key d)

/-- A DELTA command of the group that owns the context. -/
def DlRun.go (r : DlRun) (s : State) : DlOut :=
  match r.m.fn with
  | 0x80 => r.bind s
  | 0x81 => r.run s false
  | 0x82 => r.run s true
  | 0x83 => r.inv s
  | 0x84 => r.qry s
  | _ => r.cfg s

end Sys2Proof.Machine
end

