-- ==== Sys2Proof/Machine/Mxe.lean ====
section
/-! DEFINITION. The matrix engine takes commands from its inboxes (R311): faults and frozen contexts (R320,
R334), ordered contributions (R326) and the arbitration of contexts. -/

namespace Sys2Proof.Machine

/-- The packet image (R318). -/
def MPkt.image (m : MPkt) (k : Nat) : List Byte :=
  [BitVec.ofNat 8 (m.fn % 128), BitVec.ofNat 8 k, BitVec.ofNat 8 m.gslot, BitVec.ofNat 8 m.slot] ++
  bytesLE 4 m.wa.toNat ++ bytesLE 4 m.wa1.toNat ++ bytesLE 4 m.wb.toNat ++ bytesLE 8 m.pc.toNat ++
  bytesLE 8 m.mcv.toNat ++ [BitVec.ofNat 8 m.mci] ++ List.replicate 31 0

/-- A DELTA command. -/
def MPkt.isDelta (m : MPkt) : Bool := Nat.ble 0x80 m.fn

/-- A packet leaves its inbox, with a reply. -/
def State.endMx (s : State) (cl k : Nat) (m : MPkt) (v : Word) : State :=
  (s.modFctx cl k fun f => { f with inbox := f.inbox.filter fun x => x.id != m.id }).replyAll m.id v

/-- Changes a packet in its inbox. -/
def State.setMx (s : State) (cl k : Nat) (m : MPkt) : State :=
  s.modFctx cl k fun f => { f with inbox := f.inbox.map fun x => if x.id == m.id then m else x }

/-- A command is discarded and reported (R320, R344). -/
def State.failMx (s : State) (cl k : Nat) (m : MPkt) (c : Cause) (va : DWord) : State :=
  let frozen := (s.fctx cl k).frozen.isSome
  let s := s.modFctx cl k fun f => { f with cause := if f.cause == 0 then c else f.cause }
  let s := s.endMx cl k m (if m.isDelta then failWord c else 0)
  s.postAsync { asid := m.asid, cause := c, engine := 2, frozen, gslot := m.gslot, slot := m.slot, core := m.core,
                lid := m.lid, pc := m.pc, addr := va, image := some (m.image k), op := m.id }

/-- A violation freezes the context (R334, R402), while the group of the command still owns it (log entry 111). -/
def State.freezeMx (s : State) (cl k : Nat) (m : MPkt) (c : Cause) (va : DWord) : State :=
  (s.modFctx cl k fun f =>
    { f with frozen := if f.owner == some (ownerCode m.core m.gslot) then some c else f.frozen }).failMx cl k m c va

/-- A free record of the MXE, which the cores of its cluster share (R326). -/
def State.freeMxRec (s : State) (cl : Nat) : Option Nat :=
  (List.range 16).find? fun i =>
    !([2 * cl, 2 * cl + 1].any fun c => (s.core c).recs.any fun r => r.src == 3 && r.idx == i)

/-- A command waits for the replay of an access, or for a free record (R326, R345). -/
def State.holdMx (s : State) (cl k : Nat) (m : MPkt) (w : Want) (code kind : Nat) : State :=
  match s.freeMxRec cl with
  | none => s
  | some idx =>
    let r : FRec :=
      { src := 3, idx, core := m.core, kind, access := code, asid := m.asid, gslot := m.gslot, slot := m.slot, pc := 0
        posted := s.clock
        accs := [{ grp := m.id, lane := 32, va := w.va, pc := 0, kind := .cmd m.id }] }
    (s.setMx cl k { m with held := true }).addRec r kind

/-- One ordered contribution of a command that has started, of the tile and at the ORBASE that it started with (R312,
R326). -/
def State.orderedStep (s : State) (cl k : Nat) (m : MPkt) : State :=
  let i := m.done - 1
  let va : DWord := m.base + BitVec.ofNat 64 (64 * i)
  match s.translate m.core .mxe m.asid { r := true, w := true } va with
  | (.miss kind, s) => s.holdMx cl k m ⟨true, va, 64⟩ 2 kind
  | (.viol c, s) => s.freezeMx cl k m c va
  | (.ok pa _, s) =>
    if !(inDev pa || inSlice pa) then s.freezeMx cl k m 0x144 va
    else if !s.windowOk m.asid pa then s.freezeMx cl k m 0x142 va
    else
      let v : Word := m.tile.getD i 0
      let e : SQ :=
        { id := m.id, grp := m.id, lane := 0, pc := m.pc, slot := m.slot, gslot := m.gslot, asid := m.asid, pa
          kind := .ored 0 m.wb.toNat (v.setWidth 64) false, needs := [], va }
      match s.oreContribute m.core e 0 m.wb.toNat (v.setWidth 64) with
      | (true, s) => s
      | (false, s) => if m.done == 1024 then s.endMx cl k m 0 else s.setMx cl k { m with done := m.done + 1 }

/-- The head of an inbox has started its contributions. -/
def State.contributing (s : State) (cl k : Nat) : Option MPkt :=
  match (s.fctx cl k).inbox with
  | m :: _ => if m.done != 0 && !m.held then some m else none
  | [] => none

/-- The command of a context that may start: the head of its inbox, after what it must follow. -/
def State.headReady (s : State) (cl k : Nat) : Option MPkt × State :=
  match (s.fctx cl k).inbox with
  | [] => (none, s)
  | m :: _ =>
    if m.held || m.done != 0 then (none, s)
    else match s.settleNeeds m.core m.needs with
      | (true, s) => (some m, s)
      | (false, s) => (none, s)

/-- The next context with a command that may start, in cyclic order (R311). -/
def State.nextMx (s : State) (cl : Nat) : List Nat → Option (Nat × MPkt) × State
  | [] => (none, s)
  | k :: t => match s.headReady cl k with
    | (some m, s) => (some (k, m), s)
    | (none, s) => State.nextMx s cl t

/-- Bytes of local memory of the group of a command. -/
def State.mxLimit (s : State) (m : MPkt) : Nat :=
  match s.group? m.core m.gslot with
  | some g => 1024 * g.localkb
  | none => 0

/-- Group-local memory as a command sees it. -/
def State.mxMem (s : State) (m : MPkt) : MxMem where
  limit := s.mxLimit m
  read off n := match s.group? m.core m.gslot with
    | some g => g.loc.read off n
    | none => List.replicate n 0

/-- Bytes of group-local memory that a command has read count as consumed (R407). -/
def State.mxConsume (s : State) (m : MPkt) (l : List (Nat × Nat)) : State :=
  if s.poison.isEmpty then s
  else l.foldl (fun s e => s.consume m.asid (localBase m.core m.gslot + e.1) e.2) s

/-- An ordered MX.STACC (R326). -/
def MPkt.ordered (m : MPkt) : Bool := m.fn == 0x09 && m.wa.toNat / 16 % 8 == 6

/-- A command of a context executes (R311, R320). -/
def State.runMx (s : State) (cl k : Nat) (m : MPkt) : State :=
  let f := s.fctx cl k
  let owns := f.owner == some (ownerCode m.core m.gslot)
  if m.isDelta then
    if !owns then s.failMx cl k m 0x212 0
    else match f.frozen with
      | some c => s.failMx cl k m c 0
      | none => match ({ m, cl, limit := s.mxLimit m } : DlRun).go s with
        | .wait w kind s => s.holdMx cl k m w (if w.write then 5 else 4) kind
        | .viol w c s => s.freezeMx cl k m c w.va
        | .fail c s => s.failMx cl k m c 0
        | .done v s => s.endMx cl k m v
  else if m.ordered && owns && f.frozen.isNone && (staccBad f m.wa.toNat m.wb.toNat).isNone then
    s.setMx cl k { m with done := 1, base := Tab.get 0 f.mc 4, tile := f.tile (m.wa.toNat % 16) }
  else match f.take (s.mxMem m) m with
    | .bad c f' =>
      let s := if c == 0x211 then s.mxConsume m (f.reads m) else s
      (s.modFctx cl k fun _ => f').failMx cl k m c 0
    | .ok f' ws v =>
      let s := (s.mxConsume m (f.reads m)).modFctx cl k fun _ => f'
      (ws.foldl (fun s e => s.bankWrite (localBase m.core m.gslot + e.1) e.2) s).endMx cl k m v

/-- MXE_DISPATCH: contributions under way each make one step, and the next context with a command ready executes
it (R311, R326). -/
def execMxeDispatch (cluster : Nat) (s : State) : Out :=
  let s := (List.range 4).foldl (fun s k => match s.contributing cluster k with
    | some m => s.orderedStep cluster k m
    | none => s) s
  let last := (s.cluster cluster).last
  match s.nextMx cluster ((List.range 4).map fun i => (last + 1 + i) % 4) with
  | (some (k, m), s) => .next ((s.modCluster cluster fun c => { c with last := k }).runMx cluster k m)
  | (none, s) => .next s

/-! ## Engine registers -/

/-- What an index of Table 7-6 names. -/
inductive EReg where
  | cd (k : Nat)
  | ms (k : Nat)
  | fjoin
  | sd (k : Nat)
  | mc (k : Nat)
  deriving DecidableEq, Repr

/-- The register of an index; none for one that traps (R170, R309). -/
def engReg (service : Bool) (i : Word) : Option EReg :=
  let n := i.toNat
  if Nat.blt n 0x10 then some (.cd n)
  else if n == 0x20 || n == 0x21 then some (.ms (n - 0x20))
  else if n == 0x30 then some .fjoin
  else if within 0x40 0x4F n then some (.sd (n - 0x40))
  else if within 0x80 0x9F n && !service then some (.mc (n - 0x80))
  else none

/-- The bits of a register that ENGW writes (Tables 5-7, 8-6 and 12-7). -/
def EReg.mask (r : EReg) : DWord :=
  match r with
  | .cd k => if k % 8 == 7 then 0x37 else BitVec.allOnes 64
  | .ms k => if k == 1 then 0x3FFFFFFFF else BitVec.allOnes 64
  | .fjoin => BitVec.allOnes 64
  | .sd k => match k % 4 with
    | 2 => 0x17FFFFFFFF
    | 3 => 0
    | _ => BitVec.allOnes 64
  | .mc k => mcMask k

/-- POS and BOUND of a stream as they are read (Table 5-7). -/
def Wave.posReg (w : Wave) (k : Nat) : DWord :=
  match w.streams.find? fun e => e.1 == k with
  | some e => BitVec.ofNat 64 (e.2.pos % 2 ^ 32 + 2 ^ 32)
  | none => Tab.get 0 w.sd (4 * k + 3)

/-- An engine register of a wave, but for the mc registers. -/
def Wave.readEng (w : Wave) (r : EReg) : DWord :=
  match r with
  | .cd k => Tab.get 0 w.cd k
  | .ms k => if k == 0 then w.ms0 else w.ms1
  | .fjoin => w.fjoin
  | .sd k => if k % 4 == 3 then w.posReg (k / 4) else Tab.get 0 w.sd k
  | .mc _ => 0

/-- Writes an engine register of a wave; fields that are RO keep their value. -/
def Wave.writeEng (w : Wave) (r : EReg) (v : DWord) : Wave :=
  let new := (w.readEng r &&& ~~~r.mask) ||| (v &&& r.mask)
  match r with
  | .cd k => { w with cd := Tab.put 0 w.cd k new }
  | .ms k => if k == 0 then { w with ms0 := new } else { w with ms1 := new }
  | .fjoin => { w with fjoin := new }
  | .sd k => if k % 4 == 3 then w else { w with sd := Tab.put 0 w.sd k new }
  | .mc _ => w

/-- An mc register as a wave reads it: its own earlier mc writes that wait in the inbox count, when its group
owns the context (R170). -/
def State.readMc (s : State) (w : Wave) (i : Nat) : DWord :=
  let f := s.fctx (clusterOf w.core) w.fctx
  let mine := f.inbox.filter fun m => m.fn == 0x7F && m.mci == i && m.core == w.core && m.slot == w.slot
  if f.owner == some (ownerCode w.core w.gslot) && f.frozen.isNone then
    match mine.getLast? with
    | some m => if i == 5 then f.readMc i else m.mcv &&& mcMask i
    | none => f.readMc i
  else f.readMc i

/-- ENGW (R170): an mc write goes through the inbox of the format context (R311). -/
def execEngw (sw : Bool) (d a b : Reg) (s : State) : Out :=
  xOp s sw [(a, 2), (b, 1)] [(d, 1)] fun s w p =>
    let v := w.readW2 a
    match engReg (isService w.core) (w.readW b) with
    | none => s.trapBy w p 0x017
    | some (.mc k) =>
      let cl := clusterOf w.core
      if Nat.ble 32 (s.fctx cl w.fctx).inbox.length then s.stallWave w
      else
        let (id, s) := s.fresh
        let m : MPkt :=
          { id, fn := 0x7F, core := w.core, gslot := w.gslot, slot := w.slot, asid := s.asidOf w, lid := s.lidOf w
            wa := w.readW a, wa1 := w.readW (a + 1), wb := w.readW b, pc := p.pc, mcv := v, mci := k, needs := [] }
        (s.modFctx cl w.fctx fun f => { f with inbox := f.inbox ++ [m] }).xReply w sw d (.val 0)
    | some r => s.xReply (w.writeEng r v) sw d (.val 0)

/-- ENGR (R170): an L-class pair. -/
def execEngr (sw : Bool) (d b : Reg) (s : State) : Out :=
  xOp s sw [(b, 1)] [(d, 2)] fun s w p =>
    match engReg (isService w.core) (w.readW b) with
    | none => s.trapBy w p 0x017
    | some r =>
      let v := match r with
        | .mc k => s.readMc w k
        | r => w.readEng r
      let w := w.addPend (s.checkedOf w) (.w d) (.val (v.setWidth 32))
      s.xReply w sw (d + 1) (.val (v.extractLsb' 32 32))

end Sys2Proof.Machine
end

