-- ==== Sys2Proof/Machine/Recovery.lean ====
section
/-! DEFINITION. ERET (R398), the translation instructions of the service cores (R260 to R262) and the replay of held
work (R266, R403). -/

namespace Sys2Proof.Machine

/-! ## ERET -/

/-- A context is to be terminated with a cause; the first cause stands (R405). -/
def State.kill (s : State) (asid : Nat) (cause : Cause) : State :=
  s.modCtx asid fun c => { c with killed := if c.killed.isNone then some cause else c.killed }

/-- A context is being terminated: ERETs for its waves are discarded (R405, R408). -/
def State.dying (s : State) (asid : Nat) : Bool :=
  match s.ctx? asid with
  | some c => c.killed.isSome
  | none => false

/-- The cores whose waves a service core may answer: those of the cluster of an SVC, and itself (R398). -/
def answers (by_ core : Nat) : Bool :=
  core == by_ || (Nat.blt core 160 && Nat.ble 160 by_ && Nat.blt by_ 240 && core / 2 == by_ - 160)

/-- A wave waits on a message with a sequence. -/
def Wave.waitsOn (w : Wave) (core slot seq : Nat) : Option Waiting :=
  if w.at core slot then
    match w.stat.waiting? with
    | some m => if m.seq.toNat == seq then some m else none
    | none => none
  else none

/-- The cause that TERMINATE gives (Table 17-4). -/
def terminateCause (v : Word) : Cause := if v % 1024 == 0 then 0x3C1 else v.setWidth 10

/-- An ERET acts on a resident wave that waits (Table 17-4). -/
def State.answer (s : State) (w : Wave) (action : Nat) (v : Word) (time : Nat) : State :=
  match action with
  | 3 => s.kill (s.asidOf w) (terminateCause v)
  | 4 => s.endGroup w
  | _ => s.returnFrom w action v time

/-- The saved gang that holds a waiting wave, which no ERET has answered yet (R408). -/
def State.savedWaiter (s : State) (core slot seq : Nat) : Option (Saved × Waiting) :=
  s.saved.findSome? fun v =>
    if v.erets.any fun e => e.core == core && e.slot == slot then none
    else (v.waves.findSome? fun w => w.waitsOn core slot seq).map fun m => (v, m)

/-- Keeps an ERET in the wave block of a saved wave (R408). -/
def State.keepEret (s : State) (id : Nat) (e : Eret) : State :=
  { s with saved := s.saved.map fun v => if v.id == id then { v with erets := v.erets ++ [e] } else v }

/-- ERET, privileged (R398): the tests in the order of the rule. -/
def execEret (c : Ctl) (d a b : Reg) (s : State) : Out :=
  waveOp s c.s c.p [(d, 1), (a, 1), (b, 1)] [] [] [] [] [] fun s w v p u l _ =>
    let tok := (v.readG a l).toNat
    let action := (v.readG b l).toNat
    let core := tok % 256
    let slot := tok / 256 % 128
    let seq := tok / 65536
    let time := s.clock + 16 + 4 * hops (clusterOf w.core) (clusterOf core)
    if !isService w.core then s.trapBy w p 0x004
    else if tok / 2 ^ 15 % 2 == 1 || !answers w.core core || Nat.blt 4 action then s.trapBy w p 0x019
    else match s.waves.findSome? fun x => (x.waitsOn core slot seq).map fun m => (x, m) with
      | some (x, m) =>
        if !isService x.core && s.dying (s.asidOf x) then s.passBy w u c.s
        else if !actionAllowed m.kind action then s.trapBy w p 0x019
        else (s.passBy w u c.s).answer x action (v.readG d l) time
      | none => match s.savedWaiter core slot seq with
        | none => s.passBy w u c.s
        | some (x, m) =>
          if s.dying x.asid then s.passBy w u c.s
          else if !actionAllowed m.kind action then s.trapBy w p 0x019
          else (s.passBy w u c.s).keepEret x.id ⟨w.core, core, slot, action, v.readG d l⟩

/-! ## The group of a record -/

/-- The group that a record counts for: it is resident or saved; parked capsules and service cores have none. -/
def State.modRecGroup (s : State) (r : FRec) (f : Group → Group) : State :=
  let ours (g : Group) : Bool := g.core == r.core && g.asid == r.asid
  if (r.src == 0 && r.slot == 256) || isService r.core then s
  else if Nat.blt r.gslot 65536 then s.modGroup r.core r.gslot fun g => if ours g then f g else g
  else { s with saved := s.saved.map fun v =>
    { v with groups := v.groups.map fun g => if ours g && v.away g.gslot == r.gslot then f g else g } }

/-- The master of a record is resident. -/
def State.recHere (s : State) (r : FRec) : Bool :=
  match r.src with
  | 0 => r.slot == 256 || (s.wave? r.core r.slot).isSome
  | 1 => (s.core r.core).copies.any fun x => r.accs.any fun a => a.grp == x.id
  | _ => true

/-! ## Commands -/

/-- A command acts at its unit. -/
def State.runCmd (s : State) (x : Cmd) : State :=
  match x.maj, x.fn with
  | 0x3E, 0 => s.runLaunch x
  | 0x3E, _ => s.runFork x
  | 0x3C, _ => s.runHbind x
  | 0x3D, 6 => s.runCapPark x
  | 0x3D, _ => s.runCapLoad x
  | _, _ => s.runTrav x

/-- A command that waits acts, after the earlier ones of its wave to the same unit. -/
def State.command (s : State) (id : Nat) : State :=
  match s.cmds.find? fun x => x.id == id with
  | none => s
  | some x =>
    if x.held || s.cmds.any fun y => Nat.blt y.id x.id && y.core == x.core && y.slot == x.slot && y.maj == x.maj
    then s else s.runCmd x

/-- A command still waits for an access. -/
def State.cmdHeld (s : State) (x : Cmd) : Bool :=
  let mine (a : Acc) : Bool := a.kind == .cmd x.id
  (s.core (recHome x.core)).recs.any (fun r => r.accs.any mine) ||
  s.waves.any fun w => w.core == x.core && w.behind.any mine

/-- After a replay: what waited for want of a record or behind an access tries again, and commands whose access has
been made act (R263, R264). -/
def State.sweep (s : State) (core : Nat) : State :=
  let s := (s.waves.filter fun w => w.core == core && !w.behind.isEmpty).foldl (fun s w =>
    (s.drainBehind core w.slot).resettle core w.slot) s
  let s := if (s.freeRec core 0).isSome then s.replayPark core (recLimit 0) else s
  (s.cmds.filter fun x => x.core == core && x.held && Nat.blt x.slot 65536).foldl (fun s x =>
    if s.cmdHeld x then s
    else
      let x := { x with held := false }
      let s : State := { s with cmds := s.cmds.map fun y => if y.id == x.id then x else y }
      s.runCmd x) s

/-! ## Installing entries -/

/-- Ranges on the watch list (R350). -/
def State.watched (s : State) : List (Nat × Nat) :=
  (s.tlbRanges ++ (s.slots.map fun e => e.2.ranges).flatten).eraseDups

/-- An entry enters the L2 TLB of a cluster; entries of the same page leave the caches before it there, a LOCK entry
apart, which takes the new contents, and a WATCH entry's range is registered for the slots whose weights lie partly in it
(R253, R350; log entry 95). -/
def State.install (s : State) (cl : Nat) (e : TlbE) : State :=
  let s := s.modCluster cl fun c => { c with tlb := installTlb c.tlb e }
  let s := [2 * cl, 2 * cl + 1].foldl (fun (s : State) k =>
    s.modCore k fun c => { c with
      tlb := c.tlb.filterMap fun x =>
        if x.2.same e then (if x.2.lock then some (x.1, { e with lock := true }) else none) else some x }) s
  if e.watch then
    let near (d : DSlot) : Bool := d.bound && d.spans.any fun p => overlaps p.1 p.2 e.range.1 e.range.2
    s.slots.foldl (fun s k =>
      if near k.2 && !k.2.ranges.any fun r => r == e.range
      then s.putSlot k.1 { k.2 with ranges := k.2.ranges ++ [e.range] } else s) s
  else s

/-- The entry of Table 11-1. -/
def tlbEntry (e : Nat) : TlbE :=
  let bit (i : Nat) : Bool := e / 2 ^ i % 2 == 1
  { r := bit 1, w := bit 2, x := bit 3, a := bit 4, d := bit 5, g := bit 6, mig := bit 7, watch := bit 8, lock := bit 9
    size := e / 2 ^ 10 % 4, cache := e / 2 ^ 12 % 4, asid := e / 2 ^ 16 % 2 ^ 16, vpn := e / 2 ^ 32 % 2 ^ 45
    pfn := e / 2 ^ 80 % 2 ^ 34 }

/-- The page and the frame are aligned to the size. -/
def TlbE.aligned (e : TlbE) : Bool := e.vpn * 4096 % 2 ^ e.shift == 0 && e.pfn * 4096 % 2 ^ e.shift == 0

/-- Arguments that TLBW refuses, whatever record the token names (R260). -/
def State.tlbwBad (s : State) (core e t : Nat) : Bool :=
  let x := tlbEntry e
  let locked := ((s.cluster (clusterOf core)).tlb.filter fun y => y.lock && y.set == x.set).length
  e / 2 ^ 14 % 4 != 0 || e / 2 ^ 77 % 8 != 0 || e / 2 ^ 114 != 0 || t / 2 ^ 20 % 2 ^ 9 != 0 || x.cache == 3 ||
  (e % 2 == 1 && !x.aligned) || (t / 2 ^ 29 % 4 == 3) || (x.lock && Nat.ble 2 locked) ||
  (Nat.ble 240 core && t / 2 ^ 31 == 1)

/-- A removal matches an entry (Table 11-4). -/
def Tlbi.matches (t : Tlbi) (e : TlbE) : Bool :=
  match t.kind with
  | 0 => (e.g || e.asid == t.asid) && e.covers t.va
  | 1 => e.asid == t.asid && !e.g
  | 2 => e.covers t.va
  | _ => true

/-- The master of a record is frozen, and the record is free (R260, R402). A CACHE operation is a no-op instead, and
nothing is frozen (R197). -/
def State.failRec (s : State) (home : Nat) (r : FRec) (cause : Cause) : State :=
  let s := s.dropRec home r.src r.idx
  let va : DWord := match lowestAcc r.accs with
    | some a => a.va
    | none => 0
  match r.src with
  | 0 =>
    if r.slot == 256 then
      let (mine, rest) := (s.core home).parking.partition fun p => p.idx == r.idx
      (mine.foldl (fun s p => s.parkDead home p.caps 0x30F p.cmd p.slot)
        (s.modCore home fun c => { c with parking := rest })).sweep r.core
    else match r.accs.filter fun a => !a.kind.isCache with
      | [] => (s.replayWave home { r with accs := [] }).sweep r.core
      | bad => s.freezeWave r.core r.slot cause bad
  | 1 => match (s.core r.core).copies.find? fun x => r.accs.any fun a => a.grp == x.id with
    | some x => s.freezeCopy r.core x cause va
    | none => s
  | 2 => match (s.core r.core).trp.threads.find? fun t => t.num == r.idx with
    | none => s
    | some t => match t.stat with
      | .held h => s.failHold r.core t h cause va
      | .posting _ => s.endWith r.core t cause true va false fun s => s.dropThread r.core t.num
      | .ready => s.endFault r.core t cause true va
  | _ =>
    let cl := clusterOf r.core
    match (List.range 4).findSome? fun k =>
        ((s.fctx cl k).inbox.find? fun m => r.accs.any fun a => a.grp == m.id).map fun m => (k, m) with
    | some (k, m) => s.freezeMx cl k m cause va
    | none => s

/-- A record that TLBW may still answer. -/
def FRec.outstanding (r : FRec) : Bool := !r.frozen && !r.ready && r.fail.isNone

/-- TLBW with an outstanding record (R260). `add` installs the entry. -/
def State.answerRec (s : State) (home : Nat) (r : FRec) (e : TlbE) (t : Nat) (add : State → State) : State :=
  let cause : Cause := BitVec.ofNat 10 (t / 2 ^ 10)
  if t / 2 ^ 30 % 2 == 1 then
    if s.recHere r then s.failRec home r cause else s.setRec home { r with fail := some cause, tlbis := [] }
  else if t / 2 ^ 29 % 2 == 1 then
    if r.missing then s
    else (s.setRec home { r with missing := true }).modRecGroup r fun g => { g with missing := g.missing + 1 }
  else
    let s := if r.missing then s.modRecGroup r fun g => { g with missing := g.missing - 1 } else s
    if r.tlbis.any fun x => x.matches e then
      let q : FRec := { r with missing := false, tlbis := [], kind := 3, posted := s.clock }
      (s.setRec home q).postRec q 3
    else (add s).setRec home { r with missing := false, ready := true, tlbis := [] }

/-- TLBW installs its entry: the token names no outstanding record, or one that is to be replayed. -/
def State.tlbwAdds (r : Option FRec) (e : TlbE) (t : Nat) : Bool :=
  match r with
  | none => true
  | some r => t / 2 ^ 29 % 4 == 0 && !r.tlbis.any fun x => x.matches e

/-- The outstanding record that a token names (Table 11-3). -/
def State.tokenRec (s : State) (cl t : Nat) : Option FRec :=
  if t / 2 ^ 31 == 0 then none
  else match s.rec? (2 * cl + t % 2) (t / 2 ^ 8 % 4) (t / 2 % 128) with
    | some r => if r.outstanding then some r else none
    | none => none

/-- TLBW, privileged (R260, R350). -/
def execTlbw (c : Ctl) (a b : Reg) (s : State) : Out :=
  waveOp s c.s c.p [(a, 4), (b, 1)] [] [] [] [] [] fun s w v p u l _ =>
    let e := (v.readG2 (a + 2) l ++ v.readG2 a l).toNat
    let t := (v.readG b l).toNat
    let x := tlbEntry e
    let cl := clusterOf w.core
    let r := s.tokenRec cl t
    let add (s : State) : State := if e % 2 == 1 then s.install cl x else s
    if !isService w.core then s.trapBy w p 0x004
    else if s.tlbwBad w.core e t then s.trapBy w p 0x103
    else if x.watch && State.tlbwAdds r x t && Nat.blt 4096 (add s).watched.length then s.trapBy w p 0x103
    else
      let s := s.passBy w u c.s
      match r with
      | none => add s
      | some r => s.answerRec (recHome (2 * cl + t % 2)) r x t add

/-! ## TLBI and TLBSYNC -/

/-- The cache of a removal holds, with a core of its cluster, the entries of a set (R251, R261). -/
def Tlbi.keeps (t : Tlbi) (core set : Nat) : Bool :=
  t.unit_ != 0 && core == 2 * t.cluster + (t.unit_ - 1) / 5 && (set - 15) == (t.unit_ - 1) % 5

/-- TLBI, privileged (R261): each translation cache of the scope is to remove the matching entries. -/
def execTlbi (c : Ctl) (a b : Reg) (s : State) : Out :=
  waveOp s c.s c.p [(a, 2), (b, 1)] [] [] [] [] [] fun s w v p u l _ =>
    let va := v.readG2 a l
    let t := (v.readG b l).toNat
    let kind := t / 2 ^ 16 % 4
    if !isService w.core then s.trapBy w p 0x004
    else if t / 2 ^ 19 != 0 || (kind % 2 == 0 && !canonical va) then s.trapBy w p 0x103
    else
      let (id, s) := s.fresh
      let cls := if t / 2 ^ 18 % 2 == 1 then List.range 80 else [clusterOf w.core]
      let new := (cls.map fun k => (List.range 10).map fun unit_ =>
        ({ id, by_ := w.core, cluster := k, unit_, asid := t % 65536, kind, va } : Tlbi)).flatten
      let s : State := { s with tlbis := s.tlbis ++ new }
      s.passBy w u c.s

/-- A translation cache removes the entries that a TLBI matches; one before the L2 TLB has done so for good once the L2
TLB has. When the L2 TLB does, the fault messages posted before are marked. The slots bound to the pages of removed WATCH
entries are invalidated, once for each range (R260, R261, R350; log entry 18). -/
def State.actTlbi (s : State) (k : Nat) : State :=
  match s.tlbis[k]? with
  | none => s
  | some t =>
    if t.acted then s
    else
      let l2 := t.unit_ == 0
      let cores := [2 * t.cluster, 2 * t.cluster + 1]
      let hit (c : Nat) (e : Nat × TlbE) : Bool := t.keeps c e.1 && t.matches e.2
      let gone := if l2 then (s.cluster t.cluster).tlb.filter t.matches
        else (cores.map fun c => ((s.core c).tlb.filter (hit c)).map fun e => e.2).flatten
      let last := l2 || !s.tlbis.any fun x => x.id == t.id && x.cluster == t.cluster && x.unit_ == 0 && !x.acted
      let new := ((gone.filter fun e => e.watch).map TlbE.range).eraseDups.filter fun r => !t.ranges.any fun x => x == r
      let s := if l2 then s.modCluster t.cluster fun c => { c with tlb := c.tlb.filter fun e => !t.matches e } else s
      let s := cores.foldl (fun (s : State) c => s.modCore c fun x =>
        if l2 then
          { x with recs := x.recs.map fun r => if r.outstanding then { r with tlbis := r.tlbis ++ [t] } else r }
        else { x with tlb := x.tlb.filter fun e => !hit c e }) s
      let s : State := { s with tlbis := s.tlbis.zipIdx.map fun e =>
        let u : Tlbi := if e.1.id == t.id then { e.1 with ranges := e.1.ranges ++ new } else e.1
        if e.2 == k then { u with acted := last } else u }
      s.invalidate fun r => new.any fun x => x == r

/-- An access of a context at a VA may have been translated by an entry that a TLBI removes. -/
def Tlbi.touches (t : Tlbi) (asid : Nat) (va : DWord) : Bool :=
  match t.kind with
  | 0 => va57 va / 2 ^ 30 == va57 t.va / 2 ^ 30
  | 1 => asid == t.asid
  | 2 => va57 va / 2 ^ 30 == va57 t.va / 2 ^ 30
  | _ => true

/-- The accesses of a core that TLBSYNC waits for (R262). -/
def State.syncTodos (s : State) (ts : List Tlbi) (core : Nat) : List Todo :=
  let hit (asid : Nat) (va : DWord) : Bool := ts.any fun t => t.cluster == clusterOf core && t.touches asid va
  (((s.core core).sq.filter fun e => !inLocal e.pa && hit e.asid e.va).map fun e => Todo.entry e.id) ++
  ((s.waves.filter fun w => w.core == core).map fun w => w.pend.filterMap fun p => match p.src with
    | .mem grp va _ pa _ _ _ => if !inLocal pa && hit (s.asidOf w) va then some (Todo.load w.slot grp pa) else none
    | _ => none).flatten

/-- Store-queue entries that TLBSYNC still waits for. -/
def State.syncLeft (s : State) (ts : List Tlbi) : List Nat :=
  (s.cores.map fun e => (s.syncTodos ts e.1).filterMap fun t => match t with
    | .entry id => some id
    | .load _ _ _ => none).flatten

/-- The fault records that TLBSYNC still waits for. -/
def State.syncRecs (s : State) (by_ : Nat) : List (Nat × Nat × Nat) :=
  (s.cores.map fun e => (e.2.recs.filter fun r => r.awaits by_).map fun r => (e.1, r.src, r.idx)).flatten

/-- TLBSYNC, privileged (R262). -/
def execTlbsync (c : Ctl) (s : State) : Out :=
  waveOp s c.s c.p [] [] [] [] [] [] fun s w _ p u _ _ =>
    if !isService w.core then s.trapBy w p 0x004
    else
      let s := (List.range s.tlbis.length).foldl (fun (s : State) k =>
        if (s.tlbis[k]?.map fun t => t.by_ == w.core) == some true then s.actTlbi k else s) s
      let ts := s.tlbis.filter fun t => t.by_ == w.core
      let s := s.cores.foldl (fun (s : State) e => s.forceAll e.1 (s.syncTodos ts e.1)) s
      let recs := s.syncRecs w.core
      let left := s.syncLeft ts
      match s.wave? w.core w.slot with
      | none => s
      | some w =>
        if !recs.isEmpty then s.setWave { w with stat := .tlbsync recs }
        else if !left.isEmpty then s.waitFor w left
        else
          let s : State := { s with tlbis := s.tlbis.filter fun t => t.by_ != w.core }
          s.passBy w u c.s

/-! ## Replays -/

/-- Replays a record: its access is made once (R266, R403). -/
def State.replayRec (s : State) (home : Nat) (r : FRec) : State :=
  match r.src with
  | 0 =>
    if r.slot == 256 then ((s.dropRec home 0 r.idx).replayPark home r.idx).sweep r.core
    else (s.replayWave home r).sweep r.core
  | 1 => match (s.core r.core).copies.find? fun x => r.accs.any fun a => a.grp == x.id with
    | some x => (s.dropRec home 1 r.idx).setCopy r.core { x with held := false }
    | none => s.dropRec home 1 r.idx
  | 2 =>
    let s := s.dropRec home 2 r.idx
    match (s.core r.core).trp.threads.find? fun t => t.num == r.idx with
    | none => s
    | some t => match t.stat with
      | .held h => s.replayThread r.core t h
      | .posting p => s.post r.core t p
      | .ready => s
  | _ =>
    let cl := clusterOf r.core
    let s := s.dropRec home 3 r.idx
    (List.range 4).foldl (fun s k => s.modFctx cl k fun f =>
      { f with inbox := f.inbox.map fun m => if r.accs.any fun a => a.grp == m.id then { m with held := false } else m }) s

/-- FAULT_REPLAY (R266): a record whose TLBW has come, of a master that is resident. -/
def execFaultReplay (core src idx : Nat) (s : State) : Out :=
  match s.rec? core src idx with
  | none => .next s
  | some r =>
    if !s.recHere r then .next s
    else match r.fail with
      | some c => .next (s.failRec core r c)
      | none => .next (if r.ready then s.replayRec core r else s)

end Sys2Proof.Machine
end

