-- ==== Sys2Proof/Machine/Save.lean ====
section
/-! DEFINITION. The save region of a group (R406, Table 17-9), as bytes. Where the spec names what a part holds and gives no
places in it, the bytes are free values of what it holds (log entry 110). -/

namespace Sys2Proof.Machine

/-- A barrier: phase, arrival count, pending bytes. -/
def Barrier.bytes16 (b : Barrier) : List Byte :=
  bytesLE 4 b.phase ++ bytesLE 4 b.arrivals.length ++ bytesLE 8 (BitVec.ofInt 64 b.bytes).toNat

/-- A copy held on a fault record: the packet, with the count of elements completed in bytes 5 to 7. -/
def Copy.savedBytes (x : Copy) : List Byte := patch x.image 5 (bytesLE 3 (x.next + x.moved.length))

/-- The latched descriptors of a stream (Table 5-7). -/
def Stream.bytes32 (x : Stream) : List Byte :=
  let sz : Nat := match x.size with
    | .b => 0
    | .sb => 1
    | .h => 2
    | .sh => 3
    | _ => 4
  bytesLE 8 x.base.toNat ++ bytesLE 4 x.lstride.toNat ++ bytesLE 4 x.estride.toNat ++ bytesLE 4 x.count ++
  bytesLE 4 (sz + if x.push then 16 else 0) ++ bytesLE 4 x.pos ++ bytesLE 4 1

/-- What the state of a wave block holds: parked, the barrier or the JOINW address that the wave waits on, its trap token and
the ERET that has come, frozen, priority, count, masks and status registers. -/
def Wave.stateFields (w : Wave) : List Nat :=
  let wait : Nat × Nat := match w.stat with
    | .barrier n _ => (1, n)
    | .bytes n => (2, n)
    | .join va _ _ => (3, va.toNat)
    | _ => (0, 0)
  let told : List Nat := match w.stat with
    | .trapped m => [1, m.kind, leNat (token w.core w.slot m.seq), 0]
    | .frozen m => [1, m.kind, leNat (token w.core w.slot m.seq), 1]
    | _ => [0, 0, 0, 0]
  [wait.1, wait.2] ++ told ++
    [w.prio.toNat, w.count, w.live.toNat, w.helper.toNat, w.fpcr.toNat, w.fpsr.toNat, w.astat.toNat]

/-- The parts of a wave block: offset and bytes. -/
def Wave.saveParts (w : Wave) (blocks : Nat) : List (Nat × List Byte) :=
  [(0, (List.range 0x40).map (Config.saveState w.stateFields)),
   (0x40, ((List.range 7).map fun k => bytesLE 4 (maskOf fun l => w.readP (BitVec.ofNat 3 k) l).toNat).flatten),
   (0x100, bytesOf ((List.range 64).map fun k => w.readW (BitVec.ofNat 6 k))),
   (0x200, ((List.range 16).map fun k => bytesLE 8 (Tab.get 0 w.cd k).toNat).flatten),
   (0x280, ((List.range 16).map fun k => bytesLE 8 (if k % 4 == 3 then w.posReg (k / 4) else Tab.get 0 w.sd k).toNat).flatten),
   (0x300, bytesLE 8 w.ms0.toNat ++ bytesLE 8 w.ms1.toNat ++ bytesLE 8 w.fjoin.toNat)] ++
  (w.streams.map fun e => (0x380 + 32 * e.1, e.2.bytes32)) ++
  [(0x400, (w.paths.map Path.bytes32).flatten),
   (0xC00, bytesOf (((List.range (8 * blocks)).map fun n =>
      (List.range 32).map fun l => w.readG (BitVec.ofNat 6 n) l).flatten))]

/-- Rows of an operand, each of n bytes. -/
def operRows (n : Nat) (o : Option Oper) (f : Oper → List (List Byte)) : List Byte :=
  match o with
  | some x => ((f x).map fun r => (r ++ List.replicate n 0).take n).flatten
  | none => []

/-- The parts of a format-context block. The exponent pairs and the group masks of each row stand in 32 bytes (DESIGN CHOICE,
log entry 110). -/
def FCtx.saveParts (f : FCtx) : List (Nat × List Byte) :=
  [(0, ((List.range 6).map fun k => bytesLE 8 (f.readMc k).toNat).flatten),
   (0x1000, ((List.range 16).map fun t => bytesOf (f.tile t)).flatten),
   (0x11000, ((List.range 512).map fun r => bytesLE 4 (f.readM (r / 32) (r % 32)) ++ bytesLE 4 (f.readL (r / 32) (r % 32))).flatten),
   (0x12000, operRows 64 f.latch Oper.elems), (0x12800, operRows 32 f.latch Oper.exps),
   (0x12C00, operRows 32 f.latch fun x => x.masks.map fun r => r.map fun m => BitVec.ofNat 8 m),
   (0x14000, operRows 128 f.bbuf Oper.elems), (0x15000, operRows 32 f.bbuf Oper.exps)]

/-- Copies of a group. -/
def State.copiesOf (s : State) (g : Group) : List Copy :=
  (s.core g.core).copies.filter fun x => x.gslot == g.gslot && x.asid == g.asid

/-- What the header of a group holds: the launch, the coordinates, the gang, the sizes, the owners of the capsule-window
slots, the missing count and the %astat that is to come. -/
def State.headerFields (s : State) (g : Group) : List Nat :=
  let dims : Nat × Nat := match s.launch? g.lid with
    | some l => (max 1 l.recd.gx, max 1 l.recd.gy)
    | none => (1, 1)
  [g.lid, g.index % dims.1, g.index / dims.1 % dims.2, g.index / (dims.1 * dims.2), g.gang, g.waves, g.localkb, g.bars,
    g.cslots] ++ (g.caps.map fun e => match e.2 with
      | some x => 1 + e.1 + 16 * x.owner.getD 128
      | none => 0) ++ [g.missing, 0]

/-- The parts of the region of a group: offset and bytes. -/
def State.saveParts (s : State) (g : Group) : List (Nat × List Byte) :=
  let fc := s.ownedFctx g
  let base := g.wavesOff !fc.isEmpty
  [(0, (List.range 0x100).map (Config.saveHeader (s.headerFields g))),
   (0x100, ((List.range 16).map fun n => (Tab.get {} g.barriers n).bytes16).flatten),
   (0x200, bytesLE 0x200 0),
   (0x400, ((s.copiesOf g).map Copy.savedBytes).flatten), (0x2400, g.loc.read 0 (1024 * g.localkb))] ++
  ((fc.take 1).map fun e => e.2.saveParts.map fun p => (g.fctxOff + p.1, p.2)).flatten ++
  ((s.waves.filter fun w => w.core == g.core && w.gslot == g.gslot).map fun w =>
    (w.saveParts g.blocks).map fun p => (base + 0x2C00 * w.idx + p.1, p.2)).flatten

/-- Writes the region of a group. -/
def State.writeSave (s : State) (c : Ctx) (g : Group) : State :=
  (s.saveParts g).foldl (fun s p => s.bankWrite (c.saveAt g + p.1) p.2) s

end Sys2Proof.Machine
end

