-- ==== Sys2Proof/Machine/Preempt.lean ====
section
/-! DEFINITION. Pre-emption (R177), the switch-out of a gang for missing translations (R265), resumption (R178), and
the saving of traversal threads (R389). -/

namespace Sys2Proof.Machine

/-! ## Parking -/

/-- A wave has parked: it is at a switch point, waits, or is blocked (R177 step 2, R265). -/
def State.parkedNow (s : State) (w : Wave) : Bool :=
  match w.stat with
  | .run => s.readyWave { w with stat := .run } == false && match w.choose with
    | some p => p.made != w.cur
    | none => false
  | .stall => s.faulted w
  | .drain ids sw _ => sw || ids.any fun i => s.alive w.core i
  | .trapping _ _ _ => false
  | .halt _ => false
  | .tlbsync _ => false
  | _ => true

/-- An outstanding result that a saved wave keeps: its access is held on a fault record (R265). -/
def State.keeps (s : State) (p : Pend) : Bool :=
  match p.src with
  | .held _ _ _ => true
  | .reply id => s.cmds.any fun x => x.id == id && x.held
  | _ => false

/-- Lands what a wave has outstanding, as far as it may (R178). -/
def State.landAll (s : State) (core slot : Nat) : State :=
  let n := match s.wave? core slot with
    | some w => w.pend.length
    | none => 0
  (List.range n).foldl (fun s _ =>
    match s.wave? core slot with
    | none => s
    | some w => match w.pend.findIdx? fun p => !s.keeps p with
      | some k => s.land core slot k
      | none => s) s

/-- Store-queue entries as accesses that are to be made again: those that wait for a held access. -/
def SQ.accs (e : SQ) : List Acc :=
  let acc (l : Nat) (k : AccKind) : Acc := { grp := e.grp, lane := l, va := e.va, pc := e.pc, kind := k, word := e.word }
  match e.kind with
  | .store bs => [acc e.lane (.store bs e.needs)]
  | .rmw op none lanes false => lanes.map fun l => acc l.1 (.rmw op l.2.1 l.2.2 false e.needs)
  | .rmw op (some hi) lanes false => lanes.map fun l => acc l.1 (.half op hi l.2.1 false e.id)
  | .rmw _ _ _ _ => []
  | .ored k i v refused => if refused then [] else [acc e.lane (.ored k i v)]
  | .cache inval => [acc e.lane (.cache (if inval then 3 else 2))]

/-- Puts an access into a list by its instruction. -/
def insertAcc (a : Acc) : List Acc → List Acc
  | [] => [a]
  | b :: t => if Nat.blt a.grp b.grp then a :: b :: t else b :: insertAcc a t

/-- A contribution that a reduction engine refuses: it is issued, and is performed whatever becomes of its wave (R227). -/
def SQ.refused (e : SQ) : Bool :=
  match e.kind with
  | .ored _ _ _ r => r
  | _ => false

/-- The accesses of a wave that the store queue still holds wait with the wave, but for refused contributions (R227). -/
def State.unqueue (s : State) (core slot : Nat) : State :=
  let (mine, rest) := (s.core core).sq.partition fun e => e.slot == slot && !e.accs.isEmpty
  if mine.isEmpty then s
  else
    let accs := (mine.map SQ.accs).flatten
    (s.modCore core fun c => { c with sq := rest }).modWave core slot fun w =>
      { w with behind := accs.foldl (fun l a => insertAcc a l) w.behind }

/-- A wave of a gang that is to be saved gets its results, and its accesses are performed (R177, R178). -/
def State.settleWave (s : State) (core slot : Nat) : State :=
  let s := s.flushAll core slot
  let s := s.forceGrps core (s.grpsOf core fun k => k == slot)
  (s.landAll core slot).unqueue core slot

/-! ## Threads -/

/-- A thread that waits in the queue of its processor, to go on from its extension. -/
def Thread.request (t : Thread) : TReq :=
  { va := t.rva, asid := t.asid, gslot := t.gslot, slot := t.slot, lid := t.lid, cmd := t.cmd, queue := some t.cq,
    resume := none, hand := none, needs := [], cont := true, words := t.words }

/-- A thread stands at an instruction boundary, or at the fault record of an instruction that has had no effect yet, and may
be saved there (R389). One that ends, or whose entry is to be posted, goes on. -/
def State.savable (s : State) (core : Nat) (t : Thread) : Bool :=
  match t.stat with
  | .ready => true
  | .held (.fault ..) => false
  | .held _ => true
  | .posting p => !p.ends && (s.rec? core 2 t.num).isSome

/-- A thread is saved, as far as it may be (R389): one that has not started waits again, one with an extension writes
it with STATUS 0. Its fault record stays until it is answered. -/
def State.saveThread (s : State) (core : Nat) (t : Thread) : State :=
  let again (s : State) (r : TReq) : State :=
    (s.dropThread core t.num).modTrp core fun x => { x with queue := x.queue ++ [r] }
  match t.kind, t.start with
  | .record, some r => again s (match t.stat with
      | .held .start => r
      | .held (.status _) => r
      | _ => if r.resume.isSome then { r with began := true, words := t.words } else r)
  | .record, none =>
    if t.ext == 0 || !s.savable core t then s
    else match s.grant core .trav t.asid (t.extWants ++ [t.statusWant]) with
      | (.error (w, .miss k), s) => if (s.rec? core 2 t.num).isSome then s else s.holdThread core t w k
      | (.error (w, .viol c), s) => s.endFault core t c true w.va
      | (.error _, s) => s
      | (.ok ps, s) =>
        let s := s.writeExt core t t.pc 0 ps
        let s := s.engineWrites core 5 (ps.getLast?.getD []) (bytesLE 4 0)
        again (s.keepSeq t t.seq) t.request
  | _, _ => s

/-! ## Saving -/

/-- A gang or a context that is to be saved: its groups, and the threads that go with it. -/
structure Leaving where
  groups : List Group
  threads : List (Nat × Nat)
  deriving DecidableEq, Repr

/-- The threads of some cores. -/
def State.threadsOf (s : State) (f : Nat → Thread → Bool) : List (Nat × Nat) :=
  (s.cores.map fun e => (e.2.trp.threads.filter (f e.1)).map fun t => (e.1, t.num)).flatten

/-- Everything of a group has come to rest (R177 steps 2 and 3). -/
def State.restful (s : State) (g : Group) : Bool :=
  let mine (core gslot : Nat) : Bool := core == g.core && gslot == g.gslot
  (s.waves.all fun w => !mine w.core w.gslot || (s.parkedNow w && w.pend.all s.keeps)) &&
  ((s.copiesOf g).all fun x => x.held) &&
  !((s.core g.core).sq.any fun e => !e.refused && g.slots.any fun k => k == e.slot) &&
  ((s.cluster (clusterOf g.core)).fctx.all fun f => f.inbox.all fun m => !mine m.core m.gslot) &&
  (s.cmds.all fun x => !mine x.core x.gslot || x.held) && !(s.sends.any fun x => mine x.core x.gslot) &&
  !(s.net.any fun p => p.src == g.core && match p.pull with
    | some x => x.1 == g.gslot
    | none => false)

/-- Settles what leaves: whether all of it has come to rest. -/
def State.quiet (s : State) (v : Leaving) : Bool × State :=
  let s := v.threads.foldl (fun s e => match (s.core e.1).trp.threads.find? fun t => t.num == e.2 with
    | some t => s.saveThread e.1 t
    | none => s) s
  let s := (s.waves.filter fun w => v.groups.any fun g => g.at w.core w.gslot).foldl
    (fun s w => if s.parkedNow w then s.settleWave w.core w.slot else s) s
  (v.groups.all s.restful && v.threads.all fun e => !(s.core e.1).trp.threads.any fun t => t.num == e.2, s)

/-- Renames a group slot and the wave slots of a group in what its core keeps. -/
def State.rename (s : State) (core asid fromG toG : Nat) (slot : Nat → Nat) : State :=
  let s := s.modCore core fun c => { c with
    sq := c.sq.map fun e => if e.gslot == fromG && e.asid == asid then { e with gslot := toG, slot := slot e.slot } else e
    recs := c.recs.map fun r =>
      if r.core == core && r.gslot == fromG && r.asid == asid && !(r.src == 0 && r.slot == 256)
      then { r with gslot := toG, slot := if r.src == 0 then slot r.slot else r.slot } else r
    trp := { c.trp with
      queue := c.trp.queue.map fun r => if r.gslot == fromG && r.asid == asid then { r with gslot := toG } else r
      arms := c.trp.arms.map fun a => if a.gslot == fromG && a.asid == asid then { a with gslot := toG } else a } }
  { s with cmds := s.cmds.map fun x =>
      if x.core == core && x.gslot == fromG && x.asid == asid then { x with gslot := toG, slot := slot x.slot } else x }

/-- Writes the save regions of groups that have come to rest and releases what they reserve (R177 steps 4 and 5). -/
def State.saveGroups (s : State) (c : Ctx) (missing : Bool) (gs : List Group) : State :=
  match gs with
  | [] => s
  | h :: _ =>
    let (id, s) := s.fresh
    let s := gs.foldl (fun s g => s.writeSave c g) s
    let ours (w : Wave) : Bool := !isService w.core && gs.any fun g => g.at w.core w.gslot
    let drop (e : Nat × Stream) : Nat × Stream := (e.1, { e.2 with buf := [] })
    let v : Saved :=
      { id, lid := h.lid, asid := h.asid, gang := h.gang, missing, groups := gs
        waves := (s.waves.filter ours).map fun w => { w with streams := w.streams.map drop }
        fctxs := (gs.map fun g => (s.ownedFctx g).map fun e =>
          (clusterOf g.core, e.1, { e.2 with inbox := [] })).flatten
        copies := (gs.map fun g => (s.copiesOf g).map fun x => (g.core, x)).flatten }
    let s := gs.foldl (fun (s : State) g =>
      let s := s.rename g.core g.asid g.gslot (v.away g.gslot) v.away
      let s := s.modCore g.core fun k => { k with copies := k.copies.filter fun x => !(x.gslot == g.gslot && x.asid == g.asid) }
      (s.releaseFctx g.core g.gslot).removeGroup g) s
    { s with saved := s.saved ++ [v] }

/-- Saves groups when all has come to rest; a region that does not fit ends the context (R406). -/
def State.trySave (s : State) (c : Ctx) (missing : Bool) (v : Leaving) (units : List (List Group)) : State :=
  match s.quiet v with
  | (false, s) => s
  | (true, s) =>
    if v.groups.all (s.saveOk c) then
      units.foldl (fun s gs => s.saveGroups c missing (gs.filterMap fun g => s.group? g.core g.gslot)) s
    else s.kill c.asid 0x3C4

/-- The groups of a context that a pre-emption acts on (R181). -/
def State.preemptible (s : State) (asid : Nat) : List Group := s.groups.filter fun g => g.asid == asid && g.part == 0

/-- The gangs, and the handler groups of each core, that are saved and restored together. -/
def gangsOf (gs : List Group) : List (List Group) :=
  let key (g : Group) : Nat × Nat × Nat := if g.hgd.isSome then (1, g.core, 0) else (0, g.lid, g.gang)
  (gs.map key).eraseDups.map fun k => gs.filter fun g => key g == k

/-- A context that has been stopped is saved (R177). With nothing resident and nothing saved it runs again. -/
def State.preempt (s : State) (c : Ctx) : State :=
  let s := (s.preemptible c.asid).foldl (fun s g => if g.ended && s.groupIdle g then s.freeGroup g else s) s
  let gs := s.preemptible c.asid
  let v : Leaving :=
    { groups := gs, threads := s.threadsOf fun k t => t.asid == c.asid && s.partAt (clusterOf k) == 0 }
  if gs.isEmpty && v.threads.isEmpty && !s.saved.any fun x => x.asid == c.asid then
    s.modCtx c.asid fun c => { c with out := false }
  else s.trySave c false v (gangsOf gs)

/-- PREEMPTION (R177): the context stops first, and is saved when all of it has come to rest. -/
def execPreemption (asid : Nat) (s : State) : Out :=
  match s.ctx? asid with
  | none => .next s
  | some c =>
    if c.killed.isSome then .next s
    else if !c.out then .next (s.modCtx asid fun c => { c with out := true })
    else .next (s.preempt c)

/-- GANG_SWITCH_OUT (R265): every wave of the gang is blocked, parked or waits, and translations are missing. -/
def execGangSwitchOut (lid gang : Nat) (s : State) : Out :=
  let gs := s.groups.filter fun g => g.lid == lid && g.gang == gang && g.hgd.isNone && g.part == 0
  let ours (w : Wave) : Bool := !isService w.core && gs.any fun g => g.at w.core w.gslot
  match gs with
  | [] => .next s
  | h :: _ => match s.ctx? h.asid with
    | none => .next s
    | some c =>
      if c.killed.isSome || sumOf gs (fun g => g.missing) == 0 ||
          !(s.waves.all fun w => !ours w || (s.parkedNow w && !s.readyWave w)) then .next s
      else
        let v : Leaving :=
          { groups := gs, threads := s.threadsOf fun k t => t.asid == h.asid && gs.any fun g => g.at k t.gslot }
        .next (s.trySave c true v [gs])

/-! ## Resumption -/

/-- A saved group takes its own slots again, on a core of its partition (R178, R180). -/
def State.slotsFree (s : State) (g : Group) : Bool :=
  let gs := s.groups.filter fun x => x.core == g.core
  s.partAt (clusterOf g.core) == g.part &&
  !(gs.any fun x => x.gslot == g.gslot || x.slots.any fun k => g.slots.any fun i => i == k) &&
  Nat.ble (g.localkb + sumOf gs fun x => x.localkb) 256 && Nat.ble (g.bars + sumOf gs fun x => x.bars) 256 &&
  Nat.ble (g.cslots + sumOf gs fun x => x.cslots) 16 &&
  (List.range 8).all fun p => Nat.ble (g.blocks * (g.slots.filter fun k => partOf k == p).length) (freeBlocks gs p)

/-- Groups fit one after another (R167, R178). -/
def State.allFit (s : State) : List Group → Bool
  | [] => true
  | g :: t => s.slotsFree g && State.allFit { s with groups := s.groups ++ [g] } t

/-- Handler groups saved on the cores of a gang come back with it (R178). -/
def State.withHandlers (s : State) (v : Saved) : List Saved :=
  if v.gang == 0xFFFFFFFF then [v]
  else v :: s.saved.filter fun h => h.gang == 0xFFFFFFFF && h.asid == v.asid &&
    h.groups.any fun g => v.groups.any fun x => x.core == g.core

/-- Restores what was saved together; accesses that waited with a wave are made, and stored ERETs act (R178, R408). -/
def State.restoreSaved (s : State) (v : Saved) : State :=
  let s := v.groups.foldl (fun (s : State) g =>
    let old := s.groupSlots g.core
    let s := ({ s with groups := s.groups ++ [g] } : State).reshare g.core old
    s.rename g.core g.asid (v.away g.gslot) g.gslot fun k => k - v.away 0) s
  let s := v.waves.foldl (fun s w => s.placeWave w) s
  let s := v.fctxs.foldl (fun s e => s.modFctx e.1 e.2.1 fun f => { e.2.2 with inbox := f.inbox }) s
  let s := v.copies.foldl (fun (s : State) e => s.modCore e.1 fun c => { c with copies := c.copies ++ [e.2] }) s
  let s : State := { s with saved := s.saved.filter fun x => x.id != v.id }
  let s := v.erets.foldl (fun s e => match s.wave? e.core e.slot with
    | some w => s.answer w e.action e.value (s.clock + 16 + 4 * hops (clusterOf e.by_) (clusterOf e.core))
    | none => s) s
  v.waves.foldl (fun s w => s.drainBehind w.core w.slot) s

/-- A saved gang may come back: it waits for no missing translation, it fits on its cores with its handler groups,
and its format contexts are unowned there (R178, R265, R332). -/
def State.mayResume (s : State) (v : Saved) : Bool :=
  let vs := s.withHandlers v
  (match s.ctx? v.asid with
    | some c => c.killed.isNone && (!c.out || (s.preemptible v.asid).isEmpty)
    | none => false) &&
  !(v.missing && sumOf v.groups (fun g => g.missing) != 0) &&
  !(v.gang == 0xFFFFFFFF && s.saved.any fun x => x.gang != 0xFFFFFFFF && x.asid == v.asid &&
    x.groups.any fun g => v.groups.any fun y => y.core == g.core) &&
  s.allFit (vs.map fun x => x.groups).flatten &&
  (vs.map fun x => x.fctxs).flatten.all fun e => (s.fctx e.1 e.2.1).owner.isNone

/-- GANG_RESUME: the k-th saved gang comes back, and the context runs (R178). -/
def execGangResume (k : Nat) (s : State) : Out :=
  match s.saved[k]? with
  | none => .next s
  | some v =>
    if s.mayResume v then
      let vs := s.withHandlers v
      let s := s.modCtx v.asid fun c => { c with out := false }
      .next (vs.foldl (fun s x => s.restoreSaved x) s)
    else .next s

end Sys2Proof.Machine
end

