-- ==== Sys2Proof/Machine/Terminate.lean ====
section
/-! DEFINITION. The watchdog (R155, R156), soft errors (R407) and the termination of a context (R405). -/

namespace Sys2Proof.Machine

/-! ## What asks for it -/

/-- The body of a system message: a trap record that carries only its cause (Table 17-2). -/
def systemBody (cause : Cause) : List Byte := bytesLE 2 cause.toNat ++ List.replicate 30 0

/-- log2 of the watchdog's period: the shortest that the launches of the context give (R155). -/
def State.wdogLog (s : State) (asid : Nat) : Nat :=
  (s.launches.filter fun l => l.recd.asid == asid).foldl
    (fun n l => min n (if l.recd.wdog == 0 then 32 else l.recd.wdog)) 40

/-! ## Engines -/

/-- What remains of issued accesses of a context is performed, as far as it may be. -/
def State.forceCtx (s : State) (asid : Nat) : State :=
  s.cores.foldl (fun (s : State) e =>
    s.forceAll e.1 (((s.core e.1).sq.filter fun x => x.asid == asid).map fun x => Todo.entry x.id)) s

/-- The objects of the reduction engines that a context opened or holds an entry of are poisoned, and each other
context with an entry there gets a record, with the VA of the first contribution where that one came from it, and of the
earliest that is held where not (R223, R227). -/
def State.killOre (s : State) (asid : Nat) : State :=
  s.clusters.foldl (fun (s : State) e =>
    let held := e.2.oreHeld
    let mine := e.2.ore.filter fun o => o.asid == asid || held.any fun h => h.pa == o.pa && h.asid == asid
    mine.foldl (fun s o =>
      let there := held.filter fun h => h.pa == o.pa && h.asid != asid
      let others := (there.map fun h => h.asid).eraseDups
      others.foldl (fun s a => match there.find? fun h => h.asid == a with
        | some h => s.oreReport a 0x223 (if o.asid == a then o.va else h.va) h.core 0xFF 0xFF h.index 0
        | none => s) (s.orePoison o.pa 0x223)) s) s

/-- The capsules of a context are parked with a cause: those on their way, in slots, held, and in rings (R305). -/
def State.parkAll (s : State) (asid : Nat) (cause : Cause) : State :=
  let s := s.net.foldl (fun (s : State) p => match p.body with
    | .caps _ _ =>
      if p.asid != asid then s
      else
        let (q, s) := s.pullCaps p
        let s := s.dropPacket p.id
        (match q.body with
          | .caps c _ => s.parkCaps p.src c cause true none none none
          | _ => s)
    | _ => s) s
  let slots (s : State) (g : Group) : State :=
    g.caps.foldl (fun s e => match e.2 with
      | some x => s.parkCaps g.core (g.capsAt e.1 x) cause true none none none
      | none => s) s
  let s := (s.groups.filter fun g => g.asid == asid).foldl (fun (s : State) g =>
    slots (s.setGroup { g with caps := [] }) g) s
  let s := (s.saved.filter fun v => v.asid == asid).foldl (fun s v => v.groups.foldl slots s) s
  s.cores.foldl (fun (s : State) e =>
    let mine := e.2.waiting.filter fun c => c.asid == asid
    let s := s.modCore e.1 fun c => { c with
      held := c.held.filter fun h => h.asid != asid
      covf := c.covf.filter fun x => x.1 != asid }
    mine.foldl (fun s c => s.parkCaps e.1 c cause true none none none) s) s

/-- STATUS 3 in a record of a context that is being terminated: no service core answers for it, so that a translation that
is missing is that of the default tables (R405; log entry 109). -/
def State.statusEnds (s : State) (core asid : Nat) (va : DWord) : State :=
  match s.grant core .trav asid [⟨true, va + 60, 4⟩] with
  | (.ok ps, s) => s.engineWrites core 5 ps.flatten (bytesLE 4 3)
  | (.error _, s) => match s.walkTo asid 3 (va + 60) with
    | some pa => s.engineWrite core 5 pa (bytesLE 4 3)
    | none => s

/-- A thread of a context that is being terminated ends with STATUS 3 and the cause (R405). -/
def State.killThread (s : State) (core : Nat) (t : Thread) (cause : Cause) : State :=
  let s := s.dropRec core 2 t.num
  let entry : Post := ⟨3, [cause.setWidth 32, BitVec.ofNat 32 t.pc, 0], true⟩
  let s : State := match t.kind with
    | .prefetch => s
    | .handed _ _ => s.post core t entry
    | .record =>
      if t.stat == ThStat.held .start then s.statusEnds core t.asid t.rva
      else
        let s : State := s.endFault core (if t.start.isSome then { t with ext := 0 } else t) cause false 0
        match (s.core core).trp.threads.find? fun x => x.num == t.num with
        | some x => match x.stat with
          | .posting _ => s
          | _ => (s.statusEnds core t.asid t.rva).post core t entry
        | none => s
  (s.dropRec core 2 t.num).dropThread core t.num

/-- A thread that a pre-emption has saved, or that was to be resumed again, ends so too. -/
def State.killSaved (s : State) (core : Nat) (r : TReq) (cause : Cause) : State :=
  let s := s.statusEnds core r.asid r.va
  match s.grant core .trav r.asid [⟨false, r.va, 64⟩] with
  | (.error _, s) => s
  | (.ok ps, s) =>
    let (b, s) := s.readPieces r.asid ps.flatten
    let t := { (r.thread core 64).ofRecord b (r.queue.getD (fieldNat b 12 1 % 8)) r.words with seq := s.seqOf r.asid r.va }
    ((s.post core t ⟨3, [cause.setWidth 32, 0, 0], true⟩).dropRec core 2 64).dropThread core 64

/-- The threads of a context end with STATUS 3 (R405). -/
def State.killThreads (s : State) (asid : Nat) (cause : Cause) : State :=
  s.cores.foldl (fun (s : State) e =>
    let mine := e.2.trp.queue.filter fun r => r.asid == asid && (r.cont || r.began)
    let s := s.modTrp e.1 fun x => { x with queue := x.queue.filter fun r => r.asid != asid }
    let s := mine.foldl (fun (s : State) r => s.killSaved e.1 r cause) s
    (e.2.trp.threads.filter fun t => t.asid == asid).foldl (fun (s : State) t => s.killThread e.1 t cause) s) s

/-- The body of a packet belongs to the messages of a context that are discarded. -/
def PBody.discarded (b : PBody) : Bool :=
  match b with
  | .msg .. => true
  | .wake .. => true
  | .ship .. => true
  | _ => false

/-- Queued messages, sends, batches, copies and commands of a context are discarded (R405). -/
def State.dropWork (s : State) (asid : Nat) : State :=
  let core (c : Core) : Core :=
    { c with
      copies := c.copies.filter fun x => x.asid != asid
      inq := c.inq.filter fun m => m.asid != asid
      ovf := c.ovf.filter fun e => e.1 != asid
      batches := c.batches.filter fun b => b.asid != asid
      sq := c.sq.filter fun e => e.asid != asid
      recs := c.recs.filter fun r => !(r.asid == asid && !isService r.core && !(r.src == 0 && r.slot == 256))
      htab := c.htab.filter fun e => e.1 / 16 != asid }
  { s with
    cores := Tab.update {} core s.cores
    clusters := Tab.update {} (fun c => { c with fctx := c.fctx.map fun f =>
      { f with inbox := f.inbox.filter fun m => m.asid != asid } }) s.clusters
    net := s.net.filter fun p => !(p.asid == asid && p.body.discarded)
    sends := s.sends.filter fun x => x.asid != asid
    cmds := s.cmds.filter fun x => x.asid != asid || isService x.core
    handOut := s.handOut.filter fun h => h.asid != asid }

/-! ## The record -/

/-- The demoted paths of the waves of a context, with their waves. -/
def State.demotedPaths (s : State) (asid : Nat) : List (Wave × Path) :=
  let mine := (s.waves.filter fun w => !isService w.core && s.asidOf w == asid) ++
    ((s.saved.filter fun v => v.asid == asid).map fun v => v.waves).flatten
  (mine.map fun w => (w.paths.filter fun p => p.demoted).map fun p => (w, p)).flatten

/-- The record of a termination, and the list of a watchdog (R405). -/
def State.postKilled (s : State) (asid : Nat) (cause : Cause) (paths : List (Wave × Path)) : State :=
  if cause == 0x3C2 then
    (paths.take 255).foldl (fun s e => s.postAsync
      { asid, cause, engine := 7, gslot := e.1.gslot, slot := e.1.slot, core := e.1.core, pc := e.2.pc,
        detail := e.2.loopb })
      (s.postAsync { asid, cause, engine := 8, detail := BitVec.ofNat 64 paths.length })
  else s.postAsync { asid, cause, engine := 8 }

/-- The issued contributions of a context are performed, and its objects poisoned; a contribution that finds room only then is
performed, and its object poisoned too (R227; log entry 100). -/
def State.endOre (s : State) (asid : Nat) : State :=
  let n := ((s.cores.map fun e => (e.2.sq.filter fun x => x.refused && x.asid == asid).length).foldl (· + ·) 0)
  (List.range (n + 1)).foldl (fun s _ => (s.forceCtx asid).killOre asid) (s.forceCtx asid)

/-- A stopped context is terminated (R405): engines, release, completion. -/
def State.terminate (s : State) (asid : Nat) (cause : Cause) : State :=
  let paths := s.demotedPaths asid
  let s := s.endOre asid
  let s := s.killThreads asid cause
  let s := (s.parkAll asid cause).dropWork asid
  let s := (s.groups.filter fun g => g.asid == asid).foldl (fun s g => s.freeGroup g) s
  let s : State := { s with saved := s.saved.filter fun v => v.asid != asid }
  let s := (s.launches.filter fun l => l.recd.asid == asid).foldl
    (fun s l => s.completeLaunch l (0x20000 + cause.toNat)) s
  (s.modCtx asid fun c => { c with out := false, wdog := 0 }).postKilled asid cause paths

/-- Every wave of a context has parked (R405 step 1). -/
def State.allParked (s : State) (asid : Nat) : Bool :=
  s.waves.all fun w => isService w.core || s.asidOf w != asid || s.parkedNow w

/-- A packet that a termination discards, or parks (R305, R405). -/
def Packet.ends (p : Packet) : Bool :=
  p.body.discarded || match p.body with
    | .caps .. => true
    | _ => false

/-- The context holds work: groups, saved gangs, launches, threads, or what else a termination ends. -/
def State.hasWork (s : State) (asid : Nat) : Bool :=
  (s.groups.any fun g => g.asid == asid) || (s.saved.any fun v => v.asid == asid) ||
  (s.launches.any fun l => l.recd.asid == asid) || (s.net.any fun p => p.asid == asid && p.ends) ||
  (s.handOut.any fun h => h.asid == asid) ||
  (s.clusters.any fun e => (e.2.ore.any fun o => o.asid == asid) || e.2.oreHeld.any fun h => h.asid == asid) ||
  s.cores.any fun e => (e.2.trp.threads.any fun t => t.asid == asid) || (e.2.trp.queue.any fun r => r.asid == asid) ||
    (e.2.copies.any fun x => x.asid == asid) || (e.2.sq.any fun x => x.asid == asid) || (e.2.inq.any fun m => m.asid == asid) ||
    (e.2.waiting.any fun c => c.asid == asid)

/-- A context is to be terminated, and the service cores of the clusters where its groups stand are told (R393,
R405). One without work is at its end at once. -/
def State.stopContext (s : State) (asid : Nat) (cause : Cause) : State :=
  if s.dying asid then s
  else
    let cls := ((s.groups.filter fun g => g.asid == asid).map fun g => clusterOf g.core).eraseDups
    let s := cls.foldl (fun s k => s.inject (160 + k) 244 0 asid (.mail 4 244 0 asid (systemBody cause))) (s.kill asid cause)
    if s.hasWork asid then s else s.postKilled asid cause []

/-- WATCHDOG_EXPIRY (R155, R156). -/
def execWatchdogExpiry (asid : Nat) (s : State) : Out :=
  match s.ctx? asid with
  | none => .next s
  | some c =>
    let mine := s.launches.any fun l => l.recd.asid == asid
    .next (if mine && Nat.ble (2 ^ s.wdogLog asid) c.wdog then s.stopContext asid 0x3C2 else s)

/-- SOFT_ERROR: a master of the context has consumed poisoned bytes (R407). -/
def execSoftError (asid : Nat) (s : State) : Out :=
  match s.ctx? asid with
  | none => .next s
  | some c =>
    .next (if c.soft then (s.stopContext asid 0x3C3).modCtx asid fun c => { c with soft := false } else s)

/-- CONTEXT_TERMINATION (R405): a request of the host stops the context; a stopped context is terminated when its waves
have parked. -/
def execContextTermination (asid cause : Nat) (s : State) : Out :=
  match s.ctx? asid with
  | none => .next s
  | some c => match c.killed with
    | none => .next (if cause == 0x3C0 then s.stopContext asid 0x3C0 else s)
    | some k => .next (if s.allParked asid && s.hasWork asid then s.terminate asid k else s)

end Sys2Proof.Machine
end

