-- ==== Sys2Proof/Machine/Boundary.lean ====
section
/-! DEFINITION. What reaches the device from outside: the host (R437 to R442), the peers (R443, R444), the driver's
requests to the root service core (R180, R189, R272, R404, R412), the displays (R448), memory errors (R407), and the
power manager (R452 to R454). -/

namespace Sys2Proof.Machine

/-! ## Answers -/

/-- Something leaves the device. -/
def State.emit (s : State) (os : List Outgoing) : State := { s with out := s.out ++ os }

/-- A host request at an address: with the clock stopped it gets Completer Abort and raises vector 16 (R454), and of a
frozen function Unsupported Request (R402). -/
def State.gate (addr : Nat) (s : State) (f : State → State) : State :=
  if s.stopped then s.emit [.completerAbort addr, .msix 16]
  else if s.hostFrozen then s.emit [.unsupported addr]
  else f s

def hostGate (addr : Nat) (s : State) (f : State → State) : Out := .next (s.gate addr f)

/-- Addresses of BAR2, as host requests are answered by them (R437). -/
def bar2Size : Nat := 2 ^ 37

/-- Bytes that a request names. -/
def reqSize (r : BusReq) : Nat := if r.write then r.data.length else r.len

/-- The part of a request that lies in the memory window of a quadrant (R439). -/
def reqPart (r : BusReq) (q : Nat) : BusReq :=
  let lo := max r.addr (q * 2 ^ 35)
  let n := min (r.addr + reqSize r) ((q + 1) * 2 ^ 35) - lo
  { r with addr := lo, data := (r.data.drop (lo - r.addr)).take n, len := n }

/-- The parts of a request, each with the quadrant whose HSC handles it: the request is split at the boundaries of the
windows (R439). -/
def reqParts (r : BusReq) : List (Nat × BusReq) :=
  ((List.range 4).filter fun q => overlaps r.addr (reqSize r) (q * 2 ^ 35) (2 ^ 35)).map fun q => (q, reqPart r q)

/-- An HSC performs a request, or a part of one (R439). -/
def State.hostDo (s : State) (r : BusReq) : State :=
  if r.write then s.bankWrite r.addr r.data
  else
    let s := s.touch r.addr r.len false
    s.emit [.hostRead r.addr (some (s.mem.read r.addr r.len))]

/-- The HSC of a quadrant performs the requests that wait for it, in the order of their arrival (R250). -/
def State.hscRun (s : State) (q : Nat) : State :=
  (s.hsc.filter fun e => e.1 == q).foldl (fun s e => s.hostDo e.2) { s with hsc := s.hsc.filter fun e => e.1 != q }

/-- The HSC of a quadrant performs the oldest part that waits for it. -/
def State.hscStep (s : State) (q : Nat) : State :=
  match s.hsc.find? fun e => e.1 == q with
  | some e => ({ s with hsc := s.hsc.erase e } : State).hostDo e.2
  | none => s

/-- HOST_MEMORY_REQUEST: a host request to BAR2, untranslated (R437, R439, R250). A request within one window is performed
after those that its HSC has; the parts of a request that crosses wait, each for its own HSC. BAR2 answers nothing before
the memory is trained or in recovery mode (R449, R450). -/
def execHostMemoryRequest (req : BusReq) (s : State) : Out :=
  hostGate req.addr s fun s =>
    if !s.booted || s.recovery || Nat.blt bar2Size (req.addr + reqSize req) then s
    else match reqParts req with
      | [e] => (s.hscRun e.1).hostDo e.2
      | es => { s with hsc := s.hsc ++ es }

/-! ## Queues -/

/-- A range lies in the memory window of a quadrant (R439). -/
def inQuad (q pa n : Nat) : Bool := Nat.ble (q * 2 ^ 35) pa && Nat.ble (pa + n) ((q + 1) * 2 ^ 35)

/-- A queue descriptor obeys Table 22-2. -/
def queueOk (q : Nat) (b : List Byte) : Bool :=
  let ring := fieldNat b 0 8
  let logn := fieldNat b 8 1
  ring % 128 == 0 && within 4 16 logn && inQuad q ring (128 * 2 ^ logn) && Nat.blt (fieldNat b 9 1) 2 &&
  fieldNat b 10 6 == 0 && fieldNat b 24 8 == 0

/-- DOORBELL: the HSC of a quadrant reads the descriptor that the write names, after the requests that it has (R250, R440,
R442). -/
def execDoorbell (quad n : Nat) (s : State) : Out :=
  hostGate (0x10008 + 16 * quad) s fun s =>
    let at_ := Tab.get 0 s.qbase quad + 32 * n
    if !s.booted || s.recovery || Nat.ble 4 quad || Nat.ble 64 n || Tab.get 0 s.versions 0 == 0 then s
    else if !inQuad quad at_ 32 then s.emit [.msix 16]
    else
      let s := s.hscRun quad
      let b := s.mem.read at_ 32
      let rest := s.hostQs.filter fun x => !(x.q == quad && x.n == n)
      if !queueOk quad b then ({ s with hostQs := rest } : State).emit [.msix 16]
      else if fieldNat b 9 1 == 0 then { s with hostQs := rest }
      else
        let logn := fieldNat b 8 1
        let x : HQ := { q := quad, n, ring := fieldNat b 0 8, logn, head := fieldNat b 16 4 % 2 ^ logn,
                        tail := fieldNat b 20 4 % 2 ^ logn }
        { s with hostQs := rest ++ [x] }

/-! ## Registers -/

/-- VERSION_SELECT: the host's selection for an interface, kept when it lies in the advertised range (R442,
Table 22-4). The register keeps the major and 256 times the minor. -/
def execVersionSelect (id major minor : Nat) (s : State) : Out :=
  hostGate (0x1000 + 8 * id) s fun s =>
    if s.recovery || Nat.ble 5 id then s
    else { s with versions := Tab.put 0 s.versions id (if major == 1 && minor == 0 then 1 else 0) }

/-- A field of a register takes a value, unless it is one that the field's table does not allow (R4). -/
def keepUnless (ok : Bool) (new old : Nat) : Nat := if ok then new else old

/-- A head's mode register takes a value, each field by itself; VBLANKS counts from the setting of EN (R4,
Table 22-6). -/
def Head.setMode (h : Head) (v : BitVec 64) : Head :=
  let f (i n : Nat) : Nat := v.toNat / 2 ^ i % 2 ^ n
  { h with
    stride := keepUnless (f 0 18 % 256 == 0) (f 0 18) h.stride
    width := keepUnless (within 1 16384 (f 18 16)) (f 18 16) h.width
    height := keepUnless (within 1 16384 (f 34 16)) (f 34 16) h.height
    fmt := keepUnless (f 50 2 != 3) (f 50 2) h.fmt
    en := v.getLsbD 52
    vblanks := if !h.en && v.getLsbD 52 then 0 else h.vblanks }

/-- A head's flip register takes an address, unless it is no multiple of 8 in device memory (R4, Table 22-6). -/
def Head.setFlip (h : Head) (v : BitVec 64) : Head :=
  let pa := v.toNat % 2 ^ 46
  { h with flippa := keepUnless (pa % 8 == 0 && inDev pa) pa h.flippa }

/-- A QBASE register takes an address, unless it is no multiple of 4,096 or its descriptors do not lie in the window (R4,
Table 22-3). -/
def State.setQbase (s : State) (q v : Nat) : State :=
  { s with qbase := Tab.put 0 s.qbase q (keepUnless (v % 4096 == 0 && inQuad q v 2048) v (Tab.get 0 s.qbase q)) }

/-- Changes a head. -/
def State.modHead (s : State) (k : Nat) (f : Head → Head) : State :=
  { s with heads := s.heads.zipIdx.map fun e => if e.2 == k then f e.1 else e.1 }

/-- REGISTER_WRITE: the RW fields of a register of BAR0 take the value, a field that it would give a value that its table
does not allow stays as it is (R4), and RO registers ignore it (R5, Tables 22-3, 22-6, R443). -/
def execRegisterWrite (off : Nat) (val : BitVec 64) (s : State) : Out :=
  hostGate off s fun s =>
    if s.recovery then s
    else match (List.range 4).find? fun q => off == 0x10000 + 16 * q with
      | some q => s.setQbase q val.toNat
      | none => match (List.range 4).find? fun h => off == 0x20000 + 64 * h with
        | some h => s.modHead h fun x => x.setFlip val
        | none => match (List.range 4).find? fun h => off == 0x20008 + 64 * h with
          | some h => s.modHead h fun x => x.setMode val
          | none => if off == 0x50000 then { s with peerId := val.toNat % 8 } else s

/-- The value of a head's mode register (Table 22-6). -/
def Head.mode (h : Head) : Nat :=
  h.stride + h.width * 2 ^ 18 + h.height * 2 ^ 34 + h.fmt * 2 ^ 50 + (if h.en then 2 ^ 52 else 0)

/-- The capability entry of an interface: the id, the majors 1 to 1 and the minor 0 (R442, Table 22-4). -/
def capEntry (i : Nat) : List Byte := [BitVec.ofNat 8 i, 1, 1, 0, 0, 0, 0, 0]

/-- The register of BAR0 that holds a byte: its offset and its bytes; zero for WO and for reserved ones (R4, R5, R442,
Tables 22-3, 22-6, 22-7, R443). In recovery mode only the capability block stands there (R450). -/
def State.barReg (s : State) (a : Nat) : Nat × List Byte :=
  let reg (base size n : Nat) (f : Nat → List Byte) : Option (Nat × List Byte) :=
    if Nat.ble base a && Nat.blt a (base + size * n) then
      some (base + size * ((a - base) / size), f ((a - base) / size))
    else none
  let head (k : Nat) : Head := s.heads.getD k {}
  let tables : List (Option (Nat × List Byte)) :=
    if s.recovery then [reg 0 8 5 capEntry]
    else
      [reg 0 8 5 capEntry,
       reg 0x1000 8 5 fun i => bytesLE 8 (Tab.get 0 s.versions i),
       reg 0x10000 16 4 fun q => bytesLE 16 (Tab.get 0 s.qbase q),
       reg 0x20000 64 4 fun k =>
         bytesLE 8 (head k).flippa ++ bytesLE 8 (head k).mode ++ bytesLE 48 (head k).vblanks.toNat,
       reg 0x30000 2 48 fun i => bytesLE 2 (Tab.get 0 s.temps i).toNat,
       reg 0x30100 4 80 fun c =>
         bytesLE 2 (s.cluster c).droop.toNat ++ bytesLE 2 (s.cluster c).ring.toNat,
       reg 0x30400 4 1 fun _ => bytesLE 2 s.board.toNat ++ bytesLE 2 s.mhz,
       reg 0x50000 4 1 fun _ => bytesLE 4 s.peerId]
  match tables.findSome? id with
  | some r => r
  | none => (a, [0])

/-- A byte of BAR0. The spec gives the access table no layout: its bytes read as free values (R444; log entry 106). -/
def State.barByte (s : State) (free a : Nat) : Byte :=
  if !s.recovery && Nat.ble 0x50100 a && Nat.blt a 0x50200 then Config.windowByte free a
  else
    let r := s.barReg a
    r.2.getD (a - r.1) 0

/-- The bytes of DROOP that a read takes are cleared (R5, Table 22-7). -/
def State.clearDroop (s : State) (off len : Nat) : State :=
  if s.recovery then s
  else
    ((List.range 80).filter fun c => overlaps off len (0x30100 + 4 * c) 2).foldl
      (fun s c => s.modCluster c fun x => { x with droop := 0 }) s

/-- The host reads up to 8 bytes of BAR0 (R5, R437). -/
def State.barRead (s : State) (off len : Nat) : State :=
  let (k, s) := s.freshFree
  let v := leNat ((List.range (min len 8)).map fun i => s.barByte k (off + i))
  (s.clearDroop off (min len 8)).emit [.regRead off (BitVec.ofNat 64 v)]

/-- DROOP_READ: the register of a cluster is read, and its DROOP count cleared (R452). -/
def execDroopRead (cluster : Nat) (s : State) : Out :=
  hostGate (0x30100 + 4 * cluster) s fun s => if Nat.ble 80 cluster then s else s.barRead (0x30100 + 4 * cluster) 4

/-- FUNCTION_LEVEL_RESET (R441). -/
def execFunctionLevelReset (s : State) : Out :=
  .next (
    if s.stopped then s.emit [.completerAbort 0, .msix 16]
    else
      let s := s.ctxs.foldl (fun s c => s.stopContext c.asid 0x3C0) s
      { s with hostFrozen := false, qbase := [], versions := [], hostQs := [], heads := [{}, {}, {}, {}] })

/-! ## Peers -/

/-- Some entry of the access table admits a request of a peer (R444). -/
def State.admits (s : State) (peer : Nat) (write : Bool) (pa n : Nat) : Bool :=
  s.access.any fun e => e.peers.getLsbD peer && (if write then e.w else e.r) && Nat.ble e.base pa &&
    Nat.ble (pa + n) (e.base + e.size)

/-- PEER_REQUEST: an inbound read or write of up to 256 bytes (R443, R444). -/
def execPeerRequest (peer : Nat) (req : BusReq) (s : State) : Out :=
  let n := if req.write then req.data.length else req.len
  .next (
    if s.stopped || !s.linkUp then s
    else if Nat.ble 8 peer || Nat.blt 256 n || !s.admits peer req.write req.addr n || !inDev req.addr ||
        !inDev (req.addr + n - 1) then s.emit [.peerError peer req.addr]
    else if req.write then s.bankWrite req.addr req.data
    else
      let s := s.touch req.addr n false
      s.emit [.peerRead peer req.addr (some (s.mem.read req.addr n))])

/-- PEER_ATOMIC_REQUEST: an error response (R443). -/
def execPeerAtomicRequest (peer pa : Nat) (s : State) : Out :=
  .next (if s.stopped || !s.linkUp then s else s.emit [.peerError peer pa])

/-! ## The driver's requests -/

/-- A power of two in a range. -/
def pow2In (lo hi n : Nat) : Bool := within lo hi n && (List.range 64).any fun k => n == 2 ^ k

/-- A context descriptor obeys Table 17-8. -/
def ctxOk (b : List Byte) : Bool :=
  let f := fieldNat b
  Nat.blt (f 2 1) 16 && Nat.blt (f 3 1) 2 && f 4 4 == 0 && f 8 8 % 4096 == 0 && f 16 8 % 65536 == 0 &&
  pow2In 16 1024 (f 24 2) && pow2In 64 4096 (f 26 2) && f 28 4 == 0 && f 32 8 % 65536 == 0 && f 40 8 % 4096 == 0 &&
  f 48 8 % 128 == 0 && within 6 16 (f 56 1) && f 57 3 == 0 && f 72 8 % 65536 == 0 && f 80 4 % 65536 == 0 &&
  f 84 4 == 0 && f 88 8 % 64 == 0 && f 96 32 == 0

/-- The context of a descriptor; what the device writes is kept from the one before (R404). -/
def ctxOf (b : List Byte) (old : Option Ctx) : Ctx :=
  let f := fieldNat b
  { asid := f 0 2, slot := f 2 1, flags := BitVec.ofNat 8 (f 3 1), root := f 8 8, movbase := f 16 8, ovkb := f 24 2
    covkb := f 26 2, covbase := f 32 8, reuse := f 40 8, afqbase := BitVec.ofNat 64 (f 48 8), afqlog := f 56 1
    cons := f 68 4, save := f 72 8, sstride := f 80 4, deque := f 88 8
    lost := match old with
      | some c => c.lost
      | none => 0
    prod := match old with
      | some c => c.prod
      | none => 0
    recSeq := match old with
      | some c => c.recSeq
      | none => 0
    feat := match old with
      | some c => c.feat
      | none => 0x1FF }

/-- The root service core writes a context descriptor while the context, and the one whose slot it takes, hold no
work (R404). -/
def State.writeCtx (s : State) (b : List Byte) : State :=
  let c := ctxOf b (s.ctx? (fieldNat b 0 2))
  let rest := s.ctxs.filter fun x => x.asid != c.asid && x.slot != c.slot
  if ctxOk b && s.ctxs.all fun x => (x.asid != c.asid && x.slot != c.slot) || !s.hasWork x.asid
  then { s with ctxs := rest ++ [c] } else s

/-- No work is resident on a cluster (R180). -/
def State.clusterIdle (s : State) (cl : Nat) : Bool := !s.groups.any fun g => clusterOf g.core == cl

/-- A lockable way that no context holds is allotted to a context (R189). -/
def State.allotWay (s : State) (asid cluster k : Nat) : State :=
  if Nat.blt cluster 80 && Nat.blt k 8 && (s.ctx? asid).isSome && Tab.get 0 s.ways (8 * cluster + k) == 0
  then { s with ways := Tab.put 0 s.ways (8 * cluster + k) (asid + 1) } else s

/-- A timing-bounded partition is configured, and receives its allotment of ways in its clusters (R189), while no work is
resident on the clusters that it takes or leaves, and shares none with another (R180). -/
def State.setPartition (s : State) (n : Nat) (clusters asids : List Nat) (ways : List (Nat × Nat × Nat)) : State :=
  let old := (List.range 80).filter fun k => s.partAt k == n
  if within 1 7 n && clusters.all (fun k => Nat.blt k 80 && (s.partAt k == 0 || s.partAt k == n)) &&
      (clusters ++ old).all s.clusterIdle then
    let parts := Tab.putAll 0 (Tab.putAll 0 s.parts (old.map fun k => (k, 0))) (clusters.map fun k => (k, n))
    (ways.filter fun e => clusters.contains e.2.1).foldl (fun s e => s.allotWay e.1 e.2.1 e.2.2)
      { s with parts, partAsids := (s.partAsids.filter fun e => e.1 != n) ++ asids.map fun a => (n, a) }
  else s

/-- A route entry is written while no packet of the class is in flight; a reserved channel is given to a partition only
when every route of the class between the clusters of the partition stays inside it (R272). -/
def State.setRoute (s : State) (router cls : Nat) (entry : BitVec 16) : State :=
  let new : State := { s with routes := Tab.put 0 s.routes (16 * router + cls) (entry &&& 0x7FF) }
  let part := (entry.extractLsb' 8 3).toNat
  let reserves := entry.extractLsb' 1 3 != 0 && part != 0
  if Nat.blt router 80 && Nat.blt cls 16 && (!s.net.any fun p => p.cls == cls) && (!reserves || new.stays cls part)
  then new else s

/-- DRIVER_REQUEST: what the root service core does for the driver, and the tables of the UALink port. -/
def execDriverRequest (r : DriverReq) (s : State) : Out :=
  .next (
    if s.stopped then s
    else match r with
    | .partition n clusters asids ways => s.setPartition n clusters asids ways
    | .route router cls entry => s.setRoute router cls entry
    | .allotWay asid cluster k => s.allotWay asid cluster k
    | .takeWay cluster k =>
      if Nat.blt cluster 80 && Nat.blt k 8 && Tab.get 0 s.locks (8 * cluster + k) == 0
      then { s with ways := Tab.put 0 s.ways (8 * cluster + k) 0 } else s
    | .features asid mask => s.modCtx asid fun c => { c with feat := mask }
    | .context desc => s.writeCtx desc
    | .dropContext asid => if s.hasWork asid then s else { s with ctxs := s.ctxs.filter fun c => c.asid != asid }
    | .freeRecords asid cons => s.modCtx asid fun c => { c with cons := cons % 2 ^ 32 }
    | .access e base size peers r w =>
      if Nat.blt e 16 && pow2In (2 ^ 21) (2 ^ 37) size && base % size == 0
      then { s with access := (s.access.filter fun x => x.e != e) ++ [⟨e, base, size, peers, r, w⟩] } else s
    | .handoff e peer asid localAsid core =>
      if Nat.blt e 16 && Nat.blt peer 8 && Nat.blt core 160
      then { s with hand := (s.hand.filter fun x => x.e != e) ++ [⟨e, peer, asid, localAsid, core⟩] } else s)

/-! ## Displays -/

/-- Bytes of a pixel; none for an invalid format (Table 22-6). -/
def pixelBytes (fmt : Nat) : Option Nat :=
  match fmt with
  | 0 => some 4
  | 1 => some 4
  | 2 => some 8
  | _ => none

/-- The 32-byte lines of a row, and of a frame (R448). -/
def Scan.perRow (f : Scan) : Nat := (f.row + 31) / 32
def Scan.lines (f : Scan) : Nat := f.height * f.perRow

/-- The bytes of line i of a frame: 32 bytes of a row of the surface, or what is left of the row (R448). -/
def State.lineAt (s : State) (f : Scan) (i : Nat) : List Byte :=
  let x := 32 * (i % f.perRow)
  s.mem.read (f.surface + i / f.perRow * f.stride + x) (min 32 (f.row - x))

/-- The next line of a frame is read (R448). -/
def State.scanStep (s : State) (f : Scan) : Scan :=
  if Nat.blt f.next f.lines then { f with next := f.next + 1, got := f.got ++ s.lineAt f f.next } else f

/-- The lines of a frame that are left are read. -/
def State.scanRest (s : State) (f : Scan) : Scan :=
  { f with
    next := max f.next f.lines
    got := f.got ++ ((List.range (f.lines - f.next)).map fun i => s.lineAt f (f.next + i)).flatten }

/-- A head reads the next line of its frame. -/
def State.scanLine (s : State) (head : Nat) : State := s.modHead head fun h => { h with scan := h.scan.map s.scanStep }

/-- A head's registers name a surface that can be scanned out. -/
def Head.good (h : Head) : Bool :=
  h.flippa % 8 == 0 && inDev h.flippa && h.stride % 256 == 0 && within 1 16384 h.width && within 1 16384 h.height &&
  (pixelBytes h.fmt).isSome

/-- VERTICAL_BLANK of a head: the frame that was being scanned out is whole, the flip word is read, and the next frame
begins with the surface and the geometry of this moment (R448). -/
def execVerticalBlank (head : Nat) (s : State) : Out :=
  match s.heads[head]? with
  | none => .next s
  | some h =>
    if s.stopped || !h.en then .next s
    else
      let frame := match h.scan with
        | some f => (s.scanRest f).got
        | none => h.frame
      if !h.good then .next (s.modHead head fun x => { x with vblanks := x.vblanks + 1, frame, scan := none })
      else
        let s := s.touch h.flippa 8 false
        let v := leNat (s.mem.read h.flippa 8)
        let surface := if v % 2 == 1 then some (v / 2 ^ 12 % 2 ^ 34 * 4096) else h.surface
        let scan := surface.map fun a =>
          { surface := a, stride := h.stride, row := (pixelBytes h.fmt).getD 0 * h.width, height := h.height }
        .next (s.modHead head fun x => { x with vblanks := x.vblanks + 1, surface, scan, frame })

/-! ## Errors, power and heat -/

/-- A byte belongs to a context: a translation of one maps it, or one of its areas holds it. -/
def State.ofContext (s : State) (pa : Nat) : Bool :=
  inLocal pa || inSlice pa ||
  (s.clusters.any fun c => c.2.tlb.any fun e => Nat.ble e.range.1 pa && Nat.blt pa (e.range.1 + e.range.2)) ||
  s.ctxs.any fun c =>
    overlaps c.movbase (160 * c.ovkb * 1024) pa 1 || overlaps c.covbase (160 * c.covkb * 1024) pa 1 ||
    overlaps c.reuse 32768 pa 1 || overlaps c.save (5120 * c.sstride) pa 1

/-- The registers of a byte of the register files. The event numbers the files above the physical addresses: 16,384 bytes
for each wave slot, 128 slots for each core, with the g registers, the w registers and the predicates in this order
(DESIGN CHOICE, log entry 73). -/
def regsAt (pa : Nat) : Option (Nat × Nat × List Dst) :=
  if Nat.blt pa (2 ^ 60) then none
  else
    let n := (pa - 2 ^ 60) / 16384
    let b := pa % 16384
    let l : List Dst :=
      if Nat.blt b 8192 then [.g (BitVec.ofNat 6 (b / 128)) (b / 4 % 32)]
      else if Nat.blt b 8448 then [.w (BitVec.ofNat 6 (b / 4))]
      else if Nat.blt b 8480 then (List.range 8).map fun i => .p (BitVec.ofNat 3 (b / 4)) (b % 4 * 8 + i)
      else []
    some (n / 128, n % 128, l)

/-- Registers of a wave are poisoned; those of no wave, or of the firmware's, are in no context's state (R407). -/
def State.poisonRegs (s : State) (pa : Nat) : State :=
  match regsAt pa with
  | none => s
  | some (core, slot, l) =>
    if isService core || (s.wave? core slot).isNone then s.emit [.msix 16]
    else s.modWave core slot fun w => { w with poison := (w.poison ++ l).eraseDups }

/-- UNCORRECTABLE_ERROR: the bytes are poisoned, and poison in no context's state is reported (R407, R437). -/
def execUncorrectableError (pa len : Nat) (s : State) : Out :=
  if s.stopped then .next s
  else if Nat.ble (2 ^ 60) pa then .next ((List.range len).foldl (fun s i => s.poisonRegs (pa + i)) s)
  else
    let bad := (List.range len).map fun i => pa + i
    let new := bad.filter fun a => (inLocal a || inDev a || inSlice a) && !s.poison.any fun x => x == a
    let s := { s with poison := s.poison ++ new }
    .next (if new.all s.ofContext then s else s.emit [.msix 16])

/-- DROOP_EVENT of a cluster (R452, R453). -/
def execDroopEvent (cluster : Nat) (s : State) : Out :=
  if s.stopped || Nat.ble 80 cluster then .next s
  else .next (({ s with pmDroop := true } : State).modCluster cluster fun c =>
    { c with droop := if c.droop == 0xFFFF then c.droop else c.droop + 1 })

/-- 100 microseconds and 1 millisecond in the unit of the wall clock. -/
def usec100 : Nat := 100 * usec
def msec1 : Nat := 1000 * usec

/-- Every thermal sensor reads below a temperature, in eighths of a degree (R452). -/
def State.allBelow (s : State) (t : Int) : Bool := (List.range 48).all fun i => decide ((Tab.get 0 s.temps i).toInt < t)

/-- What the power manager decides (R453): the clock, the time of the last step, the count of decisions held at the
lowest clock, and whether it raises vector 16. -/
def State.powerStep (s : State) (now : Nat) : Nat × Nat × Nat × Bool :=
  let down := Nat.blt 600 s.board.toNat || !s.allBelow 801 || s.pmDroop
  let up := Nat.blt s.board.toNat 575 && s.allBelow 760 && !s.pmDroop && Nat.ble (s.pmStep + msec1) now
  if down then
    if Nat.blt 1350 s.mhz then (max 1350 (s.mhz - 50), now, 0, false)
    else (s.mhz, s.pmStep, s.pmHeld + 1, s.pmHeld + 1 == 500)
  else if up && Nat.blt s.mhz 1700 then (min 1700 (s.mhz + 50), now, 0, false)
  else (s.mhz, s.pmStep, 0, false)

/-- POWER_MANAGER_DECISION, due at every 100 microseconds of the wall clock (R453). -/
def execPowerManagerDecision (s : State) : Out :=
  let now := s.pmTime + usec100
  if s.stopped || Nat.blt s.wall now then .next s
  else
    let (mhz, step, held, alert) := s.powerStep now
    let s := { s with mhz, pmTime := now, pmStep := step, pmHeld := held, pmDroop := false }
    .next (if alert then s.emit [.msix 16] else s)

/-- THERMAL_TRIP: a sensor at 110 degrees stops the core clock, and resident work is lost (R454). -/
def execThermalTrip (sensor : Nat) (s : State) : Out :=
  if s.stopped || Nat.ble 48 sensor || decide ((Tab.get 0 s.temps sensor).toInt < 880) then .next s
  else .next (({ s with
    stopped := true, waves := [], groups := [], launches := [], saved := [], cmds := [], sends := [], net := [] } :
      State).emit [.msix 16])

end Sys2Proof.Machine
end

