-- ==== Sys2Proof/Machine/Handoff.lean ====
section
/-! DEFINITION. The UALink port: the link (R442, R443) and the hand-off of traversal records (R445, R446). -/

namespace Sys2Proof.Machine

/-! ## The link -/

/-- A record whose hand-off is over leaves the port. -/
def State.dropHand (s : State) (seq : Nat) : State := { s with handOut := s.handOut.filter fun h => h.seq != seq }

/-- UALINK_LINK_UP: the ports negotiate the hand-off version, and the change is signalled (R437, R442). The device
offers major 1 and minor 0, so the version chosen is 1.0, whatever the minor of the peer. -/
def execUalinkLinkUp (lo hi _minor : Nat) (s : State) : Out :=
  if s.stopped then .next s
  else
    let common := Nat.ble lo 1 && Nat.ble 1 hi
    .next (({ s with
      linkUp := true, linkLo := lo, linkHi := hi
      versions := Tab.put 0 s.versions 4 (if common then 1 else 0) } : State).emit [.msix 16])

/-! ## Origin -/

/-- A thread context of the origin's TRP that posts what came back for a record: its own number, or a free one. -/
def State.handThread (s : State) (h : HandOut) : Option Thread :=
  let c := s.core h.core
  let free (k : Nat) : Bool := !(c.trp.threads.any fun t => t.num == k) && !c.recs.any fun r => r.src == 2 && r.idx == k
  let num := if free h.thread then some h.thread else c.freeThread
  num.map fun num =>
    { num, kind := .record, core := h.core, asid := h.asid, gslot := 0xFF, lid := 0, cmd := h.cmd, rva := h.rva, t := [],
      pc := 0, words := [], payload := h.payload, tag := 0, cq := h.cq, ext := 0, dtab := 0, prog := 0, seq := h.entries }

/-- An earlier entry of the record is still to be posted. -/
def State.handBusy (s : State) (h : HandOut) : Bool :=
  (s.core h.core).trp.threads.any fun t => t.asid == h.asid && t.rva == h.rva

/-- The port needs bytes of a record to translate; a miss posts a message, and the port tries again when it has been
answered (R263). -/
def State.portWants (s : State) (h : HandOut) (t : Thread) (ws : List Want) (f : State → State) : State :=
  match s.grant h.core .trav t.asid ws with
  | (.error (w, .miss k), s) =>
    if (s.core h.core).recs.any fun x => x.src == 2 && x.accs.any fun a => a.va == w.va then s
    else
      let q : FRec :=
        { src := 2, idx := t.num, core := h.core, kind := k, access := 5, asid := t.asid, gslot := t.gslot, slot := 0
          pc := 0, posted := s.clock, accs := [{ grp := t.cmd, lane := 32, va := w.va, pc := 0, kind := .cmd t.cmd }] }
      s.addRec q k
  | (_, s) => f s

/-- The thread context of the port stands in the TRP. -/
def State.portThread (s : State) (h : HandOut) (t : Thread) : State :=
  s.modTrp h.core fun x => { x with threads := x.threads ++ [t] }

/-- The record ends with STATUS 3 and a fault entry (R446). The thread number that the entry names is that of the
thread that posts it. -/
def State.endHand (s : State) (h : HandOut) (t : Thread) (cause : Cause) (pc : Nat) : State :=
  s.portWants h t [t.statusWant] fun s =>
    ((s.dropHand h.seq).portThread h t).endFault h.core { t with pc } cause false 0

/-- What a peer returns for a record is written as the TRP would (R445). -/
def State.takeReturn (s : State) (h : HandOut) (t : Thread) (r : HandReturn) : State :=
  if r.kind == 3 then s.endHand h t (((r.words.getD 0 0).setWidth 10)) (r.words.getD 1 0).toNat
  else if r.final then
    s.portWants h t [⟨true, t.rva + 36, 12⟩, t.statusWant] fun s =>
      let s := (s.dropHand h.seq).portThread h t
      match s.grant h.core .trav t.asid [⟨true, t.rva + 36, 12⟩, t.statusWant] with
      | (.error (_, k), s) => s.endFault h.core t (match k with
          | .viol c => c
          | _ => 0x102) true t.rva
      | (.ok ps, s) =>
        let s := s.engineWrites h.core 5 (ps.getD 0 []) (bytesOf ((r.endWords ++ [0, 0, 0]).take 3))
        let s := s.engineWrites h.core 5 (ps.getD 1 []) (bytesLE 4 1)
        s.post h.core t ⟨r.kind, r.words, true⟩
  else
    let s : State := { s with handOut := s.handOut.map fun x =>
      if x.seq == h.seq then { x with entries := (x.entries + 1) % 65536 } else x }
    (s.portThread h t).post h.core t ⟨r.kind, r.words, true⟩

/-- The records whose hand-off has failed with the link end with TR_REMOTE, each as soon as a thread context is free to
post its entry (R446). -/
def State.endLost (s : State) : State :=
  (s.handOut.filter fun h => h.lost).foldl (fun s h =>
    if s.handBusy h || s.dying h.asid then s
    else match s.handThread h with
      | some t => s.endHand h t 0x234 0
      | none => s) s

/-- HANDOFF_RETURN (R445, R446): what comes for a record that has ended or failed, or whose context has been terminated,
is discarded. -/
def execHandoffReturn (ret : HandReturn) (s : State) : Out :=
  match s.handOut.find? fun h => h.seq == ret.seq && !h.lost with
  | none => .next s
  | some h =>
    if s.stopped || !s.handUp || s.handBusy h || s.dying h.asid then .next s
    else match s.handThread h with
      | none => .next s
      | some t => .next (s.takeReturn h t ret)

/-- UALINK_LINK_DOWN: the change is signalled, and the records that are handed off have failed: they end with TR_REMOTE,
now or as soon as the port can (R437, R446). A context that is being terminated takes no entry (R455). -/
def execUalinkLinkDown (s : State) : Out :=
  if s.stopped then .next s
  else
    let s := if s.linkUp then ({ s with linkUp := false, versions := Tab.put 0 s.versions 4 0 } : State).emit [.msix 16] else s
    .next ({ s with handOut := s.handOut.map fun h => { h with lost := true } } : State).endLost

/-! ## Peer -/

/-- Hand-off buffers in use (R446). -/
def State.handedIn (s : State) : Nat :=
  (s.cores.map fun e =>
    (e.2.trp.threads.filter fun t => match t.kind with
      | .handed _ _ => true
      | _ => false).length + (e.2.trp.queue.filter fun r => r.hand.isSome).length).foldl (· + ·) 0

/-- The program or a decode table that a packet names is not loaded for a context (R446). -/
def State.handUnloaded (s : State) (core asid : Nat) (pkt : List Byte) : Bool :=
  let node := fieldNat pkt (64 + 70) 1
  (s.prog? core asid (fieldNat pkt 8 2)).isNone || (s.dtab? core asid (fieldNat pkt 10 1)).isNone ||
  (node != 0xFF && (s.dtab? core asid node).isNone)

/-- HANDOFF_ARRIVAL: a thread is to start under the entry of the hand-off table, or the hand-off fails (R445, R446). -/
def execHandoffArrival (pkt : List Byte) (s : State) : Out :=
  let peer := fieldNat pkt 328 1
  let seq := fieldNat pkt 332 4
  if s.stopped || !s.handUp then .next s
  else match s.hand.find? fun e => e.peer == peer && e.asid == fieldNat pkt 330 2 with
    | none => .next (s.emit [.handRefused peer seq])
    | some e =>
      if Nat.ble 64 s.handedIn || s.handUnloaded e.core e.localAsid pkt || (s.ctx? e.localAsid).isNone ||
          s.dying e.localAsid then .next (s.emit [.handRefused peer seq])
      else
        let r : TReq :=
          { va := BitVec.ofNat 64 (fieldNat pkt 320 8), asid := e.localAsid, gslot := 0xFF, slot := 0xFF, lid := 0, cmd := 0
            queue := none, resume := none, hand := some (pkt, peer, seq), needs := [] }
        .next (s.modTrp e.core fun x => { x with queue := x.queue ++ [r] })

end Sys2Proof.Machine
end

