-- ==== Sys2Proof/Machine/Boot.lean ====
section
/-! DEFINITION. The conventional reset and the boot checks (R450), and SPDM (R451). -/

namespace Sys2Proof.Machine

/-! ## Boot -/

/-- An image is accepted (R450). The kinds are 0 root, 1 SVC and 2 HSC. -/
def State.accepts (s : State) (m : FwImage) : Bool :=
  m.digest == Config.sha3 m.body && m.publicKey.length == 2592 && m.signature.length == 4627 && Nat.blt m.keyIndex 4 &&
  Config.sha3 m.publicKey == Tab.get 0 s.fuses m.keyIndex && !s.revoked.getLsbD m.keyIndex &&
  Config.mldsaVerify m.publicKey m.digest m.signature && Nat.ble (Tab.get 0 s.counters m.kind) m.version

/-- The bytes of a digest. -/
def bytes512 (d : BitVec 512) : List Byte := bytesLE 64 d.toNat

/-- Accepting an image raises its counter and extends its measurement register (R450). -/
def State.takeImage (s : State) (m : FwImage) : State :=
  let old := Tab.get 0 s.measure (m.kind + 1)
  { s with
    counters := Tab.put 0 s.counters m.kind (max (Tab.get 0 s.counters m.kind) m.version)
    measure := Tab.put 0 s.measure (m.kind + 1) (Config.sha3 (bytes512 old ++ bytes512 m.digest)) }

/-- The images from kind k on are verified in order; one that fails leaves the device in recovery mode (R450). -/
def State.bootFrom (s : State) (imgs : List FwImage) : List Nat → State
  | [] => { s with booted := true }
  | k :: t => match imgs.find? fun m => m.kind == k with
    | some m => if s.accepts m then State.bootFrom (s.takeImage m) imgs t else { s with recovery := true }
    | none => { s with recovery := true }

/-- What a conventional reset keeps: the fuses, with the keys revoked and the counters, and what has left the device. -/
def State.afterReset (s : State) : State :=
  { State.reset with
    fuses := s.fuses, revoked := s.revoked, counters := s.counters, out := s.out, agenda := s.agenda
    nextId := s.nextId, freeCtr := s.freeCtr }

/-- The host loads an image into the recovery region, which BAR0 has in recovery mode (R450; log entry 107). -/
def State.loadImage (s : State) (m : FwImage) : State :=
  s.gate 0 fun s => if s.recovery then { s with recov := m :: s.recov.filter fun x => x.kind != m.kind } else s

/-- DEVICE_RESET (R450, R454): a conventional reset; the images of the card's flash are given, and one that stands in the
recovery region is taken in place of that of its kind (log entry 107). -/
def execDeviceReset (imgs : List FwImage) (s : State) : Out := .next (s.afterReset.bootFrom (s.recov ++ imgs) [0, 1, 2])

/-- A firmware wave starts on a service core: a wave of one lane in a free slot (R24, R393; log entry 108). -/
def State.startFirmware (s : State) (core slot : Nat) (pc : DWord) : State :=
  if s.booted && isService core && Nat.ble core 244 && Nat.blt slot 4 && pc % 4 == 0 && s.slotFree core slot then
    s.startWave (newWave core slot 0 0 .firmware 1 pc 0 0 [])
  else s

/-! ## SPDM -/

/-- An SPDM answer over DOE (R451). -/
def spdm (code : Nat) (body : List Byte) (s : State) : State := s.emit [.spdm code body]

/-- The ERROR answer, with its code. -/
def spdmError (code : Nat) (s : State) : State := spdm 0x7F [BitVec.ofNat 8 code] s

/-- A request that needs the negotiation of algorithms before it. -/
def spdmAfter (n : Nat) (s : State) (f : State → State) : Out :=
  hostGate 0 s fun s => if s.spdmReady.getLsbD n then f s else spdmError 4 s

/-- GET_VERSION: SPDM 1.3 (R451). -/
def execGetVersion (s : State) : Out :=
  hostGate 0 s fun s => spdm 0x04 [0x13] { s with spdmReady := 1 }

/-- GET_CAPABILITIES (R451). -/
def execGetCapabilities (s : State) : Out := spdmAfter 0 s fun s => spdm 0x61 [] s

/-- NEGOTIATE_ALGORITHMS: SHA3-512 and ML-DSA-87 (R451). The request says whether it offers them. -/
def execNegotiateAlgorithms (hash512 mldsa : Bool) (s : State) : Out :=
  spdmAfter 0 s fun s =>
    spdm 0x63 [if hash512 then 1 else 0, if mldsa then 1 else 0]
      { s with spdmReady := if hash512 && mldsa then 3 else 1 }

/-- GET_DIGESTS: the digest of the chain of slot 0 (R451). -/
def execGetDigests (s : State) : Out :=
  spdmAfter 1 s fun s => spdm 0x01 (bytes512 (Config.sha3 Config.certChain)) s

/-- GET_CERTIFICATE: a part of the chain of slot 0 (R451). -/
def execGetCertificate (slot off len : Nat) (s : State) : Out :=
  spdmAfter 1 s fun s =>
    if slot == 0 then spdm 0x02 ((Config.certChain.drop off).take len) s else spdmError 1 s

/-- Measurement blocks: 1 to 16 the registers, 17 the fuse state (R451). -/
def State.block (s : State) (k : Nat) : List Byte :=
  if k == 17 then
    ((List.range 4).map fun i => bytes512 (Tab.get 0 s.fuses i)).flatten ++ [s.revoked.setWidth 8] ++
    ((List.range 3).map fun i => bytesLE 4 (Tab.get 0 s.counters i)).flatten
  else bytes512 (Tab.get 0 s.measure k)

/-- CHALLENGE: a nonce, and a signature over the request's and the answer's (R451). -/
def execChallenge (slot : Nat) (nonce : BitVec 256) (s : State) : Out :=
  spdmAfter 1 s fun s =>
    if slot != 0 then spdmError 1 s
    else
      let (k, s) := s.freshFree
      let body := bytes512 (Config.sha3 Config.certChain) ++ bytesLE 32 (Config.spdmNonce k).toNat
      spdm 0x03 (body ++ Config.mldsaSign (bytesLE 32 nonce.toNat ++ body)) s

/-- GET_MEASUREMENTS: index 0 asks for the number of blocks, 0xFF for all of them (R451). -/
def execGetMeasurements (index : Nat) (s : State) : Out :=
  spdmAfter 1 s fun s =>
    if index == 0 then spdm 0x60 [17] s
    else if index == 0xFF then spdm 0x60 ((List.range 17).map fun k => s.block (k + 1)).flatten s
    else if Nat.ble index 17 then spdm 0x60 (s.block index) s
    else spdmError 1 s

/-- Any other request: ERROR with UnsupportedRequest (R451). -/
def execSpdmUnsupportedRequest (_code : Nat) (s : State) : Out := hostGate 0 s fun s => spdmError 7 s

end Sys2Proof.Machine
end

