-- ==== Sys2Proof/Machine/Uniform.lean ====
section
/-! DEFINITION. The meanings of the uniform instructions, majors 1C to 1F (R78 to R80). -/

namespace Sys2Proof.Machine

/-- A function of two w registers, once per wave (R78). -/
def walu (c : Ctl) (d a b : Reg) (f : Word → Word → Word) (s : State) : Out :=
  waveResult s c.s c.p [] [] [(a, 1), (b, 1)] [(d, 1)] [] []
    fun v _ _ => [(.w d, f (v.readW a) (v.readW b))]

/-- WADD (R78). -/
def execWadd (c : Ctl) (d a b : Reg) (s : State) : Out := walu c d a b (fun x y => x + y) s
/-- WSUB (R78). -/
def execWsub (c : Ctl) (d a b : Reg) (s : State) : Out := walu c d a b (fun x y => x - y) s
/-- WAND (R78). -/
def execWand (c : Ctl) (d a b : Reg) (s : State) : Out := walu c d a b (fun x y => x &&& y) s
/-- WOR (R78). -/
def execWor (c : Ctl) (d a b : Reg) (s : State) : Out := walu c d a b (fun x y => x ||| y) s
/-- WXOR (R78). -/
def execWxor (c : Ctl) (d a b : Reg) (s : State) : Out := walu c d a b (fun x y => x ^^^ y) s
/-- WANDN (R78). -/
def execWandn (c : Ctl) (d a b : Reg) (s : State) : Out := walu c d a b (fun x y => x &&& ~~~y) s
/-- WSHL (R62, R78). -/
def execWshl (c : Ctl) (d a b : Reg) (s : State) : Out := walu c d a b shlF s
/-- WSHR (R62, R78). -/
def execWshr (c : Ctl) (d a b : Reg) (s : State) : Out := walu c d a b shrF s
/-- WSRA (R62, R78). -/
def execWsra (c : Ctl) (d a b : Reg) (s : State) : Out := walu c d a b sraF s
/-- WMIN (R78). -/
def execWmin (c : Ctl) (d a b : Reg) (s : State) : Out := walu c d a b minF s
/-- WMAX (R78). -/
def execWmax (c : Ctl) (d a b : Reg) (s : State) : Out := walu c d a b maxF s
/-- WMINU (R78). -/
def execWminu (c : Ctl) (d a b : Reg) (s : State) : Out := walu c d a b minuF s
/-- WMAXU (R78). -/
def execWmaxu (c : Ctl) (d a b : Reg) (s : State) : Out := walu c d a b maxuF s
/-- WMUL (R78). -/
def execWmul (c : Ctl) (d a b : Reg) (s : State) : Out := walu c d a b (fun x y => x * y) s
/-- WMULH (R78). -/
def execWmulh (c : Ctl) (d a b : Reg) (s : State) : Out := walu c d a b mulhF s
/-- WMULHU (R78). -/
def execWmulhu (c : Ctl) (d a b : Reg) (s : State) : Out := walu c d a b mulhuF s

/-- WADDI (R78). -/
def execWaddi (c : Ctl) (d a : Reg) (imm : BitVec 10) (s : State) : Out :=
  waveResult s c.s c.p [] [] [(a, 1)] [(d, 1)] [] []
    fun v _ _ => [(.w d, v.readW a + imm.signExtend 32)]
/-- WMOVI (R78). -/
def execWmovi (c : Ctl) (d : Reg) (imm : BitVec 16) (s : State) : Out :=
  waveResult s c.s c.p [] [] [] [(d, 1)] [] [] fun _ _ _ => [(.w d, imm.signExtend 32)]
/-- G2W (R79). -/
def execG2w (c : Ctl) (d a : Reg) (s : State) : Out :=
  waveResult s c.s c.p [(a, 1)] [] [] [(d, 1)] [] [] fun v l _ => [(.w d, v.readG a l)]
/-- W2G: every active lane of the path, helper lanes included (R79). -/
def execW2g (c : Ctl) (d a : Reg) (s : State) : Out :=
  waveResult s c.s c.p [] [(d, 1)] [(a, 1)] [] [] []
    fun v _ act => (lanesOf act).map fun l => (.g d l, v.readW a)

/-- The condition of WCMP (R80). -/
def wcond (k : WCond) (a b : Word) : Bool :=
  match k with
  | .eq => a == b
  | .ne => a != b
  | .lt => a.slt b
  | .ge => b.sle a
  | .ltu => a.ult b
  | .geu => b.ule a

/-- WCMP (R80). -/
def execWcmp (c : Ctl) (pd : BitVec 3) (cond : WCond) (a b : Reg) (s : State) : Out :=
  waveResult s c.s c.p [] [] [(a, 1), (b, 1)] [] [] [pd]
    fun v _ act => (lanesOf act).map fun l =>
      (.p pd l, if wcond cond (v.readW a) (v.readW b) then 1 else 0)

end Sys2Proof.Machine
end

