-- ==== Sys2Proof/Machine/Dispatch.lean ====
section
/-! DEFINITION. One arm per row of the opcode table. -/

namespace Sys2Proof.Machine

/-- What one instruction or step does. -/
def exec (i : Instr) (s : State) : Host.Outcome State Fault Refusal :=
  match i with
  | .nop c => Sys2Proof.Machine.execNop c s
  | .exit c => Sys2Proof.Machine.execExit c s
  | .yield c => Sys2Proof.Machine.execYield c s
  | .trap c code => Sys2Proof.Machine.execTrap c code s
  | .rdsr c d idx => Sys2Proof.Machine.execRdsr c d idx s
  | .wrsr c d idx => Sys2Proof.Machine.execWrsr c d idx s
  | .eret c d a b => Sys2Proof.Machine.execEret c d a b s
  | .halt c a => Sys2Proof.Machine.execHalt c a s
  | .tlbw c a b => Sys2Proof.Machine.execTlbw c a b s
  | .tlbi c a b => Sys2Proof.Machine.execTlbi c a b s
  | .tlbsync c => Sys2Proof.Machine.execTlbsync c s
  | .cacheL1inv c a => Sys2Proof.Machine.execCacheL1inv c a s
  | .cacheL1all c => Sys2Proof.Machine.execCacheL1all c s
  | .cacheWb c a => Sys2Proof.Machine.execCacheWb c a s
  | .cacheWbinv c a => Sys2Proof.Machine.execCacheWbinv c a s
  | .cacheLock c a => Sys2Proof.Machine.execCacheLock c a s
  | .cacheUnlock c a => Sys2Proof.Machine.execCacheUnlock c a s
  | .svcall c d a b => Sys2Proof.Machine.execSvcall c d a b s
  | .bkpt c code => Sys2Proof.Machine.execBkpt c code s
  | .addR c d a b => Sys2Proof.Machine.execAddR c d a b s
  | .subR c d a b => Sys2Proof.Machine.execSubR c d a b s
  | .andR c d a b => Sys2Proof.Machine.execAndR c d a b s
  | .orR c d a b => Sys2Proof.Machine.execOrR c d a b s
  | .xorR c d a b => Sys2Proof.Machine.execXorR c d a b s
  | .andn c d a b => Sys2Proof.Machine.execAndn c d a b s
  | .shl c d a b => Sys2Proof.Machine.execShl c d a b s
  | .shr c d a b => Sys2Proof.Machine.execShr c d a b s
  | .sra c d a b => Sys2Proof.Machine.execSra c d a b s
  | .minR c d a b => Sys2Proof.Machine.execMinR c d a b s
  | .maxR c d a b => Sys2Proof.Machine.execMaxR c d a b s
  | .minu c d a b => Sys2Proof.Machine.execMinu c d a b s
  | .maxu c d a b => Sys2Proof.Machine.execMaxu c d a b s
  | .mulR c d a b => Sys2Proof.Machine.execMulR c d a b s
  | .mulh c d a b => Sys2Proof.Machine.execMulh c d a b s
  | .mulhu c d a b => Sys2Proof.Machine.execMulhu c d a b s
  | .clz c d a => Sys2Proof.Machine.execClz c d a s
  | .popc c d a => Sys2Proof.Machine.execPopc c d a s
  | .brev c d a => Sys2Proof.Machine.execBrev c d a s
  | .bfx c d a b => Sys2Proof.Machine.execBfx c d a b s
  | .bfxu c d a b => Sys2Proof.Machine.execBfxu c d a b s
  | .bfi c d a b => Sys2Proof.Machine.execBfi c d a b s
  | .absd c d a b => Sys2Proof.Machine.execAbsd c d a b s
  | .addc c d a b => Sys2Proof.Machine.execAddc c d a b s
  | .subb c d a b => Sys2Proof.Machine.execSubb c d a b s
  | .lea c d a b => Sys2Proof.Machine.execLea c d a b s
  | .lea2 c d a b => Sys2Proof.Machine.execLea2 c d a b s
  | .lea4 c d a b => Sys2Proof.Machine.execLea4 c d a b s
  | .lea8 c d a b => Sys2Proof.Machine.execLea8 c d a b s
  | .add64 c d a b => Sys2Proof.Machine.execAdd64 c d a b s
  | .sub64 c d a b => Sys2Proof.Machine.execSub64 c d a b s
  | .shl64 c d a b => Sys2Proof.Machine.execShl64 c d a b s
  | .shr64 c d a b => Sys2Proof.Machine.execShr64 c d a b s
  | .sra64 c d a b => Sys2Proof.Machine.execSra64 c d a b s
  | .mul32w c d a b => Sys2Proof.Machine.execMul32w c d a b s
  | .minu64 c d a b => Sys2Proof.Machine.execMinu64 c d a b s
  | .maxu64 c d a b => Sys2Proof.Machine.execMaxu64 c d a b s
  | .addi c d a imm => Sys2Proof.Machine.execAddi c d a imm s
  | .andi c d a imm => Sys2Proof.Machine.execAndi c d a imm s
  | .ori c d a imm => Sys2Proof.Machine.execOri c d a imm s
  | .xori c d a imm => Sys2Proof.Machine.execXori c d a imm s
  | .shli c d a n => Sys2Proof.Machine.execShli c d a n s
  | .shri c d a n => Sys2Proof.Machine.execShri c d a n s
  | .srai c d a n => Sys2Proof.Machine.execSrai c d a n s
  | .roli c d a n => Sys2Proof.Machine.execRoli c d a n s
  | .muli c d a imm => Sys2Proof.Machine.execMuli c d a imm s
  | .movi c d imm => Sys2Proof.Machine.execMovi c d imm s
  | .movhi c d imm => Sys2Proof.Machine.execMovhi c d imm s
  | .icmp c pd cond a b cmb => Sys2Proof.Machine.execIcmp c pd cond a b cmb s
  | .icmpi c pd cond a imm cmb => Sys2Proof.Machine.execIcmpi c pd cond a imm cmb s
  | .pand c pd pa pb => Sys2Proof.Machine.execPand c pd pa pb s
  | .por c pd pa pb => Sys2Proof.Machine.execPor c pd pa pb s
  | .pxor c pd pa pb => Sys2Proof.Machine.execPxor c pd pa pb s
  | .pnot c pd pa => Sys2Proof.Machine.execPnot c pd pa s
  | .p2g c d pa => Sys2Proof.Machine.execP2g c d pa s
  | .g2p c pd a => Sys2Proof.Machine.execG2p c pd a s
  | .sel sw ps d a b => Sys2Proof.Machine.execSel sw ps d a b s
  | .fadd c d a b => Sys2Proof.Machine.execFadd c d a b s
  | .fsub c d a b => Sys2Proof.Machine.execFsub c d a b s
  | .fmul c d a b => Sys2Proof.Machine.execFmul c d a b s
  | .fmin c d a b => Sys2Proof.Machine.execFmin c d a b s
  | .fmax c d a b => Sys2Proof.Machine.execFmax c d a b s
  | .fabs c d a => Sys2Proof.Machine.execFabs c d a s
  | .fneg c d a => Sys2Proof.Machine.execFneg c d a s
  | .fcopysign c d a b => Sys2Proof.Machine.execFcopysign c d a b s
  | .ffma c d a b => Sys2Proof.Machine.execFfma c d a b s
  | .ffms c d a b => Sys2Proof.Machine.execFfms c d a b s
  | .fnma c d a b => Sys2Proof.Machine.execFnma c d a b s
  | .fnms c d a b => Sys2Proof.Machine.execFnms c d a b s
  | .fcmp c pd cond a b cmb => Sys2Proof.Machine.execFcmp c pd cond a b cmb s
  | .fcvtFf c d a cv r => Sys2Proof.Machine.execFcvtFf c d a cv r s
  | .fcvtFi c d a cv r => Sys2Proof.Machine.execFcvtFi c d a cv r s
  | .fcvtIf c d a cv r => Sys2Proof.Machine.execFcvtIf c d a cv r s
  | .fcvtFx c d a cv => Sys2Proof.Machine.execFcvtFx c d a cv s
  | .fcvtXf c d a cv => Sys2Proof.Machine.execFcvtXf c d a cv s
  | .fcvtRi c d a cv r => Sys2Proof.Machine.execFcvtRi c d a cv r s
  | .hadd2 c d a b => Sys2Proof.Machine.execHadd2 c d a b s
  | .hsub2 c d a b => Sys2Proof.Machine.execHsub2 c d a b s
  | .hmul2 c d a b => Sys2Proof.Machine.execHmul2 c d a b s
  | .hfma2 c d a b => Sys2Proof.Machine.execHfma2 c d a b s
  | .hmin2 c d a b => Sys2Proof.Machine.execHmin2 c d a b s
  | .hmax2 c d a b => Sys2Proof.Machine.execHmax2 c d a b s
  | .hadd2Bf c d a b => Sys2Proof.Machine.execHadd2Bf c d a b s
  | .hsub2Bf c d a b => Sys2Proof.Machine.execHsub2Bf c d a b s
  | .hmul2Bf c d a b => Sys2Proof.Machine.execHmul2Bf c d a b s
  | .hfma2Bf c d a b => Sys2Proof.Machine.execHfma2Bf c d a b s
  | .hmin2Bf c d a b => Sys2Proof.Machine.execHmin2Bf c d a b s
  | .hmax2Bf c d a b => Sys2Proof.Machine.execHmax2Bf c d a b s
  | .dadd c d a b => Sys2Proof.Machine.execDadd c d a b s
  | .dsub c d a b => Sys2Proof.Machine.execDsub c d a b s
  | .dmul c d a b => Sys2Proof.Machine.execDmul c d a b s
  | .dfma c d a b => Sys2Proof.Machine.execDfma c d a b s
  | .dmin c d a b => Sys2Proof.Machine.execDmin c d a b s
  | .dmax c d a b => Sys2Proof.Machine.execDmax c d a b s
  | .dcmp c pd cond a b => Sys2Proof.Machine.execDcmp c pd cond a b s
  | .rcp c d a => Sys2Proof.Machine.execRcp c d a s
  | .rsq c d a => Sys2Proof.Machine.execRsq c d a s
  | .sqrt c d a => Sys2Proof.Machine.execSqrt c d a s
  | .ex2 c d a => Sys2Proof.Machine.execEx2 c d a s
  | .lg2 c d a => Sys2Proof.Machine.execLg2 c d a s
  | .sin c d a => Sys2Proof.Machine.execSin c d a s
  | .cos c d a => Sys2Proof.Machine.execCos c d a s
  | .tanh c d a => Sys2Proof.Machine.execTanh c d a s
  | .idot4 c d a b => Sys2Proof.Machine.execIdot4 c d a b s
  | .idot4u c d a b => Sys2Proof.Machine.execIdot4u c d a b s
  | .hdot2 c d a b => Sys2Proof.Machine.execHdot2 c d a b s
  | .bdot2 c d a b => Sys2Proof.Machine.execBdot2 c d a b s
  | .idot8 c d a b => Sys2Proof.Machine.execIdot8 c d a b s
  | .idot8u c d a b => Sys2Proof.Machine.execIdot8u c d a b s
  | .qswpx c d a => Sys2Proof.Machine.execQswpx c d a s
  | .qswpy c d a => Sys2Proof.Machine.execQswpy c d a s
  | .qswpd c d a => Sys2Proof.Machine.execQswpd c d a s
  | .qbcast c d a n => Sys2Proof.Machine.execQbcast c d a n s
  | .shfli c d a b => Sys2Proof.Machine.execShfli c d a b s
  | .shflu c d a n => Sys2Proof.Machine.execShflu c d a n s
  | .shfld c d a n => Sys2Proof.Machine.execShfld c d a n s
  | .shflx c d a n => Sys2Proof.Machine.execShflx c d a n s
  | .voteany c pd pa => Sys2Proof.Machine.execVoteany c pd pa s
  | .voteall c pd pa => Sys2Proof.Machine.execVoteall c pd pa s
  | .ballot c d pa => Sys2Proof.Machine.execBallot c d pa s
  | .matchI c d a => Sys2Proof.Machine.execMatchI c d a s
  | .reduxadd c d a => Sys2Proof.Machine.execReduxadd c d a s
  | .reduxmin c d a u => Sys2Proof.Machine.execReduxmin c d a u s
  | .reduxmax c d a u => Sys2Proof.Machine.execReduxmax c d a u s
  | .fredux c d a op => Sys2Proof.Machine.execFredux c d a op s
  | .popm c d pa => Sys2Proof.Machine.execPopm c d pa s
  | .scnt c d st => Sys2Proof.Machine.execScnt c d st s
  | .sendS c d st => Sys2Proof.Machine.execSendS c d st s
  | .srew c st => Sys2Proof.Machine.execSrew c st s
  | .sskip c st n => Sys2Proof.Machine.execSskip c st n s
  | .streamElementFetch core slot st lane => Sys2Proof.Machine.execStreamElementFetch core slot st lane s
  | .wadd c d a b => Sys2Proof.Machine.execWadd c d a b s
  | .wsub c d a b => Sys2Proof.Machine.execWsub c d a b s
  | .wand c d a b => Sys2Proof.Machine.execWand c d a b s
  | .wor c d a b => Sys2Proof.Machine.execWor c d a b s
  | .wxor c d a b => Sys2Proof.Machine.execWxor c d a b s
  | .wandn c d a b => Sys2Proof.Machine.execWandn c d a b s
  | .wshl c d a b => Sys2Proof.Machine.execWshl c d a b s
  | .wshr c d a b => Sys2Proof.Machine.execWshr c d a b s
  | .wsra c d a b => Sys2Proof.Machine.execWsra c d a b s
  | .wmin c d a b => Sys2Proof.Machine.execWmin c d a b s
  | .wmax c d a b => Sys2Proof.Machine.execWmax c d a b s
  | .wminu c d a b => Sys2Proof.Machine.execWminu c d a b s
  | .wmaxu c d a b => Sys2Proof.Machine.execWmaxu c d a b s
  | .wmul c d a b => Sys2Proof.Machine.execWmul c d a b s
  | .wmulh c d a b => Sys2Proof.Machine.execWmulh c d a b s
  | .wmulhu c d a b => Sys2Proof.Machine.execWmulhu c d a b s
  | .waddi c d a imm => Sys2Proof.Machine.execWaddi c d a imm s
  | .g2w c d a => Sys2Proof.Machine.execG2w c d a s
  | .w2g c d a => Sys2Proof.Machine.execW2g c d a s
  | .wcmp c pd cond a b => Sys2Proof.Machine.execWcmp c pd cond a b s
  | .wmovi c d imm => Sys2Proof.Machine.execWmovi c d imm s
  | .ldg c d a sz off => Sys2Proof.Machine.execLdg c d a sz off s
  | .stg c d a sz off => Sys2Proof.Machine.execStg c d a sz off s
  | .ldl c d a sz off => Sys2Proof.Machine.execLdl c d a sz off s
  | .stl c d a sz off => Sys2Proof.Machine.execStl c d a sz off s
  | .ldwg c d a sz off => Sys2Proof.Machine.execLdwg c d a sz off s
  | .ldwl c d a sz off => Sys2Proof.Machine.execLdwl c d a sz off s
  | .ldacq c d a dw sc => Sys2Proof.Machine.execLdacq c d a dw sc s
  | .strel c a b dw sc => Sys2Proof.Machine.execStrel c a b dw sc s
  | .atomAddSi32 c d a b => Sys2Proof.Machine.execAtomAddSi32 c d a b s
  | .atomAddF32 c d a b => Sys2Proof.Machine.execAtomAddF32 c d a b s
  | .atomAddBf16x2 c d a b => Sys2Proof.Machine.execAtomAddBf16x2 c d a b s
  | .atomAddF16x2 c d a b => Sys2Proof.Machine.execAtomAddF16x2 c d a b s
  | .atomMinSi32 c d a b => Sys2Proof.Machine.execAtomMinSi32 c d a b s
  | .atomMaxSi32 c d a b => Sys2Proof.Machine.execAtomMaxSi32 c d a b s
  | .atomMinUi32 c d a b => Sys2Proof.Machine.execAtomMinUi32 c d a b s
  | .atomMaxUi32 c d a b => Sys2Proof.Machine.execAtomMaxUi32 c d a b s
  | .atomMinF32 c d a b => Sys2Proof.Machine.execAtomMinF32 c d a b s
  | .atomMaxF32 c d a b => Sys2Proof.Machine.execAtomMaxF32 c d a b s
  | .atomAnd c d a b => Sys2Proof.Machine.execAtomAnd c d a b s
  | .atomOr c d a b => Sys2Proof.Machine.execAtomOr c d a b s
  | .atomXor c d a b => Sys2Proof.Machine.execAtomXor c d a b s
  | .atomExch c d a b => Sys2Proof.Machine.execAtomExch c d a b s
  | .atomCas c d a b => Sys2Proof.Machine.execAtomCas c d a b s
  | .atomAddSi64 c d a b => Sys2Proof.Machine.execAtomAddSi64 c d a b s
  | .atomaAddSi32 c d a b => Sys2Proof.Machine.execAtomaAddSi32 c d a b s
  | .atomaAddF32 c d a b => Sys2Proof.Machine.execAtomaAddF32 c d a b s
  | .atomaAddBf16x2 c d a b => Sys2Proof.Machine.execAtomaAddBf16x2 c d a b s
  | .atomaAddF16x2 c d a b => Sys2Proof.Machine.execAtomaAddF16x2 c d a b s
  | .atomaMinSi32 c d a b => Sys2Proof.Machine.execAtomaMinSi32 c d a b s
  | .atomaMaxSi32 c d a b => Sys2Proof.Machine.execAtomaMaxSi32 c d a b s
  | .atomaMinUi32 c d a b => Sys2Proof.Machine.execAtomaMinUi32 c d a b s
  | .atomaMaxUi32 c d a b => Sys2Proof.Machine.execAtomaMaxUi32 c d a b s
  | .atomaMinF32 c d a b => Sys2Proof.Machine.execAtomaMinF32 c d a b s
  | .atomaMaxF32 c d a b => Sys2Proof.Machine.execAtomaMaxF32 c d a b s
  | .atomaAnd c d a b => Sys2Proof.Machine.execAtomaAnd c d a b s
  | .atomaOr c d a b => Sys2Proof.Machine.execAtomaOr c d a b s
  | .atomaXor c d a b => Sys2Proof.Machine.execAtomaXor c d a b s
  | .atomaExch c d a b => Sys2Proof.Machine.execAtomaExch c d a b s
  | .atomaCas c d a b => Sys2Proof.Machine.execAtomaCas c d a b s
  | .atomaAddSi64 c d a b => Sys2Proof.Machine.execAtomaAddSi64 c d a b s
  | .redAddSi32 c a b => Sys2Proof.Machine.execRedAddSi32 c a b s
  | .redAddF32 c a b => Sys2Proof.Machine.execRedAddF32 c a b s
  | .redAddBf16x2 c a b => Sys2Proof.Machine.execRedAddBf16x2 c a b s
  | .redAddF16x2 c a b => Sys2Proof.Machine.execRedAddF16x2 c a b s
  | .redMinSi32 c a b => Sys2Proof.Machine.execRedMinSi32 c a b s
  | .redMaxSi32 c a b => Sys2Proof.Machine.execRedMaxSi32 c a b s
  | .redMinUi32 c a b => Sys2Proof.Machine.execRedMinUi32 c a b s
  | .redMaxUi32 c a b => Sys2Proof.Machine.execRedMaxUi32 c a b s
  | .redMinF32 c a b => Sys2Proof.Machine.execRedMinF32 c a b s
  | .redMaxF32 c a b => Sys2Proof.Machine.execRedMaxF32 c a b s
  | .redAnd c a b => Sys2Proof.Machine.execRedAnd c a b s
  | .redOr c a b => Sys2Proof.Machine.execRedOr c a b s
  | .redXor c a b => Sys2Proof.Machine.execRedXor c a b s
  | .redExch c a b => Sys2Proof.Machine.execRedExch c a b s
  | .redCas c d a b => Sys2Proof.Machine.execRedCas c d a b s
  | .redAddSi64 c a b => Sys2Proof.Machine.execRedAddSi64 c a b s
  | .atomlAddSi32 c d a b => Sys2Proof.Machine.execAtomlAddSi32 c d a b s
  | .atomlAddF32 c d a b => Sys2Proof.Machine.execAtomlAddF32 c d a b s
  | .atomlAddBf16x2 c d a b => Sys2Proof.Machine.execAtomlAddBf16x2 c d a b s
  | .atomlAddF16x2 c d a b => Sys2Proof.Machine.execAtomlAddF16x2 c d a b s
  | .atomlMinSi32 c d a b => Sys2Proof.Machine.execAtomlMinSi32 c d a b s
  | .atomlMaxSi32 c d a b => Sys2Proof.Machine.execAtomlMaxSi32 c d a b s
  | .atomlMinUi32 c d a b => Sys2Proof.Machine.execAtomlMinUi32 c d a b s
  | .atomlMaxUi32 c d a b => Sys2Proof.Machine.execAtomlMaxUi32 c d a b s
  | .atomlMinF32 c d a b => Sys2Proof.Machine.execAtomlMinF32 c d a b s
  | .atomlMaxF32 c d a b => Sys2Proof.Machine.execAtomlMaxF32 c d a b s
  | .atomlAnd c d a b => Sys2Proof.Machine.execAtomlAnd c d a b s
  | .atomlOr c d a b => Sys2Proof.Machine.execAtomlOr c d a b s
  | .atomlXor c d a b => Sys2Proof.Machine.execAtomlXor c d a b s
  | .atomlExch c d a b => Sys2Proof.Machine.execAtomlExch c d a b s
  | .atomlCas c d a b => Sys2Proof.Machine.execAtomlCas c d a b s
  | .sliceRmw core k => Sys2Proof.Machine.execSliceRmw core k s
  | .oredF32 c d a b => Sys2Proof.Machine.execOredF32 c d a b s
  | .oredBf16x2 c d a b => Sys2Proof.Machine.execOredBf16x2 c d a b s
  | .oredF64 c d a b => Sys2Proof.Machine.execOredF64 c d a b s
  | .oreContribution core k => Sys2Proof.Machine.execOreContribution core k s
  | .oredRefusalRetry core k => Sys2Proof.Machine.execOredRefusalRetry core k s
  | .fenceFull c sc => Sys2Proof.Machine.execFenceFull c sc s
  | .fenceAcq c sc => Sys2Proof.Machine.execFenceAcq c sc s
  | .fenceRel c sc => Sys2Proof.Machine.execFenceRel c sc s
  | .tfence c sc => Sys2Proof.Machine.execTfence c sc s
  | .cfence c sc => Sys2Proof.Machine.execCfence c sc s
  | .drainCpl c => Sys2Proof.Machine.execDrainCpl c s
  | .drainCpg c => Sys2Proof.Machine.execDrainCpg c s
  | .drainSlice c => Sys2Proof.Machine.execDrainSlice c s
  | .drainMsg c => Sys2Proof.Machine.execDrainMsg c s
  | .drainMx c => Sys2Proof.Machine.execDrainMx c s
  | .drainTrav c => Sys2Proof.Machine.execDrainTrav c s
  | .drainWalk c => Sys2Proof.Machine.execDrainWalk c s
  | .drainAll c => Sys2Proof.Machine.execDrainAll c s
  | .bra c off => Sys2Proof.Machine.execBra c off s
  | .jpt sw off => Sys2Proof.Machine.execJpt sw off s
  | .call c off => Sys2Proof.Machine.execCall c off s
  | .brx c a => Sys2Proof.Machine.execBrx c a s
  | .callx c d a => Sys2Proof.Machine.execCallx c d a s
  | .ret c a => Sys2Proof.Machine.execRet c a s
  | .barSync c n => Sys2Proof.Machine.execBarSync c n s
  | .barArrive c n => Sys2Proof.Machine.execBarArrive c n s
  | .barWait c n => Sys2Proof.Machine.execBarWait c n s
  | .barxExpect c n b => Sys2Proof.Machine.execBarxExpect c n b s
  | .barxWait c n => Sys2Proof.Machine.execBarxWait c n s
  | .joinw c a => Sys2Proof.Machine.execJoinw c a s
  | .joinwRecheck core slot => Sys2Proof.Machine.execJoinwRecheck core slot s
  | .cpLd sw d b => Sys2Proof.Machine.execCpLd sw d b s
  | .cpSt sw d b => Sys2Proof.Machine.execCpSt sw d b s
  | .cpLdz sw d b => Sys2Proof.Machine.execCpLdz sw d b s
  | .cpFill sw d b => Sys2Proof.Machine.execCpFill sw d b s
  | .cpCpy sw d b => Sys2Proof.Machine.execCpCpy sw d b s
  | .cpSlw sw d b => Sys2Proof.Machine.execCpSlw sw d b s
  | .cpGather sw d b => Sys2Proof.Machine.execCpGather sw d b s
  | .cpScatter sw d b => Sys2Proof.Machine.execCpScatter sw d b s
  | .cpStatus sw d b => Sys2Proof.Machine.execCpStatus sw d b s
  | .copyCompletion core k => Sys2Proof.Machine.execCopyCompletion core k s
  | .mxCtx sw d => Sys2Proof.Machine.execMxCtx sw d s
  | .mxLda sw d a b => Sys2Proof.Machine.execMxLda sw d a b s
  | .mxLdb sw d a => Sys2Proof.Machine.execMxLdb sw d a s
  | .mxMma sw d a b => Sys2Proof.Machine.execMxMma sw d a b s
  | .mxMmaR sw d a b => Sys2Proof.Machine.execMxMmaR sw d a b s
  | .mxMmas sw d a b => Sys2Proof.Machine.execMxMmas sw d a b s
  | .mxMmasR sw d a b => Sys2Proof.Machine.execMxMmasR sw d a b s
  | .mxZero sw d a => Sys2Proof.Machine.execMxZero sw d a s
  | .mxStacc sw d a b => Sys2Proof.Machine.execMxStacc sw d a b s
  | .mxLdacc sw d a b => Sys2Proof.Machine.execMxLdacc sw d a b s
  | .mxScale sw d a b => Sys2Proof.Machine.execMxScale sw d a b s
  | .mxSmax sw d a b => Sys2Proof.Machine.execMxSmax sw d a b s
  | .mxSnorm sw d a => Sys2Proof.Machine.execMxSnorm sw d a s
  | .mxFence sw d => Sys2Proof.Machine.execMxFence sw d s
  | .mxWait sw d => Sys2Proof.Machine.execMxWait sw d s
  | .mxRel sw d a => Sys2Proof.Machine.execMxRel sw d a s
  | .mxeDispatch cluster => Sys2Proof.Machine.execMxeDispatch cluster s
  | .dlBind sw d a b => Sys2Proof.Machine.execDlBind sw d a b s
  | .dlRun sw d a b => Sys2Proof.Machine.execDlRun sw d a b s
  | .dlFull sw d a b => Sys2Proof.Machine.execDlFull sw d a b s
  | .dlInv sw d b => Sys2Proof.Machine.execDlInv sw d b s
  | .dlQry sw d a b => Sys2Proof.Machine.execDlQry sw d a b s
  | .dlCfg sw d a b => Sys2Proof.Machine.execDlCfg sw d a b s
  | .dlDropall sw d b => Sys2Proof.Machine.execDlDropall sw d b s
  | .trLaunch sw d a b => Sys2Proof.Machine.execTrLaunch sw d a b s
  | .trResume sw d a b => Sys2Proof.Machine.execTrResume sw d a b s
  | .trCqcfg sw d a b => Sys2Proof.Machine.execTrCqcfg sw d a b s
  | .trDtab sw d a b => Sys2Proof.Machine.execTrDtab sw d a b s
  | .trProg sw d a b => Sys2Proof.Machine.execTrProg sw d a b s
  | .pfArm sw d a b => Sys2Proof.Machine.execPfArm sw d a b s
  | .pfDisarm sw d b => Sys2Proof.Machine.execPfDisarm sw d b s
  | .msgSend sw d a b => Sys2Proof.Machine.execMsgSend sw d a b s
  | .msgSendl sw d a b => Sys2Proof.Machine.execMsgSendl sw d a b s
  | .msgMcast sw d a b => Sys2Proof.Machine.execMsgMcast sw d a b s
  | .msgWake sw d a b => Sys2Proof.Machine.execMsgWake sw d a b s
  | .msgMask sw d b => Sys2Proof.Machine.execMsgMask sw d b s
  | .msgUnmask sw d b => Sys2Proof.Machine.execMsgUnmask sw d b s
  | .msgPend sw d => Sys2Proof.Machine.execMsgPend sw d s
  | .msgHbind sw d a b => Sys2Proof.Machine.execMsgHbind sw d a b s
  | .messageArrival k => Sys2Proof.Machine.execMessageArrival k s
  | .sendReply k => Sys2Proof.Machine.execSendReply k s
  | .sendRetry k => Sys2Proof.Machine.execSendRetry k s
  | .overflowRecordMove core asid cls => Sys2Proof.Machine.execOverflowRecordMove core asid cls s
  | .wakeArrival k => Sys2Proof.Machine.execWakeArrival k s
  | .handlerWaveStart core gslot => Sys2Proof.Machine.execHandlerWaveStart core gslot s
  | .linkReplay k => Sys2Proof.Machine.execLinkReplay k s
  | .capNew sw d a b => Sys2Proof.Machine.execCapNew sw d a b s
  | .capFwd sw d b => Sys2Proof.Machine.execCapFwd sw d b s
  | .capIns sw d a b => Sys2Proof.Machine.execCapIns sw d a b s
  | .capDel sw d b => Sys2Proof.Machine.execCapDel sw d b s
  | .capSet sw d a b => Sys2Proof.Machine.execCapSet sw d a b s
  | .capRet sw d b => Sys2Proof.Machine.execCapRet sw d b s
  | .capPark sw d b => Sys2Proof.Machine.execCapPark sw d b s
  | .capLoad sw d a b => Sys2Proof.Machine.execCapLoad sw d a b s
  | .capsuleArrival k => Sys2Proof.Machine.execCapsuleArrival k s
  | .capsuleSlotEntry core k => Sys2Proof.Machine.execCapsuleSlotEntry core k s
  | .launch sw d a => Sys2Proof.Machine.execLaunch sw d a s
  | .forkL sw d a b => Sys2Proof.Machine.execForkL sw d a b s
  | .forkG sw d a b => Sys2Proof.Machine.execForkG sw d a b s
  | .engw sw d a b => Sys2Proof.Machine.execEngw sw d a b s
  | .engr sw d b => Sys2Proof.Machine.execEngr sw d b s
  | .strcfg sw d a b => Sys2Proof.Machine.execStrcfg sw d a b s
  | .prio sw d b => Sys2Proof.Machine.execPrio sw d b s
  | .lClassResultWrite core slot k => Sys2Proof.Machine.execLClassResultWrite core slot k s
  | .implicitSwitch core slot => Sys2Proof.Machine.execImplicitSwitch core slot s
  | .reconvergence core slot => Sys2Proof.Machine.execReconvergence core slot s
  | .pathRestore core slot => Sys2Proof.Machine.execPathRestore core slot s
  | .ageingPromotion core slot => Sys2Proof.Machine.execAgeingPromotion core slot s
  | .yieldRelease core slot => Sys2Proof.Machine.execYieldRelease core slot s
  | .watchdogExpiry asid => Sys2Proof.Machine.execWatchdogExpiry asid s
  | .hostLaunchRead quad n => Sys2Proof.Machine.execHostLaunchRead quad n s
  | .gangPlacement lid => Sys2Proof.Machine.execGangPlacement lid s
  | .launchCompletion lid => Sys2Proof.Machine.execLaunchCompletion lid s
  | .groupResourceRelease core gslot => Sys2Proof.Machine.execGroupResourceRelease core gslot s
  | .taskWaveStart core gslot => Sys2Proof.Machine.execTaskWaveStart core gslot s
  | .dequeSteal core lid => Sys2Proof.Machine.execDequeSteal core lid s
  | .hawkerInterval cluster => Sys2Proof.Machine.execHawkerInterval cluster s
  | .dequeShipmentArrival k => Sys2Proof.Machine.execDequeShipmentArrival k s
  | .preemption asid => Sys2Proof.Machine.execPreemption asid s
  | .gangResume k => Sys2Proof.Machine.execGangResume k s
  | .gangSwitchOut lid gang => Sys2Proof.Machine.execGangSwitchOut lid gang s
  | .faultReplay core src idx => Sys2Proof.Machine.execFaultReplay core src idx s
  | .storePerform core k => Sys2Proof.Machine.execStorePerform core k s
  | .mergeWindowClose port line => Sys2Proof.Machine.execMergeWindowClose port line s
  | .prefetchThreadStart core k => Sys2Proof.Machine.execPrefetchThreadStart core k s
  | .trpThreadStart core => Sys2Proof.Machine.execTrpThreadStart core s
  | .cqBatchForm core q => Sys2Proof.Machine.execCqBatchForm core q s
  | .cqBatchTimeout core q => Sys2Proof.Machine.execCqBatchTimeout core q s
  | .cqPostResume core thread => Sys2Proof.Machine.execCqPostResume core thread s
  | .handoffArrival pkt => Sys2Proof.Machine.execHandoffArrival pkt s
  | .handoffReturn ret => Sys2Proof.Machine.execHandoffReturn ret s
  | .ualinkLinkDown => Sys2Proof.Machine.execUalinkLinkDown s
  | .peerRequest peer req => Sys2Proof.Machine.execPeerRequest peer req s
  | .peerAtomicRequest peer pa => Sys2Proof.Machine.execPeerAtomicRequest peer pa s
  | .contextTermination asid cause => Sys2Proof.Machine.execContextTermination asid cause s
  | .softError asid => Sys2Proof.Machine.execSoftError asid s
  | .hostMemoryRequest req => Sys2Proof.Machine.execHostMemoryRequest req s
  | .doorbell quad n => Sys2Proof.Machine.execDoorbell quad n s
  | .versionSelect id major minor => Sys2Proof.Machine.execVersionSelect id major minor s
  | .registerWrite off val => Sys2Proof.Machine.execRegisterWrite off val s
  | .droopRead cluster => Sys2Proof.Machine.execDroopRead cluster s
  | .functionLevelReset => Sys2Proof.Machine.execFunctionLevelReset s
  | .verticalBlank head => Sys2Proof.Machine.execVerticalBlank head s
  | .powerManagerDecision => Sys2Proof.Machine.execPowerManagerDecision s
  | .thermalTrip sensor => Sys2Proof.Machine.execThermalTrip sensor s
  | .deviceReset imgs => Sys2Proof.Machine.execDeviceReset imgs s
  | .getVersion => Sys2Proof.Machine.execGetVersion s
  | .getCapabilities => Sys2Proof.Machine.execGetCapabilities s
  | .negotiateAlgorithms hash512 mldsa => Sys2Proof.Machine.execNegotiateAlgorithms hash512 mldsa s
  | .getDigests => Sys2Proof.Machine.execGetDigests s
  | .getCertificate slot off len => Sys2Proof.Machine.execGetCertificate slot off len s
  | .challenge slot nonce => Sys2Proof.Machine.execChallenge slot nonce s
  | .getMeasurements index => Sys2Proof.Machine.execGetMeasurements index s
  | .spdmUnsupportedRequest code => Sys2Proof.Machine.execSpdmUnsupportedRequest code s
  | .tnop => Sys2Proof.Machine.execTnop s
  | .tadd d a b => Sys2Proof.Machine.execTadd d a b s
  | .tsub d a b => Sys2Proof.Machine.execTsub d a b s
  | .tand d a b => Sys2Proof.Machine.execTand d a b s
  | .tor d a b => Sys2Proof.Machine.execTor d a b s
  | .txor d a b => Sys2Proof.Machine.execTxor d a b s
  | .tshl d a b => Sys2Proof.Machine.execTshl d a b s
  | .tshr d a b => Sys2Proof.Machine.execTshr d a b s
  | .tsra d a b => Sys2Proof.Machine.execTsra d a b s
  | .tmin d a b => Sys2Proof.Machine.execTmin d a b s
  | .tmax d a b => Sys2Proof.Machine.execTmax d a b s
  | .tminu d a b => Sys2Proof.Machine.execTminu d a b s
  | .tmaxu d a b => Sys2Proof.Machine.execTmaxu d a b s
  | .tmul d a b => Sys2Proof.Machine.execTmul d a b s
  | .tfadd d a b => Sys2Proof.Machine.execTfadd d a b s
  | .tfsub d a b => Sys2Proof.Machine.execTfsub d a b s
  | .tfmul d a b => Sys2Proof.Machine.execTfmul d a b s
  | .tfmin d a b => Sys2Proof.Machine.execTfmin d a b s
  | .tfmax d a b => Sys2Proof.Machine.execTfmax d a b s
  | .taddi d a imm => Sys2Proof.Machine.execTaddi d a imm s
  | .tandi d a imm => Sys2Proof.Machine.execTandi d a imm s
  | .tori d a imm => Sys2Proof.Machine.execTori d a imm s
  | .tshli d a n => Sys2Proof.Machine.execTshli d a n s
  | .tshri d a n => Sys2Proof.Machine.execTshri d a n s
  | .tsrai d a n => Sys2Proof.Machine.execTsrai d a n s
  | .troli d a n => Sys2Proof.Machine.execTroli d a n s
  | .tlui d imm => Sys2Proof.Machine.execTlui d imm s
  | .tbr cond a b off => Sys2Proof.Machine.execTbr cond a b off s
  | .trsrReclo d => Sys2Proof.Machine.execTrsrReclo d s
  | .trsrRechi d => Sys2Proof.Machine.execTrsrRechi d s
  | .trsrTag d => Sys2Proof.Machine.execTrsrTag d s
  | .trsrThread d => Sys2Proof.Machine.execTrsrThread d s
  | .nfetch a n => Sys2Proof.Machine.execNfetch a n s
  | .ndec n => Sys2Proof.Machine.execNdec n s
  | .ngetKind d => Sys2Proof.Machine.execNgetKind d s
  | .ngetCnt d => Sys2Proof.Machine.execNgetCnt d s
  | .ngetChild d k => Sys2Proof.Machine.execNgetChild d k s
  | .ngetKeylo d k => Sys2Proof.Machine.execNgetKeylo d k s
  | .ngetKeyhi d k => Sys2Proof.Machine.execNgetKeyhi d k s
  | .ngetPeer d => Sys2Proof.Machine.execNgetPeer d s
  | .ngetRemote d => Sys2Proof.Machine.execNgetRemote d s
  | .ngetWord d n => Sys2Proof.Machine.execNgetWord d n s
  | .tld d a off => Sys2Proof.Machine.execTld d a off s
  | .tqld a n => Sys2Proof.Machine.execTqld a n s
  | .tpfNc a => Sys2Proof.Machine.execTpfNc a s
  | .tpfL1 a => Sys2Proof.Machine.execTpfL1 a s
  | .tbox d a => Sys2Proof.Machine.execTbox d a s
  | .ttri d a n => Sys2Proof.Machine.execTtri d a n s
  | .tdistL2 d a n => Sys2Proof.Machine.execTdistL2 d a n s
  | .tdistDot d a n => Sys2Proof.Machine.execTdistDot d a n s
  | .tkeyLt d a => Sys2Proof.Machine.execTkeyLt d a s
  | .tkeyLe d a => Sys2Proof.Machine.execTkeyLe d a s
  | .tpush a => Sys2Proof.Machine.execTpush a s
  | .tpushc a => Sys2Proof.Machine.execTpushc a s
  | .tpop d off => Sys2Proof.Machine.execTpop d off s
  | .tdepth d => Sys2Proof.Machine.execTdepth d s
  | .emit a => Sys2Proof.Machine.execEmit a s
  | .endDone a => Sys2Proof.Machine.execEndDone a s
  | .endMiss a => Sys2Proof.Machine.execEndMiss a s
  | .susp d a b => Sys2Proof.Machine.execSusp d a b s
  | .thand => Sys2Proof.Machine.execThand s
  | .decodeTrap w => Sys2Proof.Machine.execDecodeTrap w s
  | .traversalWordNotInstruction w => Sys2Proof.Machine.execTraversalWordNotInstruction w s
  | .instructionFetchFault va => Sys2Proof.Machine.execInstructionFetchFault va s
  | .reservingGang lid => Sys2Proof.Machine.execReservingGang lid s
  | .driverRequest r => Sys2Proof.Machine.execDriverRequest r s
  | .ualinkLinkUp lo hi minor => Sys2Proof.Machine.execUalinkLinkUp lo hi minor s
  | .uncorrectableError pa len => Sys2Proof.Machine.execUncorrectableError pa len s
  | .droopEvent cluster => Sys2Proof.Machine.execDroopEvent cluster s

end Sys2Proof.Machine
end

