-- ==== Sys2Proof/Machine/Placing.lean ====
section
/-! DEFINITION. The parts of a state in which one given word is the next instruction (log entry 5). -/

namespace Sys2Proof.Machine

/-- The page, virtual and physical, that the word is placed in. -/
def placeVa : Nat := 0x10000

/-- A global entry that maps that page with every right. -/
def placeEntry : TlbE where
  r := true
  w := true
  x := true
  a := true
  d := true
  g := true
  mig := false
  watch := false
  lock := false
  size := 0
  cache := 0
  asid := 1
  vpn := 16
  pfn := 16

/-- The word stands in memory and its page is mapped in the clusters 0. -/
def State.placeWord (s : State) (x : Word) : State :=
  { s.modCluster 0 fun c => { c with tlb := [placeEntry] } with
    mem := s.mem.write placeVa (bytesLE 4 x.toNat) }

/-- One wave of one group on core 0 issues next. -/
def State.placeSimt (s : State) (x : Word) : State :=
  let g : Group :=
    { core := 0, gslot := 0, lid := 0, asid := 1, hgd := none, index := 0, gang := 0, waves := 1, taskw := 0,
      blocks := 8, bars := 16, localkb := 0, cslots := 0, fpcr := 0, prio := 0, slots := [0],
      missing := 0, checked := false, part := 0 }
  { s.placeWord x with
    ctxs := [{ asid := 1, slot := 0 }]
    groups := [g]
    waves := [newWave 0 0 0 0 .launched (BitVec.allOnes 32) (BitVec.ofNat 64 placeVa) 0 0 []]
    agenda := [⟨1, .issue 0 0⟩] }

/-- One firmware wave of the cluster service core of cluster 0 issues next. -/
def State.placeFirmware (s : State) (x : Word) : State :=
  { s.placeWord x with
    waves := [newWave 160 0 0 0 .firmware 1 (BitVec.ofNat 64 placeVa) 0 0 []]
    agenda := [⟨1, .issue 160 0⟩] }

/-- One thread of the TRP of core 0 issues next. -/
def State.placeThread (s : State) (x : Word) : State :=
  let t : Thread :=
    { num := 0, kind := .record, core := 0, asid := 1, gslot := 0, lid := 0, cmd := 0, rva := 0, t := [],
      pc := 0, words := [x], payload := 0, tag := 0, cq := 0, ext := 0, dtab := 0, prog := 0 }
  let s := { s with ctxs := [{ asid := 1, slot := 0 }] }
  { s.modCore 0 fun c => { c with trp := { c.trp with threads := [t] } } with
    agenda := [⟨1, .trav 0⟩] }

/-- Where a word runs: a SIMT core, a service core when it is privileged, or a TRP when it is no wave
instruction. -/
noncomputable def State.placeAny (s : State) (x : Word) : State :=
  match decodeWave false x with
  | .ok _ => s.placeSimt x
  | .bad c =>
    if c == 0x004 then s.placeFirmware x
    else match decodeTrav x with
      | .ok _ => s.placeThread x
      | .bad _ => s.placeSimt x

end Sys2Proof.Machine
end

