-- ==== Sys2Proof/Machine/Turns.lean ====
section
/-! DEFINITION. The acts of the agenda that are no instruction and no event, and the act of a step whose
agenda is empty (log entry 1). -/

namespace Sys2Proof.Machine

/-- The acts that take place while the core clock is stopped: events from outside (R454). -/
def Act.outside (a : Act) : Bool :=
  match a with
  | .event _ => true
  | .barRead _ _ => true
  | .recoveryImage _ => true
  | _ => false

/-- The turn of a step, and the state that it acts on: time has passed, unless the core clock is stopped (R454). -/
def State.takeTurn (s : State) : Act × State :=
  match s.agenda with
  | t :: rest =>
    let s := { s with agenda := rest }
    if s.stopped then (if t.act.outside then t.act else .idle, s) else (t.act, s.tick t.dt)
  | [] => (.idle, if s.stopped then s else s.tick 1)

/-- A pending load of a wave takes its value now (R231). -/
def State.sampleAt (s : State) (core slot k : Nat) : State :=
  match s.wave? core slot with
  | none => s
  | some w => match w.pend[k]? with
    | none => s
    | some p => match p.src with
      | .mem grp _ _ pa _ _ _ => s.forceAll core [.load slot grp pa]
      | _ => s

/-- An act that is no instruction and no event. -/
noncomputable def State.prep (s : State) (a : Act) : Prep :=
  match a with
  | .issue core part => s.prepIssue core part
  | .trav core => s.prepTrav core
  | .event e => if isEvent e && (!s.stopped || fromHost e) then .run e s else .done s
  | .sample core slot k => .done (s.sampleAt core slot k)
  | .element core k j => .done (s.moveElement core k j)
  | .command id => .done (s.command id)
  | .l1Drop core line => .done (s.modCore core fun c => { c with l1 := c.l1.filter fun e => e.1 != line })
  | .icDrop core word => .done (s.modCore core fun c => { c with ic := c.ic.filter fun e => e.1 != word })
  | .tlbDrop core k => .done (s.modCore core fun c => { c with tlb := c.tlb.eraseIdx k })
  | .tlbiAct k => .done (s.actTlbi k)
  | .temp i v => .done (if Nat.blt i 48 then { s with temps := Tab.put 0 s.temps i v } else s)
  | .ring c v => .done (if Nat.blt c 80 then s.modCluster c fun x => { x with ring := v } else s)
  | .board v => .done { s with board := v }
  | .hsc q => .done (s.hscStep q)
  | .barRead off len => .done (s.gate off fun s => s.barRead off len)
  | .recoveryImage m => .done (s.loadImage m)
  | .firmware core slot pc => .done (s.startFirmware core slot pc)
  | .scanLine head => .done (s.scanLine head)
  | .port => .done s.endLost
  | .idle => .done s

end Sys2Proof.Machine
end

