-- ==== Sys2Proof/Machine/Step.lean ====
section
/-! DEFINITION. One step of the device: a turn of the agenda. -/

namespace Sys2Proof.Machine

/-- One step. After a thermal trip the clock has stopped: only host requests are answered, and only a conventional
reset goes on (R454). -/
noncomputable def step (s : State) : Out :=
  match s.takeTurn with
  | (a, s) =>
    match s.prep a with
    | .done s => .next s
    | .run i s => exec i s

/-- The state in which one given word is the instruction that the next step runs (log entry 5). -/
noncomputable def State.withFetchWord (s : State) (nbits w : Nat) : State :=
  s.placeAny (BitVec.ofNat 32 (w % 2 ^ nbits))

end Sys2Proof.Machine
end

