-- ==== Sys2Proof/Safety.lean ====
section
/-! DEFINITION. The terms of the statements: the invariant of a run, the conditions under which a wave instruction
meets nothing in its way, and what an instruction that completes leaves changed and unchanged. -/

namespace Sys2Proof.Machine

/-! ## The canonical form of the state -/

/-- The register tables of a wave are canonical, and a stream is bound once. -/
def Wave.wf (w : Wave) : Bool :=
  Tab.wf (0 : Word) w.g && Tab.wf (0 : Word) w.w && Tab.wf false w.p && Tab.wf (0 : DWord) w.cd &&
    Tab.wf (0 : DWord) w.sd && Tab.wf 0 w.arrived &&
    decide ((w.streams.map fun e => e.1).Nodup) && w.streams.all fun e => Nat.blt e.1 4

/-- The tables of a group are canonical. -/
def Group.wf (g : Group) : Bool :=
  Memory.wf g.loc && Tab.wf ({} : Barrier) g.barriers && Tab.wf (none : Option CSlot) g.caps

/-- The tables of a core are canonical. -/
def Core.wf (c : Core) : Bool :=
  Tab.wf 0 c.msgSeq && Tab.wf 0 c.trapSeq && Tab.wf (none : Option HEntry) c.htab

/-- The tables of cores and clusters are canonical. -/
def State.tabs (s : State) : Bool :=
  Tab.wf ({} : Core) s.cores && (s.cores.all fun e => e.2.wf) && Tab.wf ({} : Cluster) s.clusters

/-- The canonical form of the state: memory, the tables of the device, of cores and of clusters, and those of every
group and wave, of the ones that are switched out too. Every step keeps it. -/
def State.wf (s : State) : Bool :=
  s.tabs && Memory.wf s.mem && (s.groups.all Group.wf) && (s.waves.all Wave.wf) &&
    (s.saved.all fun v => v.groups.all Group.wf && v.waves.all Wave.wf) &&
    Tab.wf 0 s.locks && Tab.wf 0 s.ways && Tab.wf 0 s.parts && Tab.wf (0 : BitVec 16) s.routes &&
    Tab.wf ({} : DSlot) s.slots && Tab.wf 0 s.dleft && Tab.wf 0 s.lastOf

/-! ## A wave with an instruction under way -/

/-- The selected wave and its current path have an instruction under way (R131, R152), its register tables and those of
cores and clusters are canonical, no exception of the run waits for a switch point that the instruction would be (R95),
and no register is poisoned (R407). -/
structure Plain (s : State) (sw : Bool) (w : Wave) (p : Path) : Prop where
  wave : s.wave? s.selCore s.selSlot = some w
  path : w.path? = some p
  run : w.stat = .run
  wf : w.wf = true
  tabs : s.tabs = true
  calm : sw = true → w.excs = [] ∨ w.pend ≠ []
  sound : w.poison = []

/-- No register that the instruction names is bound as a stream (R125), and none is pending under checked
issue (R136). -/
structure Clear (w : Wave) (u : Use) : Prop where
  streams : ∀ e ∈ w.streams, ∀ r ∈ u.srcs ++ u.dsts, covers r e.1 = false
  hazards : ∀ m, w.hazard u m = none

/-- The lanes in which an instruction that acts per lane acts: active lanes of the current path whose guard is
true (R27). -/
def Wave.acting (w : Wave) (g : BitVec 3) (p : Path) : Lanes := w.guarded g (w.lanesOfPath p)

/-! ## What an instruction leaves -/

/-- A g or predicate register in a lane, or a w register. -/
def Dst.isReg (d : Dst) : Bool :=
  match d with
  | .g _ l => Nat.blt l 32
  | .w _ => true
  | .p _ l => Nat.blt l 32
  | _ => false

/-- The new values when each lane of a mask has results of its own. -/
def laneNew (act : Lanes) (res : Nat → List (Dst × Word)) (d : Dst) : Option Word :=
  match d.lane? with
  | some l => if act.getLsbD l then (res l).lookup d else none
  | none => none

/-- The paths of a wave after an instruction: the current one stands 4 bytes further, and has set CHANGED if `ch`
(R26, R150). -/
def Wave.pathsOn (w : Wave) (ch : Bool) : List Path :=
  w.paths.map fun q =>
    if q.made == w.cur then { if ch then q.touch else q with pc := q.pc + 4 } else q

/-- The wave after an instruction that has issued, its registers apart: the current path stands 4 bytes further, the run
counts the instruction, and S = 1 is a switch point (R26, R131, R133). -/
def Wave.gone (w : Wave) (sw ch : Bool) : Wave :=
  { w with paths := w.pathsOn ch, count := w.count + 1, stat := if sw then .switch else .run }

/-- The wave after an L-class instruction: its results are outstanding, after the flags that it sets; under checked
issue its registers are pending to the end of the run (R134, R136). -/
def Wave.queued (w : Wave) (checked : Bool) (news : List (Dst × Src)) (fl : Flags) : Wave :=
  let rs := news.filter fun x => !x.1.isNull || x.2.isHeld
  { w with
    pend := w.pend ++ (rs.map fun x => ⟨x.1, x.2, w.cur, w.word⟩) ++
      (if fl == 0 then [] else [⟨.fpsr, .val (fl.setWidth 32), w.cur, w.word⟩])
    haz := if checked then (rs.map fun x => x.1).reverse ++ w.haz else w.haz }

/-- The wave `w` has become `w'`, and nothing else of the device has changed: only the identifiers of the model go on. -/
def Becomes (s t : State) (w' : Wave) : Prop := ∃ n, t = { s with nextId := n }.setWave w'

/-- The wave `w` has issued an L-class instruction: its results are outstanding, no register has changed, and nothing
else of the device has. -/
def Posts (s t : State) (w : Wave) (sw : Bool) (news : List (Dst × Src)) (fl : Flags) : Prop :=
  Becomes s t ((w.queued (s.checkedOf w) news fl).gone sw false)

/-- The wave `w` has issued an instruction that wrote `new` in program order and set flags, and nothing else of the
device has changed. A written register whose value differs sets CHANGED. -/
def Retires (s t : State) (w : Wave) (sw : Bool) (new : Dst → Option Word) (fl : Flags) : Prop :=
  ∃ w' ch, Becomes s t w' ∧
    (∀ d : Dst, d.isReg = true → w'.readDst d = if d.isNull then w.readDst d else (new d).getD (w.readDst d)) ∧
    (ch = true ↔ ∃ d : Dst, ∃ v, d.isReg = true ∧ d.isNull = false ∧ new d = some v ∧ v ≠ w.readDst d) ∧
    w' = { w.gone sw ch with g := w'.g, w := w'.w, p := w'.p, fpsr := w.fpsr ||| fl.setWidth 32 }

/-! ## The shapes of wave instructions -/

/-- The flags that lanes raise together; helper lanes raise none (R20, R92). -/
def Wave.raised (w : Wave) (act : Lanes) (f : Nat → Flags) : Flags :=
  allFlags (((lanesOf act).map fun l => (l, f l)).filter fun x => !w.helper.getLsbD x.1)

/-- `i` acts per lane and is A-class: wherever nothing stands in its way and no flag that it raises is enabled to trap,
it completes; in each acting lane the results `res` of that lane are written, the flags go to %fpsr, and all else stays
(R27, R92, R134). -/
def WritesPerLane (i : Instr) (c : Ctl) (u : Use) (res : Wave → Lanes → Nat → List (Dst × Word) × Flags) : Prop :=
  ∀ s w p, Plain s c.s w p → Clear w u →
    enabledFlags w.fpcr (w.raised (w.acting c.p p) fun l => (res w (w.acting c.p p) l).2) = 0 →
    ∃ t, exec i s = .next t ∧
      Retires s t w c.s (laneNew (w.acting c.p p) fun l => (res w (w.acting c.p p) l).1)
        (w.raised (w.acting c.p p) fun l => (res w (w.acting c.p p) l).2)

/-- `i` acts per lane and is L-class: wherever nothing stands in its way and no flag that it raises is enabled to trap,
it completes, and the results and flags of its lanes are outstanding (R27, R134). -/
def PostsPerLane (i : Instr) (c : Ctl) (u : Use) (res : Wave → Lanes → Nat → List (Dst × Word) × Flags) : Prop :=
  ∀ s w p, Plain s c.s w p → Clear w u →
    enabledFlags w.fpcr (w.raised (w.acting c.p p) fun l => (res w (w.acting c.p p) l).2) = 0 →
    ∃ t, exec i s = .next t ∧
      Posts s t w c.s
        (((lanesOf (w.acting c.p p)).map fun l => (res w (w.acting c.p p) l).1).flatten.map
          fun x => (x.1, Src.val x.2))
        (w.raised (w.acting c.p p) fun l => (res w (w.acting c.p p) l).2)

/-- `i` acts once per wave and is A-class: wherever nothing stands in its way it completes; when its guard is true in
the lane of R28, the results `res` for that lane and the active lanes of the path are written, and else nothing is. -/
def WritesPerWave (i : Instr) (c : Ctl) (srcs dsts wsrcs wdsts : List (Reg × Nat)) (ps pds : List (BitVec 3))
    (res : Wave → Nat → Lanes → List (Dst × Word)) : Prop :=
  ∀ s w p, Plain s c.s w p → Clear w (waveUse w c.p srcs dsts wsrcs wdsts ps pds) →
    ∃ t, exec i s = .next t ∧
      Retires s t w c.s (fun d => match w.actsIn c.p (w.lanesOfPath p) with
        | none => none
        | some l => (res w l (w.lanesOfPath p)).lookup d) 0

/-! ## Accesses -/

/-- Two states differ in the entries that the TLBs keep, and in their order, alone. -/
def SameButTlb (s t : State) : Prop :=
  t = { s with cores := t.cores, clusters := t.clusters } ∧
  (∀ c, { t.core c with tlb := [] } = { s.core c with tlb := [] }) ∧
  ∀ c, { t.cluster c with tlb := [] } = { s.cluster c with tlb := [] }

/-- An access of the wave with some rights to a virtual address translates: every entry of the TLBs that it can meet gives
the same physical address and CACHE attribute, and the cluster L2 TLB holds one (R251, R254, R255). -/
def Translates (s : State) (w : Wave) (n : Need) (va : DWord) (pa how : Nat) : Prop :=
  let mine := (s.cluster (clusterOf w.core)).tlb
  let near := if isService w.core then [] else (s.core w.core).tlb.map fun x => x.2
  canonical va = true ∧ (mine.any fun e => e.hits (s.asidOf w) va) = true ∧
  ∀ e ∈ mine ++ near, e.hits (s.asidOf w) va = true → s.crossPart w.core (e.give n va) = .ok pa how

/-- An access of the wave reaches a physical address: by the walk path of a service core (R256), or by translation; an
atomic needs device memory or the slice window (R214). -/
def Reaches (s : State) (w : Wave) (k : AccKind) (va : DWord) (pa how : Nat) : Prop :=
  if isService w.core && va.msb && k.walks then
    va.extractLsb' 46 17 = 0 ∧ pa = va.toNat % 2 ^ 46 ∧ inDev pa = true ∧ how = 4
  else Translates s w k.need va pa how ∧ (k.atomic = true → (inDev pa || inSlice pa) = true)

/-- The wave has no acquire, push or faulted access outstanding, so that an access of it is made at once (R195, R220,
R264); the identifiers in use lie below the next one. -/
structure Idle (s : State) (w : Wave) : Prop where
  acq : w.acq = []
  pushes : w.pushing = false
  faults : s.faulted w = false
  pend : ∀ q ∈ w.pend, ∀ g, q.src.grp? = some g → g < s.nextId
  queue : ∀ e ∈ (s.core w.core).sq, e.grp < s.nextId ∧ e.id < s.nextId

/-- The wave after a load: its results are outstanding, those of g0 and w0 too, since the access is made. -/
def Wave.loading (w : Wave) (checked : Bool) (rs : List (Dst × Src)) : Wave :=
  { w with
    pend := w.pend ++ rs.map fun x => ⟨x.1, x.2, w.cur, w.word⟩
    haz := if checked then (rs.map fun x => x.1).reverse ++ w.haz else w.haz }

/-- The wave has become `w'`, and nothing else has changed but the identifiers and the entries that the TLBs keep. -/
def Accesses (s t : State) (w' : Wave) : Prop := ∃ s', Becomes s s' w' ∧ SameButTlb s' t

end Sys2Proof.Machine
end

