-- ==== Sys2Proof/Certificates/Slice0/Obligations.lean ====
section
/-! DEFINITION. The statements for the provers, with the functions of the spec that they are stated in. -/

/-! ## Integer instructions -/

namespace Sys2Proof.Claims

open Sys2Proof.Machine

/-- An integer result is computed exactly and then narrowed (R61). -/
def narrow (n : Int) : Word := BitVec.ofInt 32 n
def narrow64 (n : Int) : DWord := BitVec.ofInt 64 n

/-- The shifts of R62, for operands of any width. -/
def shiftLeft {n : Nat} (a : BitVec n) (k : Word) : BitVec n :=
  if k.toNat < n then BitVec.ofNat n (a.toNat * 2 ^ k.toNat) else 0
def shiftRight {n : Nat} (a : BitVec n) (k : Word) : BitVec n :=
  if k.toNat < n then BitVec.ofNat n (a.toNat / 2 ^ k.toNat) else 0
def shiftArith {n : Nat} (a : BitVec n) (k : Word) : BitVec n :=
  if k.toNat < n then BitVec.ofInt n (a.toInt / 2 ^ k.toNat) else if a.toInt < 0 then BitVec.ofInt n (-1) else 0

/-- The functions of Table 3-4, by the mnemonics of the lane form and of the w form. -/
def table34 : List ((Ctl → Reg → Reg → Reg → Instr) × (Ctl → Reg → Reg → Reg → Instr) × (Word → Word → Word)) :=
  [ (.addR, .wadd, fun a b => narrow (a.toInt + b.toInt)),
    (.subR, .wsub, fun a b => narrow (a.toInt - b.toInt)),
    (.andR, .wand, fun a b => a &&& b),
    (.orR, .wor, fun a b => a ||| b),
    (.xorR, .wxor, fun a b => a ^^^ b),
    (.andn, .wandn, fun a b => a &&& ~~~b),
    (.shl, .wshl, shiftLeft),
    (.shr, .wshr, shiftRight),
    (.sra, .wsra, shiftArith),
    (.minR, .wmin, fun a b => narrow (min a.toInt b.toInt)),
    (.maxR, .wmax, fun a b => narrow (max a.toInt b.toInt)),
    (.minu, .wminu, fun a b => narrow (min a.toNat b.toNat : Nat)),
    (.maxu, .wmaxu, fun a b => narrow (max a.toNat b.toNat : Nat)),
    (.mulR, .wmul, fun a b => narrow (a.toInt * b.toInt)),
    (.mulh, .wmulh, fun a b => narrow (a.toInt * b.toInt / 2 ^ 32)),
    (.mulhu, .wmulhu, fun a b => narrow ((a.toNat * b.toNat : Nat) / 2 ^ 32)) ]

/-- The field of R68. -/
def fieldPos (b : Word) : Nat := b.toNat % 32
def fieldWidth (b : Word) : Nat := min (min (b.toNat / 256 % 64) 32) (32 - fieldPos b)
def fieldMask (b : Word) : Nat := (2 ^ fieldWidth b - 1) * 2 ^ fieldPos b

/-- BFXU of R68, as a number. -/
def fieldOf (a b : Word) : Nat := a.toNat / 2 ^ fieldPos b % 2 ^ fieldWidth b

/-- BFX of R68: the field sign-extended from its top bit. -/
def fieldSigned (a b : Word) : Word :=
  narrow (if fieldWidth b ≠ 0 ∧ 2 ^ (fieldWidth b - 1) ≤ fieldOf a b then fieldOf a b - 2 ^ fieldWidth b
    else fieldOf a b)

/-- BFI of R68. -/
def fieldInsert (d a b : Word) : Word :=
  (d &&& ~~~BitVec.ofNat 32 (fieldMask b)) ||| (BitVec.ofNat 32 (a.toNat * 2 ^ fieldPos b) &&& BitVec.ofNat 32 (fieldMask b))

/-- The conditions of R80. -/
def uniformHolds (k : WCond) (a b : Word) : Bool :=
  match k with
  | .eq => decide (a = b)
  | .ne => decide (a ≠ b)
  | .lt => decide (a.toInt < b.toInt)
  | .ge => decide (b.toInt ≤ a.toInt)
  | .ltu => decide (a.toNat < b.toNat)
  | .geu => decide (b.toNat ≤ a.toNat)

/-- The sum of a number over the bits of a word that are set. -/
def bitSum (a : Word) (f : Nat → Nat) : Nat := (List.range 32).foldl (fun n i => if a.getLsbD i then n + f i else n) 0

/-- The leading zero bits of a word. -/
def leadingZeros (a : Word) : Nat := ((List.range 33).filter fun k => k ≠ 0 ∧ a.toNat / 2 ^ (32 - k) = 0).length

/-- The rotation of R73. -/
def rotate (a : Word) (n : Nat) : Word := BitVec.ofNat 32 (a.toNat * 2 ^ n + a.toNat / 2 ^ (32 - n))

end Sys2Proof.Claims

section

open Sys2Proof Sys2Proof.Machine Sys2Proof.Claims

/-- R66, R62, R61, R22: each function of Table 3-4 writes gD in every acting lane, and nothing else. -/
def Sys2Proof.Claims.LaneArithmetic : Prop :=
  ∀ e ∈ table34, ∀ (c : Ctl) (d a b : Reg),
    WritesPerLane (e.1 c d a b) c (laneUse c.p [(a, 1), (b, 1)] [(d, 1)] [] [])
      fun w _ l => ([(.g d l, e.2.2 (w.readG a l) (w.readG b l))], 0)

/-- R78, R28: each function of Table 3-4 on w registers, WADDI and WMOVI write wD once per wave. -/
def Sys2Proof.Claims.UniformArithmetic : Prop :=
  (∀ e ∈ table34, ∀ (c : Ctl) (d a b : Reg),
    WritesPerWave (e.2.1 c d a b) c [] [] [(a, 1), (b, 1)] [(d, 1)] [] []
      fun w _ _ => [(.w d, e.2.2 (w.readW a) (w.readW b))]) ∧
  (∀ c d a imm, WritesPerWave (.waddi c d a imm) c [] [] [(a, 1)] [(d, 1)] [] []
    fun w _ _ => [(.w d, narrow ((w.readW a).toInt + imm.toInt))]) ∧
  (∀ c d imm, WritesPerWave (.wmovi c d imm) c [] [] [] [(d, 1)] [] [] fun _ _ _ => [(.w d, narrow imm.toInt)])

/-- R79, R80: G2W takes the g register of the lane of R28; W2G and WCMP write one value in every active lane of the
path. -/
def Sys2Proof.Claims.UniformExchange : Prop :=
  (∀ c d a, WritesPerWave (.g2w c d a) c [(a, 1)] [] [] [(d, 1)] [] [] fun w l _ => [(.w d, w.readG a l)]) ∧
  (∀ c d a, WritesPerWave (.w2g c d a) c [] [(d, 1)] [(a, 1)] [] [] []
    fun w _ m => (lanesOf m).map fun l => (.g d l, w.readW a)) ∧
  (∀ c pd k a b, WritesPerWave (.wcmp c pd k a b) c [] [] [(a, 1), (b, 1)] [] [] [pd]
    fun w _ m => (lanesOf m).map fun l => (.p pd l,
      if uniformHolds k (w.readW a) (w.readW b) then 1 else 0))

/-- R67 to R69: the bit functions. -/
def Sys2Proof.Claims.BitFields : Prop :=
  ∀ c d a b,
    WritesPerLane (.clz c d a) c (laneUse c.p [(a, 1)] [(d, 1)] [] [])
      (fun w _ l => ([(.g d l, narrow (leadingZeros (w.readG a l)))], 0)) ∧
    WritesPerLane (.popc c d a) c (laneUse c.p [(a, 1)] [(d, 1)] [] [])
      (fun w _ l => ([(.g d l, narrow (bitSum (w.readG a l) fun _ => 1))], 0)) ∧
    WritesPerLane (.brev c d a) c (laneUse c.p [(a, 1)] [(d, 1)] [] [])
      (fun w _ l => ([(.g d l, narrow (bitSum (w.readG a l) fun i => 2 ^ (31 - i)))], 0)) ∧
    WritesPerLane (.bfx c d a b) c (laneUse c.p [(a, 1), (b, 1)] [(d, 1)] [] [])
      (fun w _ l => ([(.g d l, fieldSigned (w.readG a l) (w.readG b l))], 0)) ∧
    WritesPerLane (.bfxu c d a b) c (laneUse c.p [(a, 1), (b, 1)] [(d, 1)] [] [])
      (fun w _ l => ([(.g d l, narrow (fieldOf (w.readG a l) (w.readG b l)))], 0)) ∧
    WritesPerLane (.bfi c d a b) c (laneUse c.p [(d, 1), (a, 1), (b, 1)] [(d, 1)] [] [])
      (fun w _ l => ([(.g d l, fieldInsert (w.readG d l) (w.readG a l) (w.readG b l))], 0)) ∧
    WritesPerLane (.absd c d a b) c (laneUse c.p [(a, 1), (b, 1)] [(d, 1)] [] [])
      (fun w _ l => ([(.g d l, narrow ((w.readG a l).toInt - (w.readG b l).toInt).natAbs)], 0))

/-- R73, R74: the immediate forms. -/
def Sys2Proof.Claims.Immediates : Prop :=
  (∀ c d a (imm : BitVec 10), ∀ e ∈ ([
      (.addi c d a imm, fun x => narrow (x.toInt + imm.toInt)),
      (.andi c d a imm, fun x => x &&& narrow imm.toInt),
      (.ori c d a imm, fun x => x ||| narrow imm.toNat),
      (.xori c d a imm, fun x => x ^^^ narrow imm.toNat),
      (.muli c d a imm, fun x => narrow (x.toInt * imm.toInt))] : List (Instr × (Word → Word))),
    WritesPerLane e.1 c (laneUse c.p [(a, 1)] [(d, 1)] [] []) fun w _ l => ([(.g d l, e.2 (w.readG a l))], 0)) ∧
  (∀ c d a (n : BitVec 5), ∀ e ∈ ([
      (.shli c d a n, fun x => shiftLeft x (n.setWidth 32)),
      (.shri c d a n, fun x => shiftRight x (n.setWidth 32)),
      (.srai c d a n, fun x => shiftArith x (n.setWidth 32)),
      (.roli c d a n, fun x => rotate x n.toNat)] : List (Instr × (Word → Word))),
    WritesPerLane e.1 c (laneUse c.p [(a, 1)] [(d, 1)] [] []) fun w _ l => ([(.g d l, e.2 (w.readG a l))], 0)) ∧
  (∀ c d (imm : BitVec 16),
    WritesPerLane (.movi c d imm) c (laneUse c.p [] [(d, 1)] [] []) (fun _ _ l => ([(.g d l, narrow imm.toInt)], 0)) ∧
    WritesPerLane (.movhi c d imm) c (laneUse c.p [(d, 1)] [(d, 1)] [] [])
      (fun w _ l => ([(.g d l, narrow (imm.toNat * 2 ^ 16 + (w.readG d l).toNat % 2 ^ 16 : Nat))], 0)))

/-- R71, R72: the functions of pairs; the low word goes to gD and the high word to gD+1. -/
def Sys2Proof.Claims.PairArithmetic : Prop :=
  (∀ c d a b, ∀ e ∈ ([(.lea c d a b, 1), (.lea2 c d a b, 2), (.lea4 c d a b, 4), (.lea8 c d a b, 8)] : List (Instr × Int)),
    WritesPerLane e.1 c (laneUse c.p [(a, 2), (b, 1)] [(d, 2)] [] [])
      fun w _ l => (pairOf d l (narrow64 ((w.readG2 a l).toNat + (w.readG b l).toInt * e.2)), 0)) ∧
  (∀ c d a b, ∀ e ∈ ([
      (.add64 c d a b, fun x y => narrow64 (x.toInt + y.toInt)),
      (.sub64 c d a b, fun x y => narrow64 (x.toInt - y.toInt)),
      (.minu64 c d a b, fun x y => narrow64 (min x.toNat y.toNat : Nat)),
      (.maxu64 c d a b, fun x y => narrow64 (max x.toNat y.toNat : Nat))] : List (Instr × (DWord → DWord → DWord))),
    WritesPerLane e.1 c (laneUse c.p [(a, 2), (b, 2)] [(d, 2)] [] [])
      fun w _ l => (pairOf d l (e.2 (w.readG2 a l) (w.readG2 b l)), 0)) ∧
  (∀ c d a b, ∀ e ∈ ([(.shl64 c d a b, shiftLeft), (.shr64 c d a b, shiftRight), (.sra64 c d a b, shiftArith)] :
      List (Instr × (DWord → Word → DWord))),
    WritesPerLane e.1 c (laneUse c.p [(a, 2), (b, 1)] [(d, 2)] [] [])
      fun w _ l => (pairOf d l (e.2 (w.readG2 a l) (w.readG b l)), 0)) ∧
  (∀ c d a b, WritesPerLane (.mul32w c d a b) c (laneUse c.p [(a, 1), (b, 1)] [(d, 2)] [] [])
    fun w _ l => (pairOf d l (narrow64 ((w.readG a l).toNat * (w.readG b l).toNat : Nat)), 0))

/-- R70: ADDC and SUBB carry through p6, which they write beside gD. -/
def Sys2Proof.Claims.CarryChains : Prop :=
  ∀ c d a b,
    WritesPerLane (.addc c d a b) c (laneUse c.p [(a, 1), (b, 1)] [(d, 1)] [6] [6]) (fun w _ l =>
      let n := (w.readG a l).toNat + (w.readG b l).toNat + (if w.readP 6 l then 1 else 0)
      ([(.g d l, narrow n), (.p 6 l, if 2 ^ 32 ≤ n then 1 else 0)], 0)) ∧
    WritesPerLane (.subb c d a b) c (laneUse c.p [(a, 1), (b, 1)] [(d, 1)] [6] [6]) (fun w _ l =>
      let n : Int := (w.readG a l).toNat - (w.readG b l).toNat - (if w.readP 6 l then 1 else 0)
      ([(.g d l, narrow n), (.p 6 l, if n < 0 then 1 else 0)], 0))

end

namespace Sys2Proof.Claims

/-- The conditions of R75. -/
def holds (k : ICond) (a b : Word) : Bool :=
  match k with
  | .eq => decide (a = b)
  | .ne => decide (a ≠ b)
  | .lt => decide (a.toInt < b.toInt)
  | .le => decide (a.toInt ≤ b.toInt)
  | .gt => decide (b.toInt < a.toInt)
  | .ge => decide (b.toInt ≤ a.toInt)
  | .ltu => decide (a.toNat < b.toNat)
  | .leu => decide (a.toNat ≤ b.toNat)
  | .gtu => decide (b.toNat < a.toNat)
  | .geu => decide (b.toNat ≤ a.toNat)

/-- The combine of R75: the value that a compare writes to its predicate. -/
def combined (k : Cmb) (old c : Bool) : Word :=
  if (match k with
    | .set => c
    | .and => old && c
    | .or => old || c
    | .xor => old ^^ c) then 1 else 0

/-- The predicates that a combine reads. -/
def combineReads (k : Cmb) (pd : BitVec 3) : List (BitVec 3) := if k = .set then [] else [pd]

end Sys2Proof.Claims

section

open Sys2Proof Sys2Proof.Machine Sys2Proof.Claims

/-- R75: ICMP and ICMPI. -/
def Sys2Proof.Claims.IntegerCompares : Prop :=
  ∀ c pd k a m,
    (∀ b, WritesPerLane (.icmp c pd k a b m) c (laneUse c.p [(a, 1), (b, 1)] [] (combineReads m pd) [pd])
      fun w _ l => ([(.p pd l, combined m (w.readP pd l) (holds k (w.readG a l) (w.readG b l)))], 0)) ∧
    (∀ imm, WritesPerLane (.icmpi c pd k a imm m) c (laneUse c.p [(a, 1)] [] (combineReads m pd) [pd])
      fun w _ l => ([(.p pd l, combined m (w.readP pd l) (holds k (w.readG a l) (narrow imm.toInt)))], 0))

/-- R76, R77, R30: the predicate functions and SEL, which has no guard. -/
def Sys2Proof.Claims.PredicatesAndSelect : Prop :=
  (∀ c pd pa pb, ∀ e ∈ ([(.pand c pd pa pb, fun x y => x && y), (.por c pd pa pb, fun x y => x || y),
      (.pxor c pd pa pb, fun x y => x ^^ y)] : List (Instr × (Bool → Bool → Bool))),
    WritesPerLane e.1 c (laneUse c.p [] [] [pa, pb] [pd])
      fun w _ l => ([(.p pd l, if e.2 (w.readP pa l) (w.readP pb l) then 1 else 0)], 0)) ∧
  (∀ c pd pa, WritesPerLane (.pnot c pd pa) c (laneUse c.p [] [] [pa] [pd])
    fun w _ l => ([(.p pd l, if w.readP pa l then 0 else 1)], 0)) ∧
  (∀ c d pa, WritesPerLane (.p2g c d pa) c (laneUse c.p [] [(d, 1)] [pa] [])
    fun w _ l => ([(.g d l, if w.readP pa l then 1 else 0)], 0)) ∧
  (∀ c pd a, WritesPerLane (.g2p c pd a) c (laneUse c.p [(a, 1)] [] [] [pd])
    fun w _ l => ([(.p pd l, if w.readG a l = 0 then 0 else 1)], 0)) ∧
  (∀ sw ps d a b, WritesPerLane (.sel sw ps d a b) ⟨sw, 7⟩ (laneUse 7 [(a, 1), (b, 1)] [(d, 1)] [ps] [])
    fun w _ l => ([(.g d l, if w.readP ps l then w.readG a l else w.readG b l)], 0))

end

/-! ## Floating-point instructions -/

namespace Sys2Proof.Claims

open Sys2Proof.Machine

/-- The real value of a finite number (R88); 0 for the others. -/
noncomputable def real (x : FNum) : ℝ :=
  match x with
  | .fin s m e => (if s then -1 else 1) * (m : ℝ) * (2 : ℝ) ^ e
  | _ => 0

/-- The four IEEE formats of Table 4-1. -/
def ieee : List Fmt := [f64, f32, f16, bf16]

/-- A format holds a finite value. -/
def Holds (f : Fmt) (z : ℝ) : Prop := ∃ b < 2 ^ (f.eb + f.fb + 1), (f.num b).isFin = true ∧ real (f.num b) = z

/-- The bits `b` are the value of a format that a mode chooses for `v`, when that is in range. -/
def Chosen (f : Fmt) (rm : Rm) (v : ℝ) (b : Nat) : Prop :=
  let y := real (f.num b)
  match rm with
  | .rne => (∀ z, Holds f z → |v - y| ≤ |v - z|) ∧ ((∃ z, Holds f z ∧ z ≠ y ∧ |v - z| = |v - y|) → b % 2 = 0)
  | .rtz => |y| ≤ |v| ∧ ∀ z, Holds f z → |z| ≤ |v| → |z| ≤ |y|
  | .rup => v ≤ y ∧ ∀ z, Holds f z → v ≤ z → y ≤ z
  | .rdn => y ≤ v ∧ ∀ z, Holds f z → z ≤ v → z ≤ y

/-- Rounded to the precision of the format alone, `v` exceeds its largest finite value. -/
def TooLarge (f : Fmt) (rm : Rm) (v : ℝ) : Prop :=
  let top := real (f.num (f.top false))
  let next : ℝ := 2 ^ (f.bias + 1)
  match rm with
  | .rne => 2 ^ f.bias * (2 - (2 : ℝ) ^ (-((f.fb : ℤ) + 1))) ≤ |v|
  | .rtz => next ≤ |v|
  | .rup => top < v ∨ v ≤ -next
  | .rdn => v < -top ∨ next ≤ v

/-- Rounded to the precision of the format alone, `v` lies below its smallest normal value. -/
def Tiny (f : Fmt) (rm : Rm) (v : ℝ) : Prop :=
  let least : ℝ := 2 ^ (1 - (f.bias : ℤ))
  let gap : ℝ := 2 ^ (-(f.bias : ℤ) - (f.fb : ℤ))
  match rm with
  | .rne => |v| < least - gap / 2
  | .rtz => |v| < least
  | .rup => if 0 < v then v ≤ least - gap else -least < v
  | .rdn => if v < 0 then least - gap ≥ -v else v < least

/-- R94: `r` is `v`, not zero, rounded once, with its flags: the sign is that of `v`; OF when the rounded result exceeds the
largest finite value, and the result is then infinite or the largest finite value as the mode has it; UF when it is tiny
and inexact; NX when its value differs. -/
def RoundsTo (f : Fmt) (rm : Rm) (v : ℝ) (r : Nat × Flags) : Prop :=
  ∃ neg of_ uf nx : Bool, (neg = true ↔ v < 0) ∧ (of_ = true ↔ TooLarge f rm v) ∧
    (nx = true ↔ TooLarge f rm v ∨ real (f.num r.1) ≠ v) ∧ (uf = true ↔ nx = true ∧ Tiny f rm v) ∧
    r.1 < 2 ^ (f.eb + f.fb + 1) ∧ (f.num r.1).sign = neg ∧
    (of_ = true → r.1 = if rm = .rne ∨ (rm = .rup ∧ neg = false) ∨ (rm = .rdn ∧ neg = true) then f.inf neg else f.top neg) ∧
    (of_ = false → (f.num r.1).isFin = true ∧ Chosen f rm v r.1) ∧
    r.2 = (if of_ then fOF else 0) ||| (if uf then fUF else 0) ||| (if nx then fNX else 0)

/-- The integer that a mode chooses for `v`. -/
def IntChosen (rm : Rm) (v : ℝ) (n : ℤ) : Prop :=
  match rm with
  | .rne => |v - n| ≤ 1 / 2 ∧ (|v - n| = 1 / 2 → Even n)
  | .rtz => n = if 0 ≤ v then ⌊v⌋ else ⌈v⌉
  | .rup => n = ⌈v⌉
  | .rdn => n = ⌊v⌋

/-- The sign of an exact zero sum: that of two zeros when they share it, and else minus under RDN alone (R94). -/
def zeroSign (rm : Rm) (zeros : Bool) (s t : Bool) : Bool := if zeros && s == t then s else rm == .rdn

/-- A product of zero and an infinity is invalid (R89). -/
def invalidProduct (x y : FNum) : Bool :=
  match x, y with
  | .inf _, y => y.isZero
  | x, .inf _ => x.isZero
  | _, _ => false

/-- FTZ at an operand and at a result of FP32 (R90). -/
def flushed (a : Nat) : Nat := if a % 2 ^ 31 < 2 ^ 23 then a - a % 2 ^ 31 else a
def flushedResult (r : Nat × Flags) : Nat × Flags :=
  if 0 < r.1 % 2 ^ 31 ∧ r.1 % 2 ^ 31 < 2 ^ 23 then (r.1 - r.1 % 2 ^ 31, r.2 ||| fUF ||| fNX) else r

end Sys2Proof.Claims

section

open Sys2Proof Sys2Proof.Machine Sys2Proof.Claims

/-- R94, R88: a value that a format holds is its own rounding, in every mode, and sets no flag. -/
def Sys2Proof.Claims.RoundingExact : Prop :=
  ∀ f ∈ [f64, f32, f16, bf16], ∀ (rm : Rm) (b : Nat), b < 2 ^ (f.eb + f.fb + 1) → (f.num b).isNaN = false →
    f.pack rm (f.num b) = (b, 0)

/-- R89: an operation with a NaN operand gives the canonical qNaN; it sets NV when an operand is signalling, and a quiet
NaN alone sets no flag. -/
def Sys2Proof.Claims.NaNResults : Prop :=
  ∀ f ∈ [f64, f32, f16, bf16], ∀ (rm : Rm) (z : Bool) (x y d : FNum), (x.isNaN ∨ y.isNaN) →
    let nv : Flags := if x.isSNaN || y.isSNaN then fNV else 0
    f.add rm z x y = (f.qnan, nv) ∧ f.mul rm z x y = (f.qnan, nv) ∧ f.minmax z false x y = (f.qnan, nv) ∧
    f.minmax z true x y = (f.qnan, nv) ∧
    f.fma rm z x y d = (f.qnan, if x.isSNaN || y.isSNaN || d.isSNaN then fNV else 0)

/-- R94, R89, R102: sums, products and fused products of finite values are formed exactly and rounded once; those with
infinities are exact or invalid; a NaN that is only the addend gives the canonical qNaN, and 0 times an infinity sets NV
whatever the addend is. -/
def Sys2Proof.Claims.ExactThenRounded : Prop :=
  ∀ f ∈ ieee, ∀ (rm : Rm) (x y z : FNum),
    (x.isFin = true → y.isFin = true →
      (real x + real y ≠ 0 → RoundsTo f rm (real x + real y) (f.add rm false x y)) ∧
      (real x + real y = 0 → f.add rm false x y = (f.zero (zeroSign rm x.isZero x.sign y.sign), 0)) ∧
      (real x * real y ≠ 0 → RoundsTo f rm (real x * real y) (f.mul rm false x y)) ∧
      (real x * real y = 0 → f.mul rm false x y = (f.zero (x.sign != y.sign), 0)) ∧
      (z.isFin = true →
        (real x * real y + real z ≠ 0 → RoundsTo f rm (real x * real y + real z) (f.fma rm false x y z)) ∧
        (real x * real y + real z = 0 →
          f.fma rm false x y z = (f.zero (zeroSign rm z.isZero (x.sign != y.sign) z.sign), 0)))) ∧
    (x.isNaN = false → y.isNaN = false →
      (∀ s, x = .inf s → (y.isFin = true ∨ y = .inf s) → f.add rm false x y = (f.inf s, 0) ∧ f.add rm false y x = (f.inf s, 0)) ∧
      (∀ s, x = .inf s → y = .inf (!s) → f.add rm false x y = (f.qnan, fNV)) ∧
      (invalidProduct x y = true → f.mul rm false x y = (f.qnan, fNV) ∧
        f.fma rm false x y z = (f.qnan, fNV)) ∧
      (x.isFin = false ∨ y.isFin = false → invalidProduct x y = false →
        f.mul rm false x y = (f.inf (x.sign != y.sign), 0) ∧
        (z.isFin = true ∨ z = .inf (x.sign != y.sign) → f.fma rm false x y z = (f.inf (x.sign != y.sign), 0)) ∧
        (z = .inf !(x.sign != y.sign) → f.fma rm false x y z = (f.qnan, fNV))) ∧
      (x.isFin = true → y.isFin = true → ∀ s, z = .inf s → f.fma rm false x y z = (f.inf s, 0)) ∧
      (z.isNaN = true → f.fma rm false x y z = (f.qnan, if z.isSNaN || invalidProduct x y then fNV else 0)))

/-- R90: FTZ reads subnormal FP32 operands as zeros of their signs, without a flag, and writes a result that would be
subnormal as a zero of its sign with UF and NX. -/
def Sys2Proof.Claims.FlushToZero : Prop :=
  ∀ (rm : Rm) (a b d : Nat), a < 2 ^ 32 → b < 2 ^ 32 → d < 2 ^ 32 →
    f32.add rm true (f32.num a) (f32.num b) =
      flushedResult (f32.add rm false (f32.num (flushed a)) (f32.num (flushed b))) ∧
    f32.mul rm true (f32.num a) (f32.num b) =
      flushedResult (f32.mul rm false (f32.num (flushed a)) (f32.num (flushed b))) ∧
    f32.fma rm true (f32.num a) (f32.num b) (f32.num d) =
      flushedResult (f32.fma rm false (f32.num (flushed a)) (f32.num (flushed b)) (f32.num (flushed d)))

/-- R101: FMIN and FMAX are one of the two operands, the smaller or the larger, with minus zero below plus zero, and set no
flag. -/
def Sys2Proof.Claims.MinAndMax : Prop :=
  ∀ f ∈ ieee, ∀ a < 2 ^ (f.eb + f.fb + 1), ∀ b < 2 ^ (f.eb + f.fb + 1), ∀ larger : Bool,
    (f.num a).isFin = true → (f.num b).isFin = true →
    ∃ r, f.minmax false larger (f.num a) (f.num b) = (r, 0) ∧ (r = a ∨ r = b) ∧
      (if larger then real (f.num a) ≤ real (f.num r) ∧ real (f.num b) ≤ real (f.num r)
        else real (f.num r) ≤ real (f.num a) ∧ real (f.num r) ≤ real (f.num b)) ∧
      ((f.num a).isZero = true → (f.num b).isZero = true → a ≠ b → r = f.zero !larger)

/-- R101, R102: FARITH and FFMA of FP32 values under RM and FTZ; the flags go to %fpsr. -/
def Sys2Proof.Claims.FloatArithmetic : Prop :=
  (∀ c d a b, ∀ e ∈ ([
      (.fadd c d a b, fun rm z x y => f32.add rm z x y),
      (.fsub c d a b, fun rm z x y => f32.add rm z x y.neg),
      (.fmul c d a b, fun rm z x y => f32.mul rm z x y),
      (.fmin c d a b, fun _ z x y => f32.minmax z false x y),
      (.fmax c d a b, fun _ z x y => f32.minmax z true x y)] : List (Instr × (Rm → Bool → FNum → FNum → Nat × Flags))),
    WritesPerLane e.1 c (laneUse c.p [(a, 1), (b, 1)] [(d, 1)] [] []) fun w _ l =>
      let r := e.2 w.rm w.ftz (w.f32At a l) (w.f32At b l)
      ([(.g d l, BitVec.ofNat 32 r.1)], r.2)) ∧
  (∀ c d a b, ∀ e ∈ ([
      (.ffma c d a b, fun x y => (x, y)),
      (.ffms c d a b, fun x y => (x, y.neg)),
      (.fnma c d a b, fun x y => (x.neg, y)),
      (.fnms c d a b, fun x y => (x.neg, y.neg))] : List (Instr × (FNum → FNum → FNum × FNum))),
    WritesPerLane e.1 c (laneUse c.p [(d, 1), (a, 1), (b, 1)] [(d, 1)] [] []) fun w _ l =>
      let q := e.2 (w.f32At a l) (w.f32At d l)
      let r := f32.fma w.rm w.ftz q.1 (w.f32At b l) q.2
      ([(.g d l, BitVec.ofNat 32 r.1)], r.2))

end

namespace Sys2Proof.Claims

open Sys2Proof.Machine

/-- FABS, FNEG and FCOPYSIGN of R101: the magnitude of `a`, zero when FTZ flushes it, with a sign; a NaN gives the
canonical qNaN. -/
def withSign (ftz : Bool) (a : Word) (neg : Bool) : Word :=
  let mag := a.toNat % 2 ^ 31
  if 0x7F800000 < mag then 0x7FC00000
  else BitVec.ofNat 32 ((if neg then 2 ^ 31 else 0) + (if ftz && decide (mag < 2 ^ 23) then 0 else mag))

/-- The rounding mode that a code of R105 names. -/
def roundingOf (w : Wave) (r : BitVec 3) : Rm :=
  match r.toNat with
  | 0 => .rne
  | 1 => .rtz
  | 2 => .rup
  | 3 => .rdn
  | _ => w.rm

/-- A half of a register (R106). -/
def lowHalf (a : Word) : Nat := a.toNat % 2 ^ 16
def highHalf (a : Word) : Nat := a.toNat / 2 ^ 16

/-- The results of a conversion in a lane: one register, or a pair (R106, R107). -/
def toOne (d : Reg) (l : Nat) (r : Nat × Flags) : List (Dst × Word) × Flags := ([(.g d l, BitVec.ofNat 32 r.1)], r.2)
def toPair (d : Reg) (l : Nat) (r : Nat × Flags) : List (Dst × Word) × Flags := (pairOf d l (BitVec.ofNat 64 r.1), r.2)

/-- A function of the halves of two registers and of the old destination, per half (R110). -/
def perHalf (f : Nat → Nat → Nat → Nat × Flags) (a b d : Word) : Word × Flags :=
  let x := f (lowHalf a) (lowHalf b) (lowHalf d)
  let y := f (highHalf a) (highHalf b) (highHalf d)
  (BitVec.ofNat 32 (y.1 * 2 ^ 16 + x.1), x.2 ||| y.2)

end Sys2Proof.Claims

section

open Sys2Proof Sys2Proof.Machine Sys2Proof.Claims

/-- R101: FABS, FNEG and FCOPYSIGN never round and set no flag. -/
def Sys2Proof.Claims.FloatSigns : Prop :=
  ∀ c d a b,
    WritesPerLane (.fabs c d a) c (laneUse c.p [(a, 1)] [(d, 1)] [] [])
      (fun w _ l => ([(.g d l, withSign w.ftz (w.readG a l) false)], 0)) ∧
    WritesPerLane (.fneg c d a) c (laneUse c.p [(a, 1)] [(d, 1)] [] [])
      (fun w _ l => ([(.g d l, withSign w.ftz (w.readG a l) !(w.readG a l).msb)], 0)) ∧
    WritesPerLane (.fcopysign c d a b) c (laneUse c.p [(a, 1), (b, 1)] [(d, 1)] [] [])
      (fun w _ l => ([(.g d l, withSign w.ftz (w.readG a l) (w.readG b l).msb)], 0))

/-- R103, R104, R112: FCMP with its combine, and DCMP, which has none and is L-class. -/
def Sys2Proof.Claims.FloatCompares : Prop :=
  (∀ c pd k a b m, WritesPerLane (.fcmp c pd k a b m) c (laneUse c.p [(a, 1), (b, 1)] [] (combineReads m pd) [pd])
    fun w _ l =>
      let r := fcompare k (f32.flushIn w.ftz (w.f32At a l)) (f32.flushIn w.ftz (w.f32At b l))
      ([(.p pd l, combined m (w.readP pd l) r.1)], r.2)) ∧
  (∀ c pd k a b, PostsPerLane (.dcmp c pd k a b) c (laneUse c.p [(a, 2), (b, 2)] [] [] [pd]) fun w _ l =>
    let r := fcompare k (w.f64At a l) (w.f64At b l)
    ([(.p pd l, if r.1 then 1 else 0)], r.2))

/-- R103, R104: the order of two values is that of their real values, with the infinities at its ends and the zeros equal;
a NaN makes NE and UN true and the others false, and sets NV for an order, and else when it is signalling. -/
def Sys2Proof.Claims.CompareRules : Prop :=
  ∀ (k : FCond) (x y : FNum),
    let ext (x : FNum) : EReal := match x with
      | .inf s => if s then ⊥ else ⊤
      | x => ((real x : ℝ) : EReal)
    (x.isNaN = false → y.isNaN = false →
      (fcompare k x y).2 = 0 ∧
      ((fcompare k x y).1 = true ↔ match k with
        | .eq => ext x = ext y
        | .ne => ext x ≠ ext y
        | .lt => ext x < ext y
        | .le => ext x ≤ ext y
        | .gt => ext y < ext x
        | .ge => ext y ≤ ext x
        | .un => False
        | .or => True)) ∧
    (x.isNaN = true ∨ y.isNaN = true →
      fcompare k x y = (decide (k = .ne ∨ k = .un),
        if k = .lt ∨ k = .le ∨ k = .gt ∨ k = .ge ∨ x.isSNaN = true ∨ y.isSNaN = true then fNV else 0))

/-- R110: HARITH computes the two halves apart, in FP16 or in BF16, each rounded once, and joins their flags. -/
def Obligations.HalfArithmetic : Prop :=
  ∀ f ∈ [f16, bf16], ∀ c d a b,
    let two := ([
      ((if f = f16 then Instr.hadd2 c d a b else .hadd2Bf c d a b), fun rm x y => f.add rm false (f.num x) (f.num y)),
      ((if f = f16 then .hsub2 c d a b else .hsub2Bf c d a b), fun rm x y => f.add rm false (f.num x) (f.num y).neg),
      ((if f = f16 then .hmul2 c d a b else .hmul2Bf c d a b), fun rm x y => f.mul rm false (f.num x) (f.num y)),
      ((if f = f16 then .hmin2 c d a b else .hmin2Bf c d a b), fun _ x y => f.minmax false false (f.num x) (f.num y)),
      ((if f = f16 then .hmax2 c d a b else .hmax2Bf c d a b), fun _ x y => f.minmax false true (f.num x) (f.num y))] :
        List (Instr × (Rm → Nat → Nat → Nat × Flags)))
    (∀ e ∈ two, WritesPerLane e.1 c (laneUse c.p [(a, 1), (b, 1)] [(d, 1)] [] []) fun w _ l =>
      let r := perHalf (fun x y _ => e.2 w.rm x y) (w.readG a l) (w.readG b l) (w.readG d l)
      ([(.g d l, r.1)], r.2)) ∧
    WritesPerLane (if f = f16 then .hfma2 c d a b else .hfma2Bf c d a b) c
      (laneUse c.p [(d, 1), (a, 1), (b, 1)] [(d, 1)] [] []) fun w _ l =>
        let r := perHalf (fun x y z => f.fma w.rm false (f.num x) (f.num y) (f.num z)) (w.readG a l) (w.readG b l)
          (w.readG d l)
        ([(.g d l, r.1)], r.2)

/-- R106: the conversions between floating formats; the narrowing forms keep the other half of D, and the forms with
FP64 are L-class. -/
def Sys2Proof.Claims.FormatConversions : Prop :=
  ∀ c d a (r : BitVec 3),
    (r.toNat ≤ 4 → ∀ f ∈ [f16, bf16], ∀ hi : Bool,
      WritesPerLane (.fcvtFf c d a ((if f = f16 then 0 else 2) + (if hi then 1 else 0)) r) c
        (laneUse c.p [(d, 1), (a, 1)] [(d, 1)] [] []) fun w _ l =>
          let x := f32.convert f (roundingOf w r) (w.readG a l).toNat
          toOne d l (if hi then x.1 * 2 ^ 16 + lowHalf (w.readG d l) else highHalf (w.readG d l) * 2 ^ 16 + x.1, x.2)) ∧
    (r.toNat ≤ 1 → ∀ f ∈ [f16, bf16],
      WritesPerLane (.fcvtFf c d a (if f = f16 then 4 else 5) r) c (laneUse c.p [(a, 1)] [(d, 1)] [] []) fun w _ l =>
        toOne d l (f.convert f32 .rne (if r = 0 then lowHalf (w.readG a l) else highHalf (w.readG a l)))) ∧
    PostsPerLane (.fcvtFf c d a 6 0) c (laneUse c.p [(a, 1)] [(d, 2)] [] [])
      (fun w _ l => toPair d l (f32.convert f64 .rne (w.readG a l).toNat)) ∧
    (r.toNat ≤ 4 → PostsPerLane (.fcvtFf c d a 7 r) c (laneUse c.p [(a, 2)] [(d, 1)] [] [])
      fun w _ l => toOne d l (f64.convert f32 (roundingOf w r) (w.readG2 a l).toNat))

/-- R107, R109: conversions between floats and integers, signed for an even code, and rounding to an integral value;
the forms with FP64 are L-class. -/
def Sys2Proof.Claims.IntegerConversions : Prop :=
  ∀ c d a (r : BitVec 3), r.toNat ≤ 4 →
    (∀ u : Bool,
      let k : BitVec 3 := if u then 1 else 0
      WritesPerLane (.fcvtFi c d a k r) c (laneUse c.p [(a, 1)] [(d, 1)] [] [])
        (fun w _ l => toOne d l (f32.toInt (roundingOf w r) 32 (!u) (w.readG a l).toNat)) ∧
      PostsPerLane (.fcvtFi c d a (2 + k) r) c (laneUse c.p [(a, 2)] [(d, 1)] [] [])
        (fun w _ l => toOne d l (f64.toInt (roundingOf w r) 32 (!u) (w.readG2 a l).toNat)) ∧
      WritesPerLane (.fcvtFi c d a (4 + k) r) c (laneUse c.p [(a, 1)] [(d, 2)] [] [])
        (fun w _ l => toPair d l (f32.toInt (roundingOf w r) 64 (!u) (w.readG a l).toNat)) ∧
      PostsPerLane (.fcvtFi c d a (6 + k) r) c (laneUse c.p [(a, 2)] [(d, 2)] [] [])
        (fun w _ l => toPair d l (f64.toInt (roundingOf w r) 64 (!u) (w.readG2 a l).toNat)) ∧
      WritesPerLane (.fcvtIf c d a k r) c (laneUse c.p [(a, 1)] [(d, 1)] [] [])
        (fun w _ l => toOne d l (f32.ofInt (roundingOf w r) 32 (!u) (w.readG a l).toNat)) ∧
      PostsPerLane (.fcvtIf c d a (2 + k) r) c (laneUse c.p [(a, 1)] [(d, 2)] [] [])
        (fun w _ l => toPair d l (f64.ofInt (roundingOf w r) 32 (!u) (w.readG a l).toNat)) ∧
      WritesPerLane (.fcvtIf c d a (4 + k) r) c (laneUse c.p [(a, 2)] [(d, 1)] [] [])
        (fun w _ l => toOne d l (f32.ofInt (roundingOf w r) 64 (!u) (w.readG2 a l).toNat)) ∧
      PostsPerLane (.fcvtIf c d a (6 + k) r) c (laneUse c.p [(a, 2)] [(d, 2)] [] [])
        (fun w _ l => toPair d l (f64.ofInt (roundingOf w r) 64 (!u) (w.readG2 a l).toNat))) ∧
    WritesPerLane (.fcvtRi c d a 0 r) c (laneUse c.p [(a, 1)] [(d, 1)] [] [])
      (fun w _ l => toOne d l (f32.toIntegral (roundingOf w r) (w.readG a l).toNat)) ∧
    PostsPerLane (.fcvtRi c d a 1 r) c (laneUse c.p [(a, 2)] [(d, 2)] [] [])
      (fun w _ l => toPair d l (f64.toIntegral (roundingOf w r) (w.readG2 a l).toNat))

/-- R108, R99, R97: FCVT.FX makes one block of the contributing lanes, and every acting lane receives its element with
the exponents; FCVT.XF decodes each lane on its own. -/
def Sys2Proof.Claims.BlockConversions : Prop :=
  ∀ c d a (four : Bool),
    PostsPerLane (.fcvtFx c d a (if four then 1 else 0)) c (laneUse c.p [(a, 1)] [(d, 1)] [] []) (fun w act l =>
      let b := (bxOf four).block ((List.range 32).map fun k =>
        if act.getLsbD k && !w.helper.getLsbD k then some (w.f32At a k) else none)
      let e := b.2.2.getD l (0, 0)
      toOne d l (e.1 + b.1 * 2 ^ 8 + b.2.1 * 2 ^ 16, e.2)) ∧
    PostsPerLane (.fcvtXf c d a (if four then 1 else 0)) c (laneUse c.p [(a, 1)] [(d, 1)] [] []) (fun w _ l =>
      let x := (w.readG a l).toNat
      toOne d l ((f32.pack .rne ((bxOf four).num (x / 2 ^ 8 % 256) (x / 2 ^ 16 % 256)
        (if four then x % 16 else x % 256))).1, 0))

/-- R106, R107, R109: what a conversion gives. Between formats a finite value is rounded once; an integer is the one that
the mode chooses, or the nearest limit of the range with NV; a NaN gives 0 with NV; rounding to an integral value keeps
the sign and sets no NX. -/
def Sys2Proof.Claims.ConversionRules : Prop :=
  (∀ src ∈ ieee, ∀ dst ∈ ieee, ∀ (rm : Rm) (b : Nat),
    let x := src.num b
    (x.isNaN = true → src.convert dst rm b = (dst.qnan, if x.isSNaN then fNV else 0)) ∧
    (∀ s, x = .inf s → src.convert dst rm b = (dst.inf s, 0)) ∧
    (x.isZero = true → src.convert dst rm b = (dst.zero x.sign, 0)) ∧
    (x.isFin = true → x.isZero = false → RoundsTo dst rm (real x) (src.convert dst rm b))) ∧
  (∀ f ∈ [f32, f64], ∀ (rm : Rm), ∀ w ∈ [32, 64], ∀ (sgn : Bool) (b : Nat),
    let x := f.num b
    let lo : ℤ := if sgn then -2 ^ (w - 1) else 0
    let hi : ℤ := if sgn then 2 ^ (w - 1) - 1 else 2 ^ w - 1
    let bits (n : ℤ) : Nat := (n % 2 ^ w).toNat
    (x.isNaN = true → f.toInt rm w sgn b = (0, fNV)) ∧
    (∀ s, x = .inf s → f.toInt rm w sgn b = (bits (if s then lo else hi), fNV)) ∧
    (x.isFin = true → ∃ n : ℤ, ∃ nx : Bool, IntChosen rm (real x) n ∧ (nx = true ↔ (n : ℝ) ≠ real x) ∧
      f.toInt rm w sgn b =
        if n < lo then (bits lo, fNV) else if hi < n then (bits hi, fNV) else (bits n, if nx then fNX else 0))) ∧
  (∀ f ∈ [f32, f64], ∀ (rm : Rm), ∀ w ∈ [32, 64], ∀ (sgn : Bool) (b : Nat), b < 2 ^ w →
    let n : ℤ := if sgn = true ∧ 2 ^ (w - 1) ≤ b then (b : ℤ) - 2 ^ w else b
    (n = 0 → f.ofInt rm w sgn b = (0, 0)) ∧ (n ≠ 0 → RoundsTo f rm n (f.ofInt rm w sgn b))) ∧
  (∀ f ∈ [f32, f64], ∀ (rm : Rm) (b : Nat),
    let x := f.num b
    let r := f.toIntegral rm b
    (x.isNaN = true → r = (f.qnan, if x.isSNaN then fNV else 0)) ∧ (∀ s, x = .inf s → r = (f.inf s, 0)) ∧
    (x.isFin = true → ∃ n : ℤ, IntChosen rm (real x) n ∧ r.2 = 0 ∧ (f.num r.1).isFin = true ∧ real (f.num r.1) = n ∧
      (f.num r.1).sign = x.sign))

/-- R99: the block of 32 values, of which `none` does not contribute. -/
def Sys2Proof.Claims.BlockProcedure : Prop :=
  ∀ four : Bool, ∀ xs : List (Option FNum), xs.length = 32 →
    let gap : Nat := if four then 2 else 4
    let mmax : Nat := if four then 3 else 63
    let sh : ℤ := if four then 128 else 132
    let top : Nat := if four then 4 else 64
    let at_ (i : Nat) : FNum := (xs.getD i none).getD (.fin false 0 0)
    let b := (bxOf four).block xs
    b.2.2.length = 32 ∧
    ((∃ i < 32, (at_ i).isFin = false) → b.1 = 0xFF ∧ b.2.1 = 0xFF ∧
      ∀ i < 32, b.2.2.getD i (0, 0) = (0, if (at_ i).isFin then 0 else fNV)) ∧
    ((∀ i < 32, (at_ i).isFin = true) →
      ((∀ i < 32, real (at_ i) = 0) → b.1 = 0 ∧ b.2.1 = 0) ∧
      (∀ k : ℤ, (∃ i < 32, (2 : ℝ) ^ k ≤ |real (at_ i)|) → (∀ i < 32, |real (at_ i)| < (2 : ℝ) ^ (k + 1)) →
        b.2.1 = (max 0 (min 254 (k + 127))).toNat ∧ b.1 = b.2.1 - gap) ∧
      ∀ i < 32, (xs.getD i none = none → b.2.2.getD i (0, 0) = (0, 0)) ∧
        (xs.getD i none ≠ none →
          let v := |real (at_ i)|
          ∃ sel nx : Bool, ∃ m : Nat,
            let q := v / (2 : ℝ) ^ ((if sel then (b.2.1 : ℤ) else b.1) - sh)
            (sel = false ↔ v < mmax * (2 : ℝ) ^ ((b.1 : ℤ) - sh)) ∧ IntChosen .rne q m ∧ (nx = true ↔ (m : ℝ) ≠ q) ∧
            b.2.2.getD i (0, 0) =
              ((if (at_ i).sign then 2 * top else 0) + (if sel then top else 0) + min m mmax,
               (if nx then fNX else 0) ||| (if mmax < m then fSAT ||| fNX else 0))))

/-- R111: DARITH of FP64 pairs. -/
def Sys2Proof.Claims.DoubleArithmetic : Prop :=
  (∀ c d a b, ∀ e ∈ ([
      (.dadd c d a b, fun rm x y => f64.add rm false x y),
      (.dsub c d a b, fun rm x y => f64.add rm false x y.neg),
      (.dmul c d a b, fun rm x y => f64.mul rm false x y),
      (.dmin c d a b, fun _ x y => f64.minmax false false x y),
      (.dmax c d a b, fun _ x y => f64.minmax false true x y)] : List (Instr × (Rm → FNum → FNum → Nat × Flags))),
    PostsPerLane e.1 c (laneUse c.p [(a, 2), (b, 2)] [(d, 2)] [] [])
      fun w _ l => toPair d l (e.2 w.rm (w.f64At a l) (w.f64At b l))) ∧
  (∀ c d a b, PostsPerLane (.dfma c d a b) c (laneUse c.p [(d, 2), (a, 2), (b, 2)] [(d, 2)] [] [])
    fun w _ l => toPair d l (f64.fma w.rm false (w.f64At a l) (w.f64At b l) (w.f64At d l)))

end

namespace Sys2Proof.Claims

open Sys2Proof.Machine

/-- The sum of products of IDOT4 and IDOT8: elements of `n` bits of two words, signed or not, added to an accumulator
modulo 2^32 (R116). -/
def dotInt (sgn : Bool) (n : Nat) (a b d : Word) : Word :=
  let el (x : Word) (k : Nat) : Int := if sgn then (x.extractLsb' (n * k) n).toInt else (x.extractLsb' (n * k) n).toNat
  narrow (((List.range (32 / n)).map fun k => el a k * el b k).sum + d.toInt)

end Sys2Proof.Claims

namespace Sys2Proof.Claims

open Sys2Proof.Machine

/-- The exact value of a special function (Table 2-4). -/
noncomputable def exactSfn (fn : Nat) (v : ℝ) : ℝ :=
  match fn with
  | 0 => 1 / v
  | 1 => 1 / Real.sqrt v
  | 2 => Real.sqrt v
  | 3 => (2 : ℝ) ^ v
  | 4 => Real.logb 2 v
  | 5 => Real.sin v
  | 6 => Real.cos v
  | _ => Real.tanh v

/-- The FP32 value `r` lies within `n` units in the last place of the exact value `e` (Table 4-13). -/
def WithinUlp (n : Nat) (e r : ℝ) : Prop :=
  ∀ k : ℤ, (2 : ℝ) ^ k ≤ |e| → |e| < (2 : ℝ) ^ (k + 1) → |r - e| ≤ n * (2 : ℝ) ^ (max k (-126) - 23)

/-- A real is the FP32 value nearest to another (R115). -/
def Nearest32 (v y : ℝ) : Prop := ∃ b < 2 ^ 32, (f32.num b).isFin = true ∧ real (f32.num b) = y ∧ Chosen f32 .rne v b

/-- The special values of Table 4-12: function, input, result and flags. -/
def table412 : List (Nat × Nat × Nat × Flags) :=
  [(0, 0, 0x7F800000, fDZ), (0, 0x80000000, 0xFF800000, fDZ), (0, 0x7F800000, 0, 0), (0, 0xFF800000, 0x80000000, 0),
   (1, 0, 0x7F800000, fDZ), (1, 0x80000000, 0xFF800000, fDZ), (1, 0x7F800000, 0, 0),
   (2, 0, 0, 0), (2, 0x80000000, 0x80000000, 0), (2, 0x7F800000, 0x7F800000, 0),
   (4, 0, 0xFF800000, fDZ), (4, 0x80000000, 0xFF800000, fDZ), (4, 0x7F800000, 0x7F800000, 0),
   (3, 0x7F800000, 0x7F800000, 0), (3, 0xFF800000, 0, 0),
   (5, 0x7F800000, 0x7FC00000, fNV), (5, 0xFF800000, 0x7FC00000, fNV), (6, 0x7F800000, 0x7FC00000, fNV),
   (6, 0xFF800000, 0x7FC00000, fNV), (7, 0x7F800000, 0x3F800000, 0), (7, 0xFF800000, 0xBF800000, 0), (7, 0, 0, 0),
   (7, 0x80000000, 0x80000000, 0)]

end Sys2Proof.Claims

section

open Sys2Proof Sys2Proof.Machine Sys2Proof.Claims

/-- R113, R114: the special values of Table 4-12, and where RCP, RSQ, SQRT, EX2 and LG2 are judged against the exact value:
NX when the result differs from it, UF when that result is zero or below 2^-126, OF when the exact value exceeds the
largest finite one; RCP within 1 ulp, RSQ within 2, SQRT rounded to nearest, LG2 of 8.0 is 3.0. SIN and COS beyond 2^20 lie
in [-1, 1], and SIN, COS and TANH, which are rational at no finite input but 0, set NX there. -/
def Sys2Proof.Claims.SpecialValues : Prop :=
  (∀ e ∈ table412, sfnEval e.1 e.2.1 = (e.2.2.1, e.2.2.2)) ∧
  sfnEval 4 0x41000000 = (0x40400000, 0) ∧
  ∀ b < 2 ^ 32,
    let x := f32.num b
    let v := real x
    let val (fn : Nat) : ℝ := real (f32.num (sfnEval fn b).1)
    (x.isNaN = true → ∀ fn < 8, sfnEval fn b = (0x7FC00000, if x.isSNaN then fNV else 0)) ∧
    (x.isNaN = false → x.sign = true → x.isZero = false → ∀ fn ∈ [1, 2, 4], sfnEval fn b = (0x7FC00000, fNV)) ∧
    (x.isFin = true → 128 ≤ v → sfnEval 3 b = (0x7F800000, fOF ||| fNX)) ∧
    (x.isFin = true → v < -150 → sfnEval 3 b = (0, fUF ||| fNX)) ∧
    (∀ fn < 5, x.isFin = true →
      (fn ≠ 3 → v ≠ 0) → (fn = 1 ∨ fn = 2 ∨ fn = 4 → 0 < v) → (fn = 3 → -150 ≤ v ∧ v < 128) →
      let e := exactSfn fn v
      let large := real (f32.num 0x7F7FFFFF) < |e|
      ∃ of_ uf nx : Bool, (of_ = true ↔ large) ∧ (nx = true ↔ large ∨ val fn ≠ e) ∧
        (uf = true ↔ e ≠ 0 ∧ nx = true ∧ |val fn| < (2 : ℝ) ^ (-126 : ℤ) ∧ ¬large) ∧
        (sfnEval fn b).2 = (if of_ then fOF else 0) ||| (if uf then fUF else 0) ||| (if nx then fNX else 0) ∧
        (large → (sfnEval fn b).1 = f32.inf x.sign) ∧
        (¬large → (f32.num (sfnEval fn b).1).isFin = true ∧ (fn = 0 → WithinUlp 1 e (val fn)) ∧
          (fn = 1 → WithinUlp 2 e (val fn)) ∧ (fn = 2 → Chosen f32 .rne e (sfnEval fn b).1))) ∧
    (∀ fn ∈ [5, 6], x.isFin = true → (2 : ℝ) ^ 20 < |v| → |val fn| ≤ 1) ∧
    (∀ fn ∈ [5, 6, 7], x.isFin = true → v ≠ 0 →
      (f32.num (sfnEval fn b).1).isFin = true ∧
      ∃ uf : Bool, (uf = true ↔ |val fn| < (2 : ℝ) ^ (-126 : ℤ)) ∧ (sfnEval fn b).2 = (if uf then fUF else 0) ||| fNX)

/-- R115: the steps of EX2, each rounded to nearest; T[i] is the FP32 value nearest to 2^(i/64). -/
def Sys2Proof.Claims.Ex2Procedure : Prop :=
  ∀ b < 2 ^ 32, (f32.num b).isFin = true → -150 ≤ real (f32.num b) → real (f32.num b) < 128 →
    ∃ j : ℤ, ∃ t q1 q2 q3 p y : ℝ,
      let v := real (f32.num b)
      let f := (v * 64 - j) / 64
      IntChosen .rne (v * 64) j ∧ Nearest32 ((2 : ℝ) ^ (((j % 64 : ℤ) : ℝ) / 64)) t ∧
      Nearest32 (real (f32.num 0x3E75FDF0) * f) q1 ∧ Nearest32 (q1 + real (f32.num 0x3F317218)) q2 ∧
      Nearest32 (q2 * f) q3 ∧ Nearest32 (q3 + 1) p ∧ Nearest32 (t * p) y ∧
      Nearest32 (y * (2 : ℝ) ^ ((j - j % 64) / 64)) (real (f32.num (sfnEval 3 b).1)) ∧ (sfnEval 3 b).1 < 2 ^ 31

/-- Table 4-13: the bounds of LG2, of SIN and COS up to 2^20, and of TANH. -/
def Obligations.SpecialFunctionBounds : Prop :=
  ∀ b < 2 ^ 32, (f32.num b).isFin = true →
    let v := real (f32.num b)
    let val (fn : Nat) : ℝ := real (f32.num (sfnEval fn b).1)
    (0 < v → if (1 / 2 : ℝ) ≤ v ∧ v ≤ 2 then |val 4 - Real.logb 2 v| ≤ (2 : ℝ) ^ (-22 : ℤ)
      else WithinUlp 2 (Real.logb 2 v) (val 4)) ∧
    (∀ fn ∈ [5, 6], |v| ≤ (2 : ℝ) ^ 20 → |val fn - exactSfn fn v| ≤ (2 : ℝ) ^ (-21 : ℤ)) ∧
    WithinUlp 2 (Real.tanh v) (val 7)

/-- R94, R116: HDOT2 and BDOT2 of finite values round the exact sum of the accumulator and the two products once. -/
def Sys2Proof.Claims.HalfDots : Prop :=
  ∀ f ∈ [f16, bf16], ∀ (rm : Rm), ∀ a < 2 ^ 32, ∀ b < 2 ^ 32, ∀ d < 2 ^ 32,
    let z := f32.num d
    let x0 := f.num (a % 2 ^ 16)
    let x1 := f.num (a / 2 ^ 16)
    let y0 := f.num (b % 2 ^ 16)
    let y1 := f.num (b / 2 ^ 16)
    let v := real z + real x0 * real y0 + real x1 * real y1
    z.isFin = true → x0.isFin = true → x1.isFin = true → y0.isFin = true → y1.isFin = true →
      (v ≠ 0 → RoundsTo f32 rm v (fdot2 f rm a b d)) ∧
      (v = 0 → fdot2 f rm a b d = (f32.zero
        (if z.isZero && (x0.isZero || y0.isZero) && (x1.isZero || y1.isZero) && z.sign == (x0.sign != y0.sign) &&
            z.sign == (x1.sign != y1.sign) then z.sign else rm == .rdn), 0))

end

section

open Sys2Proof Sys2Proof.Machine Sys2Proof.Claims

/-- R113 to R116: SFN and IDOT are L-class; an integer dot product wraps, a dot product of halves rounds its exact sum
once. The value of a special function is `sfnEval`.
Readings of the model in it: log entry 10. -/
def Sys2Proof.Claims.SpecialFunctionsAndDots : Prop :=
  (∀ c d a, ∀ e ∈ ([(.rcp c d a, 0), (.rsq c d a, 1), (.sqrt c d a, 2), (.ex2 c d a, 3), (.lg2 c d a, 4),
      (.sin c d a, 5), (.cos c d a, 6), (.tanh c d a, 7)] : List (Instr × Nat)),
    PostsPerLane e.1 c (laneUse c.p [(a, 1)] [(d, 1)] [] []) fun w _ l => toOne d l (sfnEval e.2 (w.readG a l).toNat)) ∧
  (∀ c d a b, ∀ e ∈ ([(.idot4 c d a b, true, 8), (.idot4u c d a b, false, 8), (.idot8 c d a b, true, 4),
      (.idot8u c d a b, false, 4)] : List (Instr × Bool × Nat)),
    PostsPerLane e.1 c (laneUse c.p [(d, 1), (a, 1), (b, 1)] [(d, 1)] [] [])
      fun w _ l => ([(.g d l, dotInt e.2.1 e.2.2 (w.readG a l) (w.readG b l) (w.readG d l))], 0)) ∧
  (∀ c d a b, ∀ e ∈ ([(.hdot2 c d a b, f16), (.bdot2 c d a b, bf16)] : List (Instr × Fmt)),
    PostsPerLane e.1 c (laneUse c.p [(d, 1), (a, 1), (b, 1)] [(d, 1)] [] [])
      fun w _ l => toOne d l (fdot2 e.2 w.rm (w.readG a l).toNat (w.readG b l).toNat (w.readG d l).toNat))

end

/-! ## Exchanges, votes and reductions -/

namespace Sys2Proof.Claims

open Sys2Proof.Machine

/-- The lane k of Table 5-3, or the lane itself when k lies outside the wave (R121). -/
def inWave (l : Nat) (k : Int) : Nat := if 0 ≤ k ∧ k < 32 then k.toNat else l

/-- The lanes that contribute to a vote or a reduction (R117). -/
def contributors (w : Wave) (act : Lanes) : List Nat := (lanesOf act).filter fun k => !w.helper.getLsbD k

/-- The word whose bits are some lanes. -/
def bitsOf (ls : List Nat) : Word := narrow (ls.map fun k => (2 : Int) ^ k).sum

/-- The node (level, j) of the tree of R124, with the flags of the nodes below it. -/
def treeNode (op : Nat → Nat → Nat × Flags) (v : Nat → Nat) : Nat → Nat → Nat × Flags
  | 0, j => (v j, 0)
  | n + 1, j =>
    let x := treeNode op v n (2 * j)
    let y := treeNode op v n (2 * j + 1)
    ((op x.1 y.1).1, x.2 ||| y.2 ||| (op x.1 y.1).2)

/-- FREDUX of R124: the identity and the node function of an operation. -/
def reduceId (op : RedOp) : Nat :=
  match op with
  | .add => 0x80000000
  | .min => 0x7F800000
  | .max => 0xFF800000
def reduceNode (w : Wave) (op : RedOp) (x y : Nat) : Nat × Flags :=
  match op with
  | .add => f32.add w.rm w.ftz (f32.num x) (f32.num y)
  | .min => f32.minmax w.ftz false (f32.num x) (f32.num y)
  | .max => f32.minmax w.ftz true (f32.num x) (f32.num y)

/-- The result of FREDUX over lanes: the tree of their values, other lanes replaced by the identity. -/
def reduced (w : Wave) (op : RedOp) (a : Reg) (ls : List Nat) : Nat × Flags :=
  if ls = [] then (reduceId op, 0)
  else treeNode (reduceNode w op) (fun k => if k ∈ ls then (w.readG a k).toNat else reduceId op) 5 0

end Sys2Proof.Claims

section

open Sys2Proof Sys2Proof.Machine Sys2Proof.Claims

/-- R120, R121: each acting lane takes gA of its source lane. SHFLI reads the source lane from gB. -/
def Sys2Proof.Claims.LaneExchanges : Prop :=
  (∀ c d a, ∀ e ∈ ([
      (.qswpx c d a, fun l => l ^^^ 1),
      (.qswpy c d a, fun l => l ^^^ 2),
      (.qswpd c d a, fun l => l ^^^ 3)] : List (Instr × (Nat → Nat))),
    PostsPerLane e.1 c (xchgUse c.p d a [] e.2) fun w _ l => ([(.g d l, w.readG a (e.2 l))], 0)) ∧
  (∀ c d a (n : BitVec 2), PostsPerLane (.qbcast c d a n) c (xchgUse c.p d a [] fun l => 4 * (l / 4) + n.toNat)
    fun w _ l => ([(.g d l, w.readG a (4 * (l / 4) + n.toNat))], 0)) ∧
  (∀ c d a (n : BitVec 5), ∀ e ∈ ([
      (.shflu c d a n, fun l => inWave l ((l : Int) - n.toNat)),
      (.shfld c d a n, fun l => inWave l (l + n.toNat)),
      (.shflx c d a n, fun l => l ^^^ n.toNat)] : List (Instr × (Nat → Nat))),
    PostsPerLane e.1 c (xchgUse c.p d a [] e.2) fun w _ l => ([(.g d l, w.readG a (e.2 l))], 0)) ∧
  (∀ c d a b s w p, Plain s c.s w p →
    Clear w (xchgUse c.p d a [(b, 1)] fun l => inWave l (w.readG b l).toNat) →
    ∃ t, exec (.shfli c d a b) s = .next t ∧
      Posts s t w c.s ((lanesOf (w.acting c.p p)).map fun l =>
        (.g d l, .val (w.readG a (inWave l (w.readG b l).toNat)))) 0)

/-- R122: votes, ballot, match and prefix count over the contributing lanes, to every acting lane. -/
def Sys2Proof.Claims.Votes : Prop :=
  (∀ c pd pa, PostsPerLane (.voteany c pd pa) c (laneUse c.p [] [] [pa] [pd])
    fun w act l => ([(.p pd l, if (contributors w act).any fun k => w.readP pa k then 1 else 0)], 0)) ∧
  (∀ c pd pa, PostsPerLane (.voteall c pd pa) c (laneUse c.p [] [] [pa] [pd])
    fun w act l => ([(.p pd l, if (contributors w act).all fun k => w.readP pa k then 1 else 0)], 0)) ∧
  (∀ c d pa, PostsPerLane (.ballot c d pa) c (laneUse c.p [] [(d, 1)] [pa] [])
    fun w act l => ([(.g d l, bitsOf ((contributors w act).filter fun k => w.readP pa k))], 0)) ∧
  (∀ c d a, PostsPerLane (.matchI c d a) c (laneUse c.p [(a, 1)] [(d, 1)] [] [])
    fun w act l => ([(.g d l, bitsOf ((contributors w act).filter fun k => w.readG a k == w.readG a l))], 0)) ∧
  (∀ c d pa, PostsPerLane (.popm c d pa) c (laneUse c.p [] [(d, 1)] [pa] [])
    fun w act l => ([(.g d l, narrow ((contributors w act).filter fun k => decide (k < l) && w.readP pa k).length)], 0))

/-- R123, R124: reductions over the contributing lanes, with the identity of Table 5-5 when there is none; FREDUX takes
the fixed tree.
Readings of the model in it: log entry 31. -/
def Sys2Proof.Claims.Reductions : Prop :=
  (∀ c d a, ∀ e ∈ ([
      (.reduxadd c d a, fun vs => narrow (vs.map fun v => v.toInt).sum),
      (.reduxmin c d a false, fun vs => narrow ((vs.map fun v => v.toInt).foldl min (2 ^ 31 - 1))),
      (.reduxmin c d a true, fun vs => narrow ((vs.map fun v => (v.toNat : Int)).foldl min (2 ^ 32 - 1))),
      (.reduxmax c d a false, fun vs => narrow ((vs.map fun v => v.toInt).foldl max (-2 ^ 31))),
      (.reduxmax c d a true, fun vs => narrow ((vs.map fun v => (v.toNat : Int)).foldl max 0))] :
        List (Instr × (List Word → Word))),
    PostsPerLane e.1 c (laneUse c.p [(a, 1)] [(d, 1)] [] [])
      fun w act l => ([(.g d l, e.2 ((contributors w act).map fun k => w.readG a k))], 0)) ∧
  (∀ c d a op, PostsPerLane (.fredux c d a op) c (laneUse c.p [(a, 1)] [(d, 1)] [] [])
    fun w act l => toOne d l (reduced w op a (contributors w act)))

/-! ## Streams -/

/-- R129, R28: the STREAM functions on a bound stream, when the guard is true in the lane of R28: SCNT and SEND give a
value to every active lane of the path, SEND unbinds and keeps POS in the descriptor, SREW and SSKIP set POS, and elements
of later steps that have been fetched stay. -/
def Sys2Proof.Claims.StreamFunctions : Prop :=
  ∀ s w p (c : Ctl) (st : BitVec 2) (x : Stream), assoc w.streams st.toNat = some x → Plain s c.s w p →
    (w.actsIn c.p (w.lanesOfPath p)).isSome →
    (∀ d, Clear w (waveUse w c.p [] [(d, 1)] [] [] [] []) →
      (∃ t, exec (.scnt c d st) s = .next t ∧
        Posts s t w c.s ((lanesOf (w.lanesOfPath p)).map fun l => (.g d l, .val (narrow (x.count - 32 * x.pos : Nat)))) 0) ∧
      ∃ t t', exec (.sendS c d st) s = .next t ∧
        Posts s t' w c.s ((lanesOf (w.lanesOfPath p)).map fun l => (.g d l, .val (narrow (min x.count (32 * x.pos))))) 0 ∧
        t = t'.modWave w.core w.slot fun v =>
          { v with
            streams := v.streams.filter fun e => e.1 != st.toNat
            sd := Tab.put 0 v.sd (4 * st.toNat + 3) (BitVec.ofNat 64 x.pos) }) ∧
    (Clear w (waveUse w c.p [] [] [] [] [] []) → ∀ n : BitVec 6, ∀ e ∈ ([(.srew c st, 0),
        (.sskip c st n, min (x.pos + n.toNat) ((x.count + 31) / 32))] : List (Instr × Nat)),
      ∃ t, exec e.1 s = .next t ∧ Becomes s t (Wave.gone { w with
        streams := w.streams.map fun y =>
          if y.1 == st.toNat then
            (st.toNat, { y.2 with pos := e.2, buf := y.2.buf.filter fun v => decide (32 * e.2 ≤ v.1) })
          else y } c.s false))

end

namespace Sys2Proof.Claims

open Sys2Proof.Machine

/-- The descriptors of stream `k` are valid (Table 5-7): a size that its direction may have, and a base and strides that are
multiples of it. -/
def descriptorValid (w : Wave) (k : Nat) : Bool :=
  let sd (j : Nat) : Nat := (Tab.get 0 w.sd (4 * k + j)).toNat
  let size := sd 2 / 2 ^ 32 % 8
  let n := if size ≤ 1 then 1 else if size ≤ 3 then 2 else 4
  decide (size ≤ 4) && !(sd 2 / 2 ^ 36 % 2 == 1 && (size == 1 || size == 3)) && sd 0 % n == 0 &&
    sd 1 % 2 ^ 32 % n == 0 && sd 1 / 2 ^ 32 % n == 0

/-- The stream that the descriptors of stream `k` bind, at position 0. -/
def boundTo (w : Wave) (k : Nat) (x : Stream) : Prop :=
  let sd (j : Nat) : DWord := Tab.get 0 w.sd (4 * k + j)
  x.base = sd 0 ∧ x.lstride.toNat = (sd 1).toNat % 2 ^ 32 ∧ x.estride.toNat = (sd 1).toNat / 2 ^ 32 ∧
    x.count = (sd 2).toNat % 2 ^ 32 ∧ x.push = (sd 2).getLsbD 36 ∧ x.pos = 0 ∧
    x.size = [Size.b, .sb, .h, .sh, .w].getD ((sd 2).toNat / 2 ^ 32 % 8) .w

end Sys2Proof.Claims

section

open Sys2Proof Sys2Proof.Machine Sys2Proof.Claims

/-- R126: STRCFG unbinds the streams of bits 7:4 and binds those of bits 3:0 at POS 0, when their descriptors are valid;
the reply is the set of bound streams. An invalid descriptor traps STREAM_CONFIG and changes no binding. -/
def Sys2Proof.Claims.StreamConfiguration : Prop :=
  ∀ s w p sw d a b, Plain s sw w p → w.anyLane p = true →
    (∀ m, w.hazard { reads := fun _ => wRegs [(a, 1)], writes := fun _ => wRegs [(d, 1)] } m = none) →
    let v := w.readW a
    ((∀ k < 4, v.getLsbD k = true → descriptorValid w k = true) →
      ∃ t strs sd' reply, exec (.strcfg sw d a b) s = .next t ∧
        Becomes s t ((Wave.queued { w with streams := strs, sd := sd' } (s.checkedOf w) [(.w d, .val reply)] 0).gone sw true) ∧
        (∀ k < 4, if v.getLsbD k then ∃ x, assoc strs k = some x ∧ boundTo w k x
          else assoc strs k = if v.getLsbD (4 + k) then none else assoc w.streams k) ∧
        (∀ k < 32, reply.getLsbD k = (decide (k < 4) && (assoc strs k).isSome))) ∧
    (∀ k < 4, v.getLsbD k = true → descriptorValid w k = false →
      exec (.strcfg sw d a b) s = .next (s.trapBy w p 0x121))

end


/-! ## Loads, stores and atomics -/

namespace Sys2Proof.Claims

open Sys2Proof.Machine

/-- The bytes and the 32-bit registers of a size (Table 8-3). -/
def sizeBytes (sz : Size) : Nat :=
  match sz with
  | .b | .sb => 1
  | .h | .sh => 2
  | .w => 4
  | .d => 8
  | .q => 16
def sizeRegs (sz : Size) : Nat :=
  match sz with
  | .d => 2
  | .q => 4
  | _ => 1

/-- The accesses of a lane, as the address and the length of each: a `.q` makes two of 8 bytes (R194). -/
def pieces (sz : Size) (va : DWord) : List (DWord × Nat) :=
  if sz = .q then [(va, 8), (va + 8, 8)] else [(va, sizeBytes sz)]

/-- Where a global access goes, and where one to the local memory of the group of a wave does (R184). -/
abbrev Place := DWord → Nat × Nat
def localAt (w : Wave) : Place := fun va => (localBase w.core w.gslot + va.toNat % 2 ^ 20, 5)

/-- The k-th register that a load of an address returns: the word k of its bytes, extended for a size below 32 bits
(Table 8-3). -/
def loadOut (grp : Nat) (pc : DWord) (sz : Size) (at_ : Place) (va : DWord) (k : Nat) : Src :=
  if sz = .d ∨ sz = .q then
    let x := va + BitVec.ofNat 64 (8 * (k / 2))
    .mem grp x pc (at_ x).1 8 (at_ x).2 ⟨.d, k % 2⟩
  else .mem grp va pc (at_ va).1 (sizeBytes sz) (at_ va).2 ⟨sz, 0⟩

/-- The address of an M form: the base and the scaled offset (R191). -/
def mAddr (sz : Size) (off : BitVec 7) (base : Nat) : Int := base + off.toInt * sizeBytes sz

/-- The results of a load of lanes; a helper lane whose address would trap takes zero (R193). -/
def loadOuts (s : State) (p : Path) (sz : Size) (at_ : Place) (dst : Nat → Nat → Dst) (addr : Nat → Int)
    (ok : Nat → Prop) [DecidablePred ok] (act : Lanes) : List (Dst × Src) :=
  ((lanesOf act).map fun l => (List.range (sizeRegs sz)).map fun k =>
    (dst k l, if ok l then loadOut s.nextId p.pc sz at_ (BitVec.ofInt 64 (addr l)) k else .val 0)).flatten

/-- An address is a multiple of the size, and lies within the local memory of the wave's group (R193). -/
def fits (s : State) (w : Wave) (loc : Bool) (n : Nat) (a : Int) : Prop :=
  a % n = 0 ∧ (loc = true → 0 ≤ a ∧ ∃ g, s.groupOf w = some g ∧ a + n ≤ 1024 * g.localkb)

end Sys2Proof.Claims

section

open Sys2Proof Sys2Proof.Machine Sys2Proof.Claims

/-- R191, R193, R194: LDG and LDL: a load in each acting lane, at gA:gA+1 plus the scaled offset, or in the group's local
memory at gA plus it. The registers are outstanding, each with its part of the bytes at the physical address; a helper
lane whose address would trap takes zero. -/
def Sys2Proof.Claims.LaneLoads : Prop :=
  (∀ c d a sz off s w p (at_ : Place), Plain s c.s w p →
    Clear w (laneUse c.p [(a, 2)] [(d, sizeRegs sz)] [] []) → Idle s w →
    let addr := fun l => mAddr sz off (w.readG2 a l).toNat
    (∀ l ∈ lanesOf (w.acting c.p p), w.helper.getLsbD l = true ∨ addr l % sizeBytes sz = 0) →
    (∀ l ∈ lanesOf (w.acting c.p p), addr l % sizeBytes sz = 0 → ∀ x ∈ pieces sz (BitVec.ofInt 64 (addr l)),
      Reaches s w (.load x.2 false) x.1 (at_ x.1).1 (at_ x.1).2 ∧
        (w.helper.getLsbD l = true → s.windowOk (s.asidOf w) (at_ x.1).1 = true)) →
    ∃ t, exec (.ldg c d a sz off) s = .next t ∧
      Accesses s t ((w.loading (s.checkedOf w) (loadOuts s p sz at_ (fun k l => .g (d + BitVec.ofNat 6 k) l) addr
        (fun l => addr l % sizeBytes sz = 0) (w.acting c.p p))).gone c.s false)) ∧
  (∀ c d a sz off s w p g, Plain s c.s w p → Clear w (laneUse c.p [(a, 1)] [(d, sizeRegs sz)] [] []) → Idle s w →
    s.groupOf w = some g →
    let addr := fun l => mAddr sz off (w.readG a l).toNat
    let ok := fun l => addr l % sizeBytes sz = 0 ∧ 0 ≤ addr l ∧ addr l + sizeBytes sz ≤ 1024 * g.localkb
    (∀ l ∈ lanesOf (w.acting c.p p), w.helper.getLsbD l = true ∨ ok l) →
    ∃ t, exec (.ldl c d a sz off) s = .next t ∧
      Becomes s t ((w.loading (s.checkedOf w) (loadOuts s p sz (localAt w) (fun k l => .g (d + BitVec.ofNat 6 k) l) addr
        ok (w.acting c.p p))).gone c.s false))

/-- R28, R191: LDWG and LDWL: one load to w registers at an address in w registers, when the guard is true in the lane
of R28; else nothing but the PC changes. -/
def Sys2Proof.Claims.WaveLoads : Prop :=
  (∀ c d a sz off s w p (at_ : Place), Plain s c.s w p →
    Clear w (waveUse w c.p [] [] [(a, 2)] [(d, sizeRegs sz)] [] []) → Idle s w →
    let addr := mAddr sz off (w.readW2 a).toNat
    (∀ l, w.actsIn c.p (w.lanesOfPath p) = some l → addr % sizeBytes sz = 0 ∧
      ∀ x ∈ pieces sz (BitVec.ofInt 64 addr), Reaches s w (.load x.2 false) x.1 (at_ x.1).1 (at_ x.1).2) →
    ∃ t, exec (.ldwg c d a sz off) s = .next t ∧
      Accesses s t ((if (w.actsIn c.p (w.lanesOfPath p)).isSome then
        w.loading (s.checkedOf w) ((List.range (sizeRegs sz)).map fun k =>
          (.w (d + BitVec.ofNat 6 k), loadOut s.nextId p.pc sz at_ (BitVec.ofInt 64 addr) k))
        else w).gone c.s false)) ∧
  (∀ c d a sz off s w p, Plain s c.s w p →
    Clear w (waveUse w c.p [] [] [(a, 1)] [(d, sizeRegs sz)] [] []) → Idle s w →
    let addr := mAddr sz off (w.readW a).toNat
    ((w.actsIn c.p (w.lanesOfPath p)).isSome → fits s w true (sizeBytes sz) addr) →
    ∃ t, exec (.ldwl c d a sz off) s = .next t ∧
      Becomes s t ((if (w.actsIn c.p (w.lanesOfPath p)).isSome then
        w.loading (s.checkedOf w) ((List.range (sizeRegs sz)).map fun k =>
          (.w (d + BitVec.ofNat 6 k), loadOut s.nextId p.pc sz (localAt w) (BitVec.ofInt 64 addr) k))
        else w).gone c.s false))

/-- R220, R233, R237, R240: LDACQ: a load of 4 or 8 bytes in each acting lane, made at the home bank from cluster scope on;
the wave's later accesses wait for it. The acquire empties the L1 from cluster scope on, and where a lane reads a window
of the host or of a peer. -/
def Sys2Proof.Claims.AcquireLoads : Prop :=
  ∀ c d a (dw : Bool) sc s w p (at_ : Place),
    let sz : Size := if dw then .d else .w
    let bank := acqAtBank w.core sc
    let addr := fun l => ((w.readG2 a l).toNat : Int)
    Plain s c.s w p → Clear w (laneUse c.p [(a, 2)] [(d, sizeRegs sz)] [] []) → Idle s w →
    w.acting c.p p &&& ~~~w.helper ≠ 0 →
    (∀ l ∈ lanesOf (w.acting c.p p), w.helper.getLsbD l = true ∨ addr l % sizeBytes sz = 0) →
    (∀ l ∈ lanesOf (w.acting c.p p), addr l % sizeBytes sz = 0 →
      ∃ how, Reaches s w (.load (sizeBytes sz) bank) (BitVec.ofInt 64 (addr l)) (at_ (BitVec.ofInt 64 (addr l))).1 how ∧
        (at_ (BitVec.ofInt 64 (addr l))).2 = (if bank then 3 else how) ∧
        (w.helper.getLsbD l = true → s.windowOk (s.asidOf w) (at_ (BitVec.ofInt 64 (addr l))).1 = true)) →
    let far : Bool := (lanesOf (w.acting c.p p)).any fun l =>
      decide (addr l % sizeBytes sz = 0) && inWindow (at_ (BitVec.ofInt 64 (addr l))).1
    ∃ t, exec (.ldacq c d a dw sc) s = .next t ∧
      Accesses s t (({ w.loading (s.checkedOf w) (loadOuts s p sz at_ (fun k l => .g (d + BitVec.ofNat 6 k) l) addr
        (fun l => addr l % sizeBytes sz = 0) (w.acting c.p p)) with acq := [(s.nextId, wide sc || far)] } : Wave).gone c.s false)

end

namespace Sys2Proof.Claims

open Sys2Proof.Machine

/-- The bytes that a store of a size writes, by access: the low bytes of the registers, little-endian (R192). -/
def storeBytes (sz : Size) (v : Nat → Word) : List (List Byte) :=
  match sz with
  | .b | .sb => [bytesLE 1 (v 0).toNat]
  | .h | .sh => [bytesLE 2 (v 0).toNat]
  | .w => [bytesLE 4 (v 0).toNat]
  | .d => [bytesLE 4 (v 0).toNat ++ bytesLE 4 (v 1).toNat]
  | .q => [bytesLE 4 (v 0).toNat ++ bytesLE 4 (v 1).toNat, bytesLE 4 (v 2).toNat ++ bytesLE 4 (v 3).toNat]

/-- Entries for the store queue, in the order of their lanes, with the identifiers after that of the instruction; one to a
window of the host or of a peer has further needs (R233). -/
def entriesOf (s : State) (w : Wave) (p : Path) (needs far : List Nat) (at_ : Place)
    (xs : List (Nat × DWord × SKind)) : List SQ :=
  xs.zipIdx.map fun x =>
    { id := s.nextId + 1 + x.2, grp := s.nextId, lane := x.1.1, pc := p.pc, slot := w.slot, gslot := w.gslot,
      asid := s.asidOf w, pa := (at_ x.1.2.1).1, kind := x.1.2.2
      needs := needs ++ (if inWindow (at_ x.1.2.1).1 then far else []) ++ w.after, va := x.1.2.1, word := w.word }

/-- Of the stores of one instruction to one place, the last (R194). -/
def lastOf : List SQ → List SQ
  | [] => []
  | e :: t => if t.any fun f => f.range == e.range then lastOf t else e :: lastOf t

/-- The lanes in which a store or an atomic acts. -/
def realLanes (w : Wave) (g : BitVec 3) (p : Path) : Lanes := w.acting g p &&& ~~~w.helper

/-- The state with entries at the end of the store queue of the wave's core, and with a changed L1. -/
def withEntries (s : State) (w : Wave) (es : List SQ) (f : List (Nat × List Byte) → List (Nat × List Byte)) : State :=
  s.modCore w.core fun c => { c with sq := c.sq ++ es, l1 := f c.l1 }

/-- No unread load of the wave names a byte of an entry. -/
def apart (w : Wave) (es : List SQ) : Prop :=
  ∀ x ∈ w.loads, ∀ e ∈ es, overlaps x.2.1 x.2.2.1 e.range.1 e.range.2 = false

/-- Lanes of a store of a size, with the address and the bytes of each access. -/
def storeList (sz : Size) (addr : Nat → Int) (v : Nat → Nat → Word) (act : Lanes) : List (Nat × DWord × SKind) :=
  ((lanesOf act).map fun l => ((pieces sz (BitVec.ofInt 64 (addr l))).zip (storeBytes sz (v l))).map
    fun x => (l, x.1.1, SKind.store x.2)).flatten

/-- The L1 after stores: each updates the lines that it touches (R186), or takes them out while something that it must
follow is outstanding, so that no other wave of the core reads it first (R240). -/
def l1Stores (s : State) (core : Nat) (es : List SQ) (l1 : List (Nat × List Byte)) : List (Nat × List Byte) :=
  es.foldl (fun m e => match e.kind with
    | .store bs =>
      if e.needs.all fun g => !s.outstanding core g then l1Store m e.pa bs else l1Drop m e.pa bs.length
    | _ => m) l1

/-- A store of lanes completes: the entries stand at the end of the store queue, and the L1 has them. A release of wave or
group scope is stated where what it would first perform is performed. -/
def Stores (i : Instr) (c : Ctl) (u : Use) (sz : Size) (loc : Bool) (addr : Wave → Nat → Int) (v : Wave → Nat → Nat → Word)
    (rel : Option Scope) : Prop :=
  ∀ s w p (at_ : Place), Plain s c.s w p → Clear w u → Idle s w →
    (loc = true → at_ = localAt w) →
    (∀ l ∈ lanesOf (realLanes w c.p p), fits s w loc (sizeBytes sz) (addr w l) ∧
      (loc = false → ∀ x ∈ pieces sz (BitVec.ofInt 64 (addr w l)), ∃ how, Reaches s w (.store [] []) x.1 (at_ x.1).1 how)) →
    (rel.any wide = true → s.groupFaulted w = false) →
    (rel.any (fun sc => !wide sc) = true →
      w.readTodos = [] ∧ ∀ e ∈ (s.core w.core).sq, e.slot = w.slot → e.unseen = false) →
    let es := entriesOf s w p (if rel.any wide then s.groupGrps w else []) (if rel.isSome then s.groupGrps w else []) at_
      (storeList sz (addr w) (v w) (realLanes w c.p p))
    apart w es →
    ∃ t s', exec i s = .next t ∧ Becomes s s' (w.gone c.s (decide (realLanes w c.p p ≠ 0))) ∧
      SameButTlb (withEntries s' w (lastOf es) (l1Stores s w.core es)) t

/-- The instruction of an operation of Table 9-1 in a form of Table 9-2; ATOML has no AddSi64. -/
def atomInstr (m : AtomMaj) (op : AtomOp) (c : Ctl) (d a b : Reg) : Instr :=
  match m, op with
  | .atom, .addSi32 => .atomAddSi32 c d a b
  | .atom, .addF32 => .atomAddF32 c d a b
  | .atom, .addBf16x2 => .atomAddBf16x2 c d a b
  | .atom, .addF16x2 => .atomAddF16x2 c d a b
  | .atom, .minSi32 => .atomMinSi32 c d a b
  | .atom, .maxSi32 => .atomMaxSi32 c d a b
  | .atom, .minUi32 => .atomMinUi32 c d a b
  | .atom, .maxUi32 => .atomMaxUi32 c d a b
  | .atom, .minF32 => .atomMinF32 c d a b
  | .atom, .maxF32 => .atomMaxF32 c d a b
  | .atom, .and => .atomAnd c d a b
  | .atom, .or => .atomOr c d a b
  | .atom, .xor => .atomXor c d a b
  | .atom, .exch => .atomExch c d a b
  | .atom, .cas => .atomCas c d a b
  | .atom, .addSi64 => .atomAddSi64 c d a b
  | .atoma, .addSi32 => .atomaAddSi32 c d a b
  | .atoma, .addF32 => .atomaAddF32 c d a b
  | .atoma, .addBf16x2 => .atomaAddBf16x2 c d a b
  | .atoma, .addF16x2 => .atomaAddF16x2 c d a b
  | .atoma, .minSi32 => .atomaMinSi32 c d a b
  | .atoma, .maxSi32 => .atomaMaxSi32 c d a b
  | .atoma, .minUi32 => .atomaMinUi32 c d a b
  | .atoma, .maxUi32 => .atomaMaxUi32 c d a b
  | .atoma, .minF32 => .atomaMinF32 c d a b
  | .atoma, .maxF32 => .atomaMaxF32 c d a b
  | .atoma, .and => .atomaAnd c d a b
  | .atoma, .or => .atomaOr c d a b
  | .atoma, .xor => .atomaXor c d a b
  | .atoma, .exch => .atomaExch c d a b
  | .atoma, .cas => .atomaCas c d a b
  | .atoma, .addSi64 => .atomaAddSi64 c d a b
  | .red, .addSi32 => .redAddSi32 c a b
  | .red, .addF32 => .redAddF32 c a b
  | .red, .addBf16x2 => .redAddBf16x2 c a b
  | .red, .addF16x2 => .redAddF16x2 c a b
  | .red, .minSi32 => .redMinSi32 c a b
  | .red, .maxSi32 => .redMaxSi32 c a b
  | .red, .minUi32 => .redMinUi32 c a b
  | .red, .maxUi32 => .redMaxUi32 c a b
  | .red, .minF32 => .redMinF32 c a b
  | .red, .maxF32 => .redMaxF32 c a b
  | .red, .and => .redAnd c a b
  | .red, .or => .redOr c a b
  | .red, .xor => .redXor c a b
  | .red, .exch => .redExch c a b
  | .red, .cas => .redCas c d a b
  | .red, .addSi64 => .redAddSi64 c a b
  | .atoml, .addSi32 => .atomlAddSi32 c d a b
  | .atoml, .addF32 => .atomlAddF32 c d a b
  | .atoml, .addBf16x2 => .atomlAddBf16x2 c d a b
  | .atoml, .addF16x2 => .atomlAddF16x2 c d a b
  | .atoml, .minSi32 => .atomlMinSi32 c d a b
  | .atoml, .maxSi32 => .atomlMaxSi32 c d a b
  | .atoml, .minUi32 => .atomlMinUi32 c d a b
  | .atoml, .maxUi32 => .atomlMaxUi32 c d a b
  | .atoml, .minF32 => .atomlMinF32 c d a b
  | .atoml, .maxF32 => .atomlMaxF32 c d a b
  | .atoml, .and => .atomlAnd c d a b
  | .atoml, .or => .atomlOr c d a b
  | .atoml, .xor => .atomlXor c d a b
  | .atoml, .exch => .atomlExch c d a b
  | .atoml, .cas => .atomlCas c d a b
  | .atoml, .addSi64 => .nop c

/-- The places of the RMWs of a lane: a packed operation has two of 2 bytes (R219). -/
def halves (op : AtomOp) (pa : Nat) : List (Nat × Option Bool) :=
  if op = .addBf16x2 ∨ op = .addF16x2 then [(pa, some false), (pa + 2, some true)] else [(pa, none)]

/-- The places of the RMWs of an instruction: one for each location that some lane names (R219). -/
def rmwPlaces (op : AtomOp) (pas : List Nat) : List (Nat × Option Bool) := ((pas.map (halves op)).flatten).eraseDups

/-- The operands of a lane for an RMW: a packed operation takes half of each. -/
def halfOf (h : Option Bool) (b : DWord) : DWord :=
  match h with
  | none => b
  | some false => b &&& 0xFFFF
  | some true => b >>> 16 &&& 0xFFFF

/-- The lanes of an atomic: the lane, its address and its operands. -/
abbrev AtomLane := Nat × DWord × DWord × DWord

/-- The entries of an atomic: the lanes of one location in ascending order, in one entry (R217, R219). -/
def atomEntries (s : State) (w : Wave) (p : Path) (needs : List Nat) (at_ : Place) (op : AtomOp) (ret : Bool)
    (ls : List AtomLane) : List SQ :=
  let at1 := fun x : AtomLane => (at_ x.2.1).1
  (rmwPlaces op (ls.map at1)).zipIdx.map fun k =>
    let mine := ls.filter fun x => (halves op (at1 x)).contains k.1
    { id := s.nextId + 1 + k.2, grp := s.nextId, lane := (mine.map fun x => x.1).headD 0, pc := p.pc, slot := w.slot
      gslot := w.gslot, asid := s.asidOf w, pa := k.1.1
      kind := .rmw op k.1.2 (mine.map fun x => (x.1, halfOf k.1.2 x.2.2.1, x.2.2.2)) ret
      needs := needs ++ w.after, va := (mine.map fun x => x.2.1).headD 0, word := w.word }

/-- The results of an atomic: the old value of the location, from its entry (R217). -/
def atomOuts (s : State) (at_ : Place) (op : AtomOp) (d : Reg) (ls : List AtomLane) : List (Dst × Src) :=
  let at1 := fun x : AtomLane => (at_ x.2.1).1
  let id := fun k => s.nextId + 1 + (rmwPlaces op (ls.map at1)).idxOf k
  (ls.map fun x =>
    if op = .addSi64 then
      [(Dst.g d x.1, Src.rmw s.nextId (id (at1 x, none)) x.1 0), (.g (d + 1) x.1, .rmw s.nextId (id (at1 x, none)) x.1 1)]
    else if op = .addBf16x2 ∨ op = .addF16x2 then
      [(.g d x.1, .halves s.nextId (id (at1 x, some false)) (id (at1 x + 2, some true)) x.1 none none)]
    else [(.g d x.1, .rmw s.nextId (id (at1 x, none)) x.1 0)]).flatten

end Sys2Proof.Claims

section

open Sys2Proof Sys2Proof.Machine Sys2Proof.Claims

/-- R191 to R195, R233, R238, R240: STG, STL and STREL: each acting lane that is no helper lane stores the low bytes of its
registers at its address; the store stands in the core's queue and its L1, behind what FENCE.rel asks, and behind what
the waves of its group have outstanding when STREL has cluster scope or wider, or writes a window of the host or of a
peer; nothing is read. -/
def Sys2Proof.Claims.LaneStores : Prop :=
  (∀ c d a sz off,
    Stores (.stg c d a sz off) c (laneUse c.p [(a, 2), (d, sizeRegs sz)] [] [] []) sz false
      (fun w l => mAddr sz off (w.readG2 a l).toNat) (fun w l k => w.readG (d + BitVec.ofNat 6 k) l) none ∧
    Stores (.stl c d a sz off) c (laneUse c.p [(a, 1), (d, sizeRegs sz)] [] [] []) sz true
      (fun w l => mAddr sz off (w.readG a l).toNat) (fun w l k => w.readG (d + BitVec.ofNat 6 k) l) none) ∧
  ∀ c a b (dw : Bool) sc,
    let sz : Size := if dw then .d else .w
    Stores (.strel c a b dw sc) c (laneUse c.p [(a, 2), (b, sizeRegs sz)] [] [] []) sz false
      (fun w l => (w.readG2 a l).toNat) (fun w l k => w.readG (b + BitVec.ofNat 6 k) l) (some sc)

/-- R213, R217, R219: every operation in the forms ATOM, ATOMA, RED and ATOML: one RMW for each location, with the lanes that
name it in ascending order; each lane takes the old value but in RED. ATOMA is a release of device scope, and the wave's
later accesses wait for it (R220, R240). -/
def Sys2Proof.Claims.Atomics : Prop :=
  ∀ m op c d a b s w p (at_ : Place),
    ¬ (m = .atoml ∧ op = .addSi64) →
    let loc : Bool := m = .atoml
    let d' : Reg := if m = .red ∧ op ≠ .cas then 0 else d
    let n := if op = .addSi64 then 2 else 1
    let size := if op = .addSi64 then 8 else 4
    let addr := fun l => if loc then (w.readG a l).toNat else (w.readG2 a l).toNat
    let ls := (lanesOf (realLanes w c.p p)).map fun l =>
      (l, BitVec.ofNat 64 (addr l), if op = .addSi64 then w.readG2 b l else (w.readG b l).setWidth 64,
        (w.readG d' l).setWidth 64)
    Plain s c.s w p →
    Clear w (laneUse c.p ([(a, if loc then 1 else 2), (b, n)] ++ if op = .cas then [(d, 1)] else [])
      (if m = .red then [] else [(d, n)]) [] []) →
    Idle s w → (loc = true → at_ = localAt w) →
    (∀ x ∈ ls, fits s w loc size (addr x.1) ∧
      (loc = false → ∃ how, Reaches s w (.rmw op 0 0 (decide (m ≠ .red)) []) x.2.1 (at_ x.2.1).1 how)) →
    (m = .atoma → ls ≠ [] ∧ s.groupFaulted w = false) →
    let es := atomEntries s w p (if m = .atoma then s.groupGrps w else []) at_ op (decide (m ≠ .red)) ls
    apart w es →
    ∃ t s', exec (atomInstr m op c d a b) s = .next t ∧
      Becomes s s' (({ w.loading (s.checkedOf w) (if m = .red then [] else atomOuts s at_ op d ls) with
        acq := if m = .atoma then [(s.nextId, true)] else [] } : Wave).gone c.s (decide (ls ≠ []))) ∧
      SameButTlb (withEntries s' w es fun l1 => es.foldl (fun l e => l1Drop l e.range.1 e.range.2) l1) t

/-- R222: ORED: each acting lane that is no helper lane offers its value and index to the record at gA:gA+1. -/
def Sys2Proof.Claims.OrderedContributions : Prop :=
  ∀ (kind : Fin 3) c d a b s w p (at_ : Place),
    let i : Instr := match kind with
      | 0 => .oredF32 c d a b
      | 1 => .oredBf16x2 c d a b
      | 2 => .oredF64 c d a b
    let xs := (lanesOf (realLanes w c.p p)).map fun l => (l, w.readG2 a l, SKind.ored kind (w.readG d l).toNat
      (if kind = 2 then w.readG2 b l else (w.readG b l).setWidth 64) false)
    Plain s c.s w p → Clear w (laneUse c.p [(a, 2), (b, if kind = 2 then 2 else 1), (d, 1)] [] [] []) → Idle s w →
    (∀ x ∈ xs, x.2.1.toNat % 64 = 0 ∧ ∃ how, Reaches s w (.ored 0 0 0) x.2.1 (at_ x.2.1).1 how) →
    let es := entriesOf s w p [] [] at_ xs
    apart w es →
    ∃ t s', exec i s = .next t ∧ Becomes s s' (w.gone c.s (decide (xs ≠ []))) ∧
      SameButTlb (withEntries s' w es fun l1 => es.foldl (fun l e => l1Drop l e.range.1 e.range.2) l1) t

end

/-! ## Steps at the banks, and results -/

namespace Sys2Proof.Claims

open Sys2Proof.Machine

/-- The new value of a location (Table 9-1); for a packed operation, of a half. -/
def atomNew (op : AtomOp) (m b c : Nat) : Nat :=
  let x := BitVec.ofNat 32 m
  let y := BitVec.ofNat 32 b
  let fx := f32.num x.toNat
  let fy := f32.num y.toNat
  match op with
  | .addSi32 => (x + y).toNat
  | .addF32 => (f32.add .rne false fx fy).1
  | .addBf16x2 => (bf16.add .rne false (bf16.num (m % 65536)) (bf16.num (b % 65536))).1
  | .addF16x2 => (f16.add .rne false (f16.num (m % 65536)) (f16.num (b % 65536))).1
  | .minSi32 => (if x.slt y then x else y).toNat
  | .maxSi32 => (if y.slt x then x else y).toNat
  | .minUi32 => (if x.ult y then x else y).toNat
  | .maxUi32 => (if y.ult x then x else y).toNat
  | .minF32 => (f32.minmax false false fx fy).1
  | .maxF32 => (f32.minmax false true fx fy).1
  | .and => (x &&& y).toNat
  | .or => (x ||| y).toNat
  | .xor => (x ^^^ y).toNat
  | .exch => y.toNat
  | .cas => (if x = BitVec.ofNat 32 c then y else x).toNat
  | .addSi64 => (BitVec.ofNat 64 m + BitVec.ofNat 64 b).toNat

/-- The value of a location after lanes, one after another (R219). -/
def atomFold (op : AtomOp) (m : Nat) (ls : List (Nat × DWord × DWord)) : Nat :=
  ls.foldl (fun m x => atomNew op m x.2.1.toNat x.2.2.toNat) m

/-- The results of a wave when an RMW has been performed on the value `m`: each lane takes the value that it found, and
a packed result is whole with its second half. -/
def atomReturned (op : AtomOp) (id m : Nat) (ls : List (Nat × DWord × DWord)) (q : Pend) : Pend :=
  let old (l : Nat) : Option Nat := (ls.findIdx? fun x => x.1 == l).map fun i => atomFold op m (ls.take i)
  match q.src with
  | .rmw _ i l k =>
    match if i = id then old l else none with
    | some v => { q with src := .val (BitVec.ofNat 32 (v / 2 ^ (32 * k))) }
    | none => q
  | .halves g lo hi l a b =>
    match if lo = id ∨ hi = id then old l else none with
    | some v =>
      let h := BitVec.ofNat 16 v
      match (if lo = id then some h else a), (if hi = id then some h else b) with
      | some x, some y => { q with src := .val (y ++ x) }
      | a, b => { q with src := .halves g lo hi l a b }
    | none => q
  | _ => q

/-- Bytes of memory have been written, and no others. -/
def Wrote (s t : State) (pa : Nat) (bs : List Byte) : Prop :=
  ∀ a, Tab.get 0 t.mem a = if pa ≤ a ∧ a < pa + bs.length then bs.getD (a - pa) 0 else Tab.get 0 s.mem a

/-- No watched range and no active ordered reduction lies on a range of bytes. -/
def Unwatched (s : State) (pa n : Nat) : Prop :=
  (∀ e ∈ s.slots, ∀ r ∈ e.2.ranges, overlaps pa n r.1 r.2 = false) ∧
    ∀ c ∈ s.clusters, ∀ o ∈ c.2.ore, overlaps pa n o.pa 64 = false

/-- An entry of the store queue that may be performed now: what must come before it has been, and its context may write
its place. -/
def Due (s : State) (core k : Nat) (e : SQ) : Prop :=
  s.tabs = true ∧ s.entryAt core k = some e ∧ (s.core core).sq.find? (fun f => f.id == e.id) = some e ∧ s.deps core (.entry e.id) = [] ∧
    s.windowOk e.asid e.pa = true

/-- The entry has left the store queue. -/
def Left (s t : State) (core : Nat) (e : SQ) : Prop :=
  (t.core core).sq = (s.core core).sq.filter fun f => f.id != e.id

end Sys2Proof.Claims

section

open Sys2Proof Sys2Proof.Machine Sys2Proof.Claims

/-- R195, R197, R213, R217, R219, R237: an entry of a store queue that is due is performed. A store writes its bytes and
no others, in memory or in the local memory of its group; a CACHE operation cleans the line, or takes it out; an RMW
replaces the value of its location by the operation over its lanes, and gives each lane the value that it found. -/
def Obligations.BankWrites : Prop :=
  (∀ s core k e bs, Due s core k e → e.kind = .store bs → (inDev e.pa || inSlice e.pa) = true →
    Memory.wf s.mem → Unwatched s e.pa bs.length →
    ∃ t, exec (.storePerform core k) s = .next t ∧ Wrote s t e.pa bs ∧ Left s t core e ∧ t.waves = s.waves ∧
      t.groups = s.groups) ∧
  (∀ s core k e bs c g off x, Due s core k e → e.kind = .store bs → inLocal e.pa = true → localOf e.pa = (c, g, off) →
    s.group? c g = some x → Memory.wf x.loc →
    ∃ t x', exec (.storePerform core k) s = .next t ∧ t.mem = s.mem ∧ Left s t core e ∧ t.waves = s.waves ∧
      t.group? c g = some x' ∧ x' = { x with loc := x'.loc } ∧
      ∀ a, Tab.get 0 x'.loc a = if off ≤ a ∧ a < off + bs.length then bs.getD (a - off) 0 else Tab.get 0 x.loc a) ∧
  (∀ s core k e inval, Due s core k e → e.kind = .cache inval →
    ∃ t, exec (.storePerform core k) s = .next t ∧ t.mem = s.mem ∧ Left s t core e ∧ t.waves = s.waves ∧
      ∀ g ∈ (t.cluster (homeOf e.pa).1).tags, g.line = e.pa / 256 → inval = false ∧ g.dirty = 0) ∧
  (∀ s core k e op half ls ret, Due s core k e → e.kind = .rmw op half ls ret → half.isSome = op.packed →
    (inDev e.pa || inSlice e.pa) = true → Memory.wf s.mem → Unwatched s e.pa 8 →
    (∀ w, s.wave? core e.slot = some w → w.acq = []) →
    let n := if half.isSome then 2 else if op = .addSi64 then 8 else 4
    let m := leNat (s.mem.read e.pa n)
    ∃ t, exec (.sliceRmw core k) s = .next t ∧ Wrote s t e.pa (bytesLE n (atomFold op m ls)) ∧ Left s t core e ∧
      t.waves = (s.modWave core e.slot fun w => { w with pend := w.pend.map (atomReturned op e.id m ls) }).waves)

end

namespace Sys2Proof.Claims

open Sys2Proof.Machine

/-- RESULT of an ordered reduction after a contribution: f32, bf16x2 by halves, or f64, rounded to nearest (R223). -/
def contributed (kind old v : Nat) : Nat :=
  let add (f : Fmt) (n x y : Nat) : Nat := (f.add .rne false (f.num (x % 2 ^ n)) (f.num (y % 2 ^ n))).1
  match kind with
  | 0 => add f32 32 old v
  | 1 => add bf16 16 old v + 65536 * add bf16 16 (old / 65536) (v / 65536)
  | _ => add f64 64 old v

/-- A header of an ordered reduction (Table 9-3): result, size, remaining count, kind, state and the rest. -/
def header (r size rem kind state : Nat) (rest : List Byte) : List Byte :=
  bytesLE 8 r ++ bytesLE 4 size ++ bytesLE 4 rem ++ [BitVec.ofNat 8 kind, BitVec.ofNat 8 state] ++ rest

end Sys2Proof.Claims

section

open Sys2Proof Sys2Proof.Machine Sys2Proof.Claims

/-- R222 to R224: a contribution that is due comes to its bank. The next index of a valid object is merged and counted, and
the object is complete with the last; a later index is held; a new object is refused while the bank has 16, and the
contribution is tried again.
Readings of the model in it: log entry 27. -/
def Obligations.OrderedReductions : Prop :=
  ∀ s core k e kind i v (refused : Bool) r size rem rest, Due s core k e → e.kind = .ored kind i v refused →
    (inDev e.pa || inSlice e.pa) = true → Memory.wf s.mem → kind < 3 → r < 2 ^ 64 → 0 < size → size ≤ 65536 → 0 < rem → rem ≤ size →
    rest.length = 46 → (rest.take 2).all (fun x => x == 0) = true → (rest.drop 6).all (fun x => x == 0) = true →
    s.mem.read e.pa 64 = header r size rem kind 0 rest →
    (∀ x ∈ s.slots, ∀ y ∈ x.2.ranges, overlaps e.pa 64 y.1 y.2 = false) →
    (s.cluster (homeOf e.pa).1).oreHeld = [] →
    let ore := (s.cluster (homeOf e.pa).1).ore
    let active := ore.any fun o => o.pa == e.pa
    let full := decide (16 ≤ (ore.filter fun o => bankOf o.pa == bankOf e.pa).length)
    let instr : Instr := if refused then .oredRefusalRetry core k else .oreContribution core k
    ∃ t, exec instr s = .next t ∧
      if active = false ∧ full = true ∧ size - rem ≤ i ∧ i < size then
        t.mem = s.mem ∧ t.waves = s.waves ∧ (t.core core).sq = (s.core core).sq.map fun f =>
          if f.id == e.id then { f with kind := .ored kind i v true } else f
      else if i = size - rem then
        Wrote s t e.pa (header (contributed kind r v.toNat) size (rem - 1) kind (if rem = 1 then 1 else 0) rest) ∧
          t.waves = s.waves ∧ Left s t core e ∧
          ((t.cluster (homeOf e.pa).1).ore.any fun o => o.pa == e.pa) = decide (rem ≠ 1)
      else if size - rem < i ∧ i < size then
        t.mem = s.mem ∧ t.waves = s.waves ∧ Left s t core e ∧
          (t.cluster (homeOf e.pa).1).oreHeld = [⟨e.pa, i, v, e.asid, e.va, core⟩] ∧
          ((t.cluster (homeOf e.pa).1).ore.any fun o => o.pa == e.pa) = true
      else Left s t core e

end

namespace Sys2Proof.Claims

open Sys2Proof.Machine

/-- What a destination reads when a value has landed in it: a predicate is 0 or 1. -/
def landed (d : Dst) (v : Word) : Word :=
  match d with
  | .p _ _ => if v = 0 then 0 else 1
  | _ => v

/-- The register that a load of some bytes returns (Table 8-3). -/
def loadedWord (p : Part) (bs : List Byte) : Word :=
  match p.sz with
  | .b => BitVec.ofNat 32 (leNat bs % 256)
  | .sb => (BitVec.ofNat 8 (leNat bs)).signExtend 32
  | .h => BitVec.ofNat 32 (leNat bs % 65536)
  | .sh => (BitVec.ofNat 16 (leNat bs)).signExtend 32
  | _ => BitVec.ofNat 32 (leNat bs / 2 ^ (32 * p.word))

/-- What a read of a core returns when nothing stands in its store queue: the bytes of the line of its L1 for CACHE
attribute 0, or else those of the memory (R186, R233). -/
def ReadsAs (s : State) (core pa len how : Nat) (bs : List Byte) : Prop :=
  match if how = 0 then assoc (s.core core).l1 (pa / 32) else none with
  | some line => bs = (line.drop (pa % 32)).take len
  | none =>
    if inLocal pa then ∃ x, s.group? (localOf pa).1 (localOf pa).2.1 = some x ∧ bs = x.loc.read (localOf pa).2.2 len
    else inDev pa = true ∧ bs = s.mem.read pa len

end Sys2Proof.Claims

section

open Sys2Proof Sys2Proof.Machine Sys2Proof.Claims

/-- R127, R134, R150, R195: an outstanding result lands in its register, and in no other; a write of another value sets
CHANGED for the path of the lane. A load that is due is read then. An element of a bound read stream, of its step or of a
later one, is fetched before it is popped (R130).
Readings of the model in it: log entry 78. -/
def Obligations.ResultsLand : Prop :=
  (∀ s core slot k w d v path word, s.wave? core slot = some w → w.wf = true → w.pend[k]? = some ⟨d, .val v, path, word⟩ →
    (d.isReg = true ∨ d = .fpsr) →
    ∃ w', exec (.lClassResultWrite core slot k) s = .next (s.settle w') ∧
      w' = { w with
        pend := w.pend.eraseIdx k, g := w'.g, w := w'.w, p := w'.p
        fpsr := if d = .fpsr then w.fpsr ||| v else w.fpsr
        paths := w.paths.map fun q : Path =>
          if d ≠ .fpsr ∧ d.isNull = false ∧ w.readDst d ≠ v ∧ (match d.lane? with
            | some l => !q.reconv && q.mask.getLsbD l
            | none => q.made == path) = true then q.touch else q } ∧
      ∀ x : Dst, x.isReg = true → w'.readDst x = if x = d ∧ d.isNull = false then landed d v else w.readDst x) ∧
  (∀ s core slot k w d path word grp va pc pa len how part bs, s.wave? core slot = some w → w.wf = true → w.stat = .run →
    w.acq = [] → (∃ r l, d = .g r l ∧ r ≠ 0 ∧ l < 32) ∨ (∃ r, d = .w r ∧ r ≠ 0) →
    w.pend[k]? = some ⟨d, .mem grp va pc pa len how part, path, word⟩ →
    (∀ q ∈ w.pend, ∀ va' pc' len' how' part', q.src = .mem grp va' pc' pa len' how' part' → len' = len ∧ how' = how) →
    s.deps core (.load slot grp pa) = [] → (s.core core).sq = [] → s.windowOk (s.asidOf w) pa = true →
    0 < len → pa % 32 + len ≤ 32 → ReadsAs s core pa len how bs →
    ∃ t w', exec (.lClassResultWrite core slot k) s = .next t ∧ t.mem = s.mem ∧ t.wave? core slot = some w' ∧
      w'.readDst d = loadedWord part bs ∧ w'.pend.length + 1 = w.pend.length) ∧
  (∀ s core slot st k w x pa how bs, s.wave? core slot = some w → w.wf = true → assoc w.streams st = some x →
    let n := 32 * x.pos + k
    let va := x.base + BitVec.ofNat 64 (n % 32) * x.lstride.signExtend 64 + BitVec.ofNat 64 (n / 32) * x.estride.signExtend 64
    x.push = false → n < x.count → assoc x.buf n = none →
    s.pageHeld w va = false → w.pushing = false → w.loads = [] → (s.core core).sq = [] →
    Translates s w { r := true } va pa how → s.windowOk (s.asidOf w) pa = true → pa % 32 + sizeBytes x.size ≤ 32 →
    ReadsAs s core pa (sizeBytes x.size) how bs →
    ∃ t w' x', exec (.streamElementFetch core slot st k) s = .next t ∧ t.mem = s.mem ∧
      t.wave? core slot = some w' ∧ assoc w'.streams st = some x' ∧ x' = { x with buf := x'.buf } ∧
      assoc x'.buf n = some (loadedWord ⟨x.size, 0⟩ bs) ∧ ∀ m, m ≠ n → assoc x'.buf m = assoc x.buf m) ∧
  (∀ s port line, exec (.mergeWindowClose port line) s = .next { s with
    windows := s.windows.filter (fun x => !decide (x.port = port ∧ x.line = line ∧ x.opened + 16 ≤ s.clock)) })

end

/-! ## Fences, control flow, barriers and paths -/

namespace Sys2Proof.Claims

open Sys2Proof.Machine

/-- Nothing that a fence of a scope orders is outstanding: no unread load or atomic of the wave, no entry of it in the store
queue but stores to memory that its group may read, and for a wide scope no access that comes before a release. -/
structure Settled (s : State) (w : Wave) (sc : Scope) : Prop where
  loads : w.readTodos = []
  locals : ∀ e ∈ (s.core w.core).sq, e.slot = w.slot → inLocal e.pa = false ∧ e.isStore = true ∧ e.needs = []
  group : wide sc = true → ∀ g ∈ s.groupGrps w, s.todoOf w.core g = []
  held : wide sc = true → s.groupFaulted w = false

/-- An instruction acts once for its wave: its guard is true in the lane of R28. -/
def actsOnce (w : Wave) (g : BitVec 3) (p : Path) : Bool := (w.actsIn g (w.lanesOfPath p)).isSome

/-- The registers of an instruction that names none but its guard. -/
abbrev noUse (w : Wave) (g : BitVec 3) : Use := waveUse w g [] [] [] [] [] []

/-- The cores that a scope of an agent at a core reaches (R232, R248). -/
def inScope (core : Nat) (sc : Scope) (k : Nat) : Bool :=
  match sc with
  | .wave | .group => k == core
  | .cluster => clusterOf k == clusterOf core && (decide (k < 240) || k == core)
  | _ => true

end Sys2Proof.Claims

section

open Sys2Proof Sys2Proof.Machine Sys2Proof.Claims

/-- R199, R236, R238, R248, R259: fences of a wave with nothing outstanding that they order. An acquire from cluster scope on
empties the L1; a release from there on makes later writes follow what the group has outstanding; CFENCE empties the
instruction caches of its scope. DRAIN waits for the operations of its path, as a switch point also where it is the 64th
instruction of the run (R133), and DRAIN.walk traps outside a service core.
Readings of the model in it: log entries 15 and 24. -/
def Obligations.FencesAndDrains : Prop :=
  (∀ s w p (c : Ctl) (sc : Scope), Plain s c.s w p → Clear w (noUse w c.p) → Idle s w → w.readTodos = [] →
    ∃ t, exec (.fenceAcq c sc) s = .next t ∧
      Becomes (if actsOnce w c.p p && wide sc then s.l1Clear w.core else s) t (w.gone c.s false)) ∧
  (∀ s w p (c : Ctl) (sc : Scope), Plain s c.s w p → Clear w (noUse w c.p) → Idle s w → Settled s w sc →
    ∃ t, exec (.fenceFull c sc) s = .next t ∧
      Becomes (if actsOnce w c.p p && wide sc then s.l1Clear w.core else s) t (w.gone c.s false)) ∧
  (∀ s w p (c : Ctl) (sc : Scope), Plain s c.s w p → Clear w (noUse w c.p) → Idle s w →
    (wide sc = true → s.groupFaulted w = false) → (wide sc = false → Settled s w sc) →
    ∃ t, exec (.fenceRel c sc) s = .next t ∧
      Becomes s t (({ w with after := if actsOnce w c.p p && wide sc then s.groupGrps w else w.after } : Wave).gone
        c.s false)) ∧
  (∀ s w p (c : Ctl) (sc : Scope), Plain s c.s w p → Clear w (noUse w c.p) → Idle s w → Settled s w .device →
    (∃ t, exec (.tfence c sc) s = .next t ∧ Becomes s t (w.gone c.s false)) ∧
    (∃ t s', exec (.cfence c sc) s = .next t ∧
      s' = { s with cores := s'.cores } ∧ Becomes s' t (w.gone c.s false) ∧
      ∀ k, s'.core k = { s.core k with
        ic := if actsOnce w c.p p && inScope w.core sc k then [] else (s.core k).ic })) ∧
  (∀ s w p (c : Ctl), Plain s c.s w p → Clear w (noUse w c.p) →
    ∀ e ∈ ([(.drainCpl c, [0], 0), (.drainCpg c, [1], 1), (.drainSlice c, [2], 2), (.drainMsg c, [3], 3), (.drainMx c, [4], 4),
        (.drainTrav c, [5], 5),
        (.drainAll c, if isService w.core then [0, 1, 2, 3, 4, 5, 6] else [0, 1, 2, 3, 4, 5], 7)] ++
        (if isService w.core then [(.drainWalk c, [6], 6)] else []) : List (Instr × List Nat × Nat)),
      ∃ t, exec e.1 s = .next t ∧ Becomes s t (if actsOnce w c.p p then
        { w.gone false false with
          stat := .drain ((e.2.1.map fun k => s.drainIds w.core k).flatten.eraseDups) (c.s || decide (63 ≤ w.count)) e.2.2 }
        else w.gone c.s false)) ∧
  (∀ s w p (c : Ctl), Plain s c.s w p → isService w.core = false →
    exec (.drainWalk c) s = .next (s.trapBy w p 0x004))

end

namespace Sys2Proof.Claims

open Sys2Proof.Machine

/-- The spin detector at a branch to one target (R151). -/
def spun (q : Path) (t : DWord) : Path :=
  if t.toNat ≤ q.pc.toNat then
    let n := if q.pc = q.loopb ∧ q.changed = false then min (q.spins + 1) 2 else 0
    { q with spins := n, loopb := q.pc, changed := false, demoted := decide (n = 2 ∨ (q.demoted = true ∧ q.pc = q.loopb)) }
  else { q with demoted := q.demoted && decide (q.pc ≠ q.loopb) }

/-- Two path entries that differ at most in where they stand: resident or spilled. -/
def samePath (q r : Path) : Prop := { q with spill := none } = { r with spill := none }

/-- The paths of a wave after a divergence of the path `p` to targets: one entry for each target, joining at the armed
join of the path or at its own, and a reconvergence entry for an armed path (R138). -/
def Diverged (w : Wave) (p : Path) (all : Lanes) (next : Nat → DWord) (ts : List DWord) (ps : List Path) : Prop :=
  (∀ x ∈ ts, ∃ q ∈ ps, samePath q {
    pc := x
    join := if p.armed then p.armPc else p.join
    mask := maskOf fun l => all.getLsbD l && next l == x
    made := q.made }) ∧
  (p.armed = true → ∃ q ∈ ps, samePath q { pc := p.armPc, join := p.join, mask := p.mask, reconv := true, made := p.made }) ∧
  (∀ q ∈ w.paths, q.made ≠ w.cur → ∃ r ∈ ps, samePath q r) ∧
  ps.length + 1 = w.paths.length + ts.length + (if p.armed then 1 else 0)

/-- Where the lanes of a path go (R138): a lane that is no helper lane by its own guard and target. A helper lane is no active
lane (R20) and makes no place of its own: it goes where its own guard and target say when another lane goes there, or
else with the lowest of the other lanes; a path of helper lanes alone goes with its lowest lane (log entry 33). -/
def goesTo (w : Wave) (p : Path) (act : Lanes) (target : Nat → DWord) (l : Nat) : DWord :=
  let all := w.lanesOfPath p
  let own (k : Nat) : DWord := if act.getLsbD k then target k else p.pc + 4
  let others := lanesOf (all &&& ~~~w.helper)
  if w.helper.getLsbD l = false ∨ (others.any fun k => own k == own l) = true then own l
  else match others.head?, (lanesOf all).head? with
    | some k, _ => own k
    | none, some k => if (own k).toNat % 4 = 0 then own k else p.pc + 4
    | none, none => p.pc + 4

/-- `i` is a branch: each live lane of the path goes to its target when its guard is true, and to PC + 4 when not; the link
register of an acting lane that is no helper lane takes PC + 4. Lanes that go to one place stay one path, and the entries
that are spilled stand in the save area (R138, R141 to R143, R151). -/
def Branches (i : Instr) (c : Ctl) (u : Use) (link : Option Reg) (target : Wave → Path → Nat → DWord) : Prop :=
  ∀ s w p, Plain s c.s w p → Clear w u → w.lanesOfPath p ≠ 0 → (w.paths.map fun q => q.made).Nodup →
    (∀ q ∈ w.paths, q.made < w.made) →
    let all := w.lanesOfPath p
    let act := w.acting c.p p
    let real := realLanes w c.p p
    let next := goesTo w p act (target w p)
    let ts := ((lanesOf all).map next).eraseDups
    (∀ l ∈ lanesOf real, (target w p l).toNat % 4 = 0) →
    (ts.length ≤ 1 ∨ w.paths.length + ts.length ≤ 64 + if p.armed then 0 else 1) →
    let new := fun d => laneNew real (fun l => match link with
      | some r => [(Dst.g r l, (p.pc + 4).setWidth 32), (Dst.g (r + 1) l, (p.pc + 4).extractLsb' 32 32)]
      | none => []) d
    ∃ t w' ch, exec i s = .next (t.storeSpills w') ∧ Becomes s t w' ∧
      (∀ d : Dst, d.isReg = true → w'.readDst d = if d.isNull then w.readDst d else (new d).getD (w.readDst d)) ∧
      (ch = true ↔ ∃ d : Dst, ∃ v, d.isReg = true ∧ d.isNull = false ∧ new d = some v ∧ v ≠ w.readDst d) ∧
      w' = { w.gone c.s false with g := w'.g, paths := w'.paths, made := w'.made } ∧
      if ts.length ≤ 1 then
        w'.made = w.made ∧ ∀ x ∈ ts, w'.paths = w.paths.map fun q =>
          if q.made = w.cur then { spun (if ch then q.touch else q) x with pc := x, armed := false } else q
      else Diverged w p all next ts w'.paths

/-- The lanes that live after lanes end: a helper lane ends with the last other lane of its quad (R144). -/
def liveAfter (w : Wave) (m : Lanes) : Lanes :=
  maskOf fun l => (w.live &&& ~~~m).getLsbD l &&
    (!w.helper.getLsbD l || (List.range 4).any fun k => (w.live &&& ~~~m &&& ~~~w.helper).getLsbD (l / 4 * 4 + k))

end Sys2Proof.Claims

section

open Sys2Proof Sys2Proof.Machine Sys2Proof.Claims

/-- R26, R138, R141 to R145, R151: NOP goes on; YIELD lets the other ready waves of its partition go first; the branches; JPT
arms the join of the path; EXIT ends its lanes, which leave every path, and the wave with its last lane.
Readings of the model in it: log entry 33. -/
def Obligations.ControlFlow : Prop :=
  (∀ c s w p, Plain s c.s w p → ∃ t, exec (.nop c) s = .next t ∧ Becomes s t (w.gone c.s false)) ∧
  (∀ c s w p, Plain s true w p → Clear w (noUse w c.p) →
    ∃ t, exec (.yield c) s = .next t ∧ Becomes s t (if actsOnce w c.p p then
      { w.gone false false with
        stat := .yielded (s.clock + 16) (((s.readyIn w.core (partOf w.slot)).filter fun v => v.slot != w.slot).map fun v => v.slot) }
      else w.gone c.s false)) ∧
  (∀ c off, Branches (.bra c off) c (laneUse c.p [] [] [] []) none
    fun _ p _ => p.pc + BitVec.ofInt 64 (4 * off.toInt)) ∧
  (∀ c off, Branches (.call c off) c (laneUse c.p [] [(2, 2)] [] []) (some 2)
    fun _ p _ => p.pc + BitVec.ofInt 64 (4 * off.toInt)) ∧
  (∀ c a, Branches (.brx c a) c (laneUse c.p [(a, 2)] [] [] []) none fun w _ l => w.readG2 a l) ∧
  (∀ c a, Branches (.ret c a) c (laneUse c.p [(a, 2)] [] [] []) none fun w _ l => w.readG2 a l) ∧
  (∀ c d a, Branches (.callx c d a) c (laneUse c.p [(a, 2)] [(d, 2)] [] []) (some d) fun w _ l => w.readG2 a l) ∧
  (∀ sw off s w p, Plain s sw w p → ∃ t, exec (.jpt sw off) s = .next t ∧
    Becomes s t { w.gone sw false with
      paths := w.paths.map fun q => if q.made = w.cur then
        { q with armed := true, armPc := p.pc + BitVec.ofInt 64 (4 * off.toInt), pc := q.pc + 4 } else q }) ∧
  (∀ c s w p, Plain s c.s w p → Clear w (laneUse c.p [] [] [] []) →
    let m := w.acting c.p p &&& ~~~w.helper
    (m = 0 → ∃ t, exec (.exit c) s = .next t ∧ Becomes s t (w.gone c.s false)) ∧
    (m ≠ 0 → liveAfter w m ≠ 0 → ∃ t w', exec (.exit c) s = .next (t.storeSpills w') ∧ Becomes s t w' ∧
      w' = { w.gone c.s false with live := liveAfter w m, paths := w'.paths } ∧
      (∀ q ∈ w.paths, q.mask &&& liveAfter w m ≠ 0 → ∃ r ∈ w'.paths,
        samePath r { q with mask := q.mask &&& liveAfter w m, pc := if q.made = w.cur then q.pc + 4 else q.pc }) ∧
      ∀ r ∈ w'.paths, r.mask &&& liveAfter w m = r.mask ∧ r.mask ≠ 0) ∧
    (m ≠ 0 → liveAfter w m = 0 → (∀ j l, w.kind = .task j l → j = 0) → ∃ t w', exec (.exit c) s = .next t ∧ t.wave? w.core w.slot = some w' ∧ w'.live = 0 ∧
      w'.paths = [] ∧ w'.stat = .ended ∧ w'.g = w.g ∧ w'.pend = w.pend))

end

/-! ## Barriers and joins -/

namespace Sys2Proof.Claims

open Sys2Proof.Machine

/-- A wave that meets no condition of R148 at barrier `n` of its group. -/
structure MayBar (s : State) (w : Wave) (p : Path) (g : Group) (n : BitVec 4) (waits arrives : Bool) : Prop where
  group : s.groupOf w = some g
  kept : n.toNat < g.bars
  handler : waits = true → w.kind ≠ .handler
  kind : w.kind = .launched ∨ w.kind = .handler
  once : arrives = true → w.slot ∉ (Tab.get {} g.barriers n.toNat).arrivals
  whole : w.live &&& ~~~p.mask = 0

/-- The phase of a barrier completes when the wave arrives: no bytes are pending, and every other live wave of the group that
takes part in barriers has arrived (R146). -/
def completes (s : State) (w : Wave) (b : Barrier) : Bool :=
  b.bytes == 0 && s.waves.all fun v =>
    !(v.core == w.core && v.gslot == w.gslot && v.live != 0 && (v.kind == .launched || v.kind == .handler)) ||
      v.slot == w.slot || b.arrivals.contains v.slot

end Sys2Proof.Claims

section

open Sys2Proof Sys2Proof.Machine Sys2Proof.Claims

/-- R146, R147: the BAR functions of a wave with nothing outstanding that its arrival releases. An arrival that completes the
phase starts the next one and ends the waits of the others; else it is counted. A wave waits for the phase of its last
arrival, or for pending bytes; going on from pending bytes acquires at device scope (R242). -/
def Sys2Proof.Claims.Barriers : Prop :=
  (∀ c n s w p g (sync : Bool), Plain s true w p → Clear w (noUse w c.p) → Settled s w .group → w.pushing = false →
    w.live ≠ 0 → actsOnce w c.p p = true → MayBar s w p g n sync true →
    let b : Barrier := Tab.get {} g.barriers n.toNat
    let done := completes s w b
    Tab.wf ({} : Barrier) g.barriers = true →
    ∃ t w' g', exec (if sync then .barSync c n else .barArrive c n) s = .next t ∧
      t.wave? w.core w.slot = some w' ∧ w' = { w.gone c.s true with
        arrived := Tab.put 0 w.arrived n.toNat (b.phase + 1)
        stat := if sync then (if done then .switch else .barrier n.toNat b.phase) else (w.gone c.s true).stat
        prev := w'.prev } ∧
      t.group? w.core w.gslot = some g' ∧ g' = { g with barriers := g'.barriers } ∧
      (∀ k, Tab.get {} g'.barriers k = if k ≠ n.toNat then Tab.get {} g.barriers k
        else if done then { phase := b.phase + 1, arrivals := [], bytes := b.bytes }
        else { b with arrivals := w.slot :: b.arrivals }) ∧
      (done = true → ∀ k v, s.wave? w.core k = some v → v.gslot = w.gslot → k ≠ w.slot →
        v.stat = .barrier n.toNat b.phase → ∃ v', t.wave? w.core k = some v' ∧ v'.stat = .switch)) ∧
  (∀ c n s w p g, Plain s true w p → Clear w (noUse w c.p) → actsOnce w c.p p = true → MayBar s w p g n true false →
    Tab.get 0 w.arrived n.toNat ≠ 0 →
    let mine := Tab.get 0 w.arrived n.toNat - 1
    ∃ t, exec (.barWait c n) s = .next t ∧
      Becomes s t (if mine < (Tab.get {} g.barriers n.toNat).phase then w.gone c.s false
        else { w.gone c.s false with stat := .barrier n.toNat mine })) ∧
  (∀ c n s w p g, Plain s true w p → Clear w (noUse w c.p) → actsOnce w c.p p = true → MayBar s w p g n true false →
    ∃ t, exec (.barxWait c n) s = .next t ∧
      if (Tab.get {} g.barriers n.toNat).bytes = 0 then Becomes (s.l1Clear w.core) t (w.gone c.s false)
      else Becomes s t { w.gone c.s false with stat := .bytes n.toNat }) ∧
  (∀ c n r s w p g l, Plain s c.s w p → Clear w (waveUse w c.p [(r, 1)] [] [] [] [] []) →
    w.actsIn c.p (w.lanesOfPath p) = some l → MayBar s w p g n false false → Tab.wf ({} : Barrier) g.barriers = true →
    let was := (Tab.get {} g.barriers n.toNat).bytes
    let now := was + (w.readG r l).toNat
    now ≤ 2 ^ 35 - 1 →
    ∃ t g', exec (.barxExpect c n r) s = .next t ∧ t.group? w.core w.gslot = some g' ∧
      (Tab.get {} g'.barriers n.toNat).bytes = now ∧
      (was < 0 → now = 0 → s.tabs = true → (t.core w.core).l1 = []) ∧
      (now ≠ 0 → t.wave? w.core w.slot = some (w.gone c.s true) ∧ g' = { g with barriers := g'.barriers } ∧
        ∀ k, k ≠ n.toNat → Tab.get {} g'.barriers k = Tab.get {} g.barriers k)) ∧
  (∀ c n s w p, Plain s c.s w p → Clear w (noUse w c.p) → actsOnce w c.p p = false →
    ∀ i ∈ [Instr.barSync c n, .barArrive c n, .barWait c n, .barxWait c n],
      ∃ t, exec i s = .next t ∧ Becomes s t (w.gone c.s false))

/-- R149: JOINW goes on when the counter at its address is zero, as an acquire of device scope, and waits when it is not;
JOINW_RECHECK translates the address of a waiting wave anew and reads the counter there (R262). -/
def Sys2Proof.Claims.Joins : Prop :=
  (∀ c a s w p l pa how, Plain s true w p → Clear w (waveUse w c.p [(a, 2)] [] [] [] [] []) → Idle s w →
    w.actsIn c.p (w.lanesOfPath p) = some l → w.kind ≠ .handler → (w.readG2 a l).toNat % 4 = 0 →
    Translates s w { r := true } (w.readG2 a l) pa how → inDev pa = true →
    (∀ e ∈ (s.core w.core).sq, overlaps e.range.1 e.range.2 pa 4 = false) →
    (∀ x ∈ w.loads, overlaps x.2.1 x.2.2.1 pa 4 = false) →
    ∃ t, exec (.joinw c a) s = .next t ∧ t.mem = s.mem ∧
      (leNat (s.mem.read pa 4) = 0 → (t.core w.core).l1 = [] ∧ t.wave? w.core w.slot = some (w.gone c.s false)) ∧
      (leNat (s.mem.read pa 4) ≠ 0 →
        t.wave? w.core w.slot = some { w.gone c.s false with stat := .join (w.readG2 a l) l p.pc })) ∧
  (∀ core slot s w va lane pc pa how, s.tabs = true → s.wave? core slot = some w → w.stat = .join va lane pc → w.excs = [] →
    s.pageHeld w va = false → Translates s w { r := true } va pa how → inDev pa = true →
    (∀ e ∈ (s.core core).sq, overlaps e.range.1 e.range.2 pa 4 = false) →
    (∀ x ∈ w.loads, overlaps x.2.1 x.2.2.1 pa 4 = false) →
    ∃ t, exec (.joinwRecheck core slot) s = .next t ∧ t.mem = s.mem ∧
      (leNat (s.mem.read pa 4) = 0 → (t.core core).l1 = [] ∧ t.wave? core slot = some { w with stat := .switch }) ∧
      (leNat (s.mem.read pa 4) ≠ 0 → t.wave? core slot = some w))

/-- R131, R133, R139, R141, R145, R153: the steps of runs and paths: the implicit switch after 64 instructions; one merge of
two ready paths, or one reconvergence whose live lanes all wait, with the fewest lanes first; the return of a spilled path; promotion by age; the
release after YIELD.
Readings of the model in it: log entry 88. -/
def Obligations.PathSteps : Prop :=
  (∀ core slot s w, s.wave? core slot = some w → w.stat = .run → 64 ≤ w.count →
    exec (.implicitSwitch core slot) s = .next (s.settle { w with stat := .switch })) ∧
  (∀ core slot s w, s.wave? core slot = some w → s.mayRun w = true → (∀ q ∈ w.paths, q.spill = none) →
    let pair (p q : Path) : Prop := p ∈ w.paths ∧ q ∈ w.paths ∧ p.ready = true ∧ q.ready = true ∧ p.made < q.made ∧
      p.pc = q.pc ∧ p.join = q.join
    let due (r : Path) : Prop := r ∈ w.paths ∧ r.reconv = true ∧ r.mask &&& w.live ≠ 0 ∧
      ∀ l < 32, (r.mask &&& w.live).getLsbD l = true → ∃ q ∈ w.paths, q.waiting = true ∧ q.join = r.pc ∧
        q.mask.getLsbD l = true
    ((∃ p q, pair p q) → ∃ w' p q, exec (.reconvergence core slot) s = .next (s.setWave w') ∧ pair p q ∧
      w' = { w with cur := w'.cur, made := w'.made, paths := (w.paths.filter fun x => x.made != q.made).map fun x =>
        if x.made = p.made then { x with mask := x.mask ||| q.mask } else x }) ∧
    ((¬ ∃ p q, pair p q) → (∃ r, due r) → ∃ w' r, exec (.reconvergence core slot) s = .next (s.setWave w') ∧ due r ∧
      (∀ x, due x → (lanesOf r.mask).length ≤ (lanesOf x.mask).length) ∧
      w' = { w with
        paths := (w.paths.map fun q =>
          if q.made = r.made then { q with reconv := false }
          else if (q.waiting && q.join == r.pc) = true then
            { q with
              mask := q.mask &&& ~~~r.mask }
          else q).filter fun q => q.mask != 0 }) ∧
    ((¬ ∃ p q, pair p q) → (¬ ∃ r, due r) → exec (.reconvergence core slot) s = .next s)) ∧
  (∀ core slot s w p, s.wave? core slot = some w → s.mayRun w = true → (w.paths.map fun q => q.made).Nodup →
    (∀ q ∈ w.paths, q.spill = none → q.ready = false) → p ∈ w.paths → p.ready = true →
    (∀ q ∈ w.paths, q.ready = true → q ≠ p → ∃ a b, q.spill = some a ∧ p.spill = some b ∧ a < b) → p.spill ≠ none →
    (w.paths.filter fun q => q.spill.isNone).length < 8 →
    let w' : Wave :=
      { w with
        paths := w.paths.map (fun q => if q.made = p.made then { q with spill := none } else q) }
    exec (.pathRestore core slot) s = .next ((s.setWave w').storeSpills w')) ∧
  (∀ core slot s w, s.wave? core slot = some w → s.readyWave w = true → w.promoted = none → s.threshold w ≤ w.age →
    exec (.ageingPromotion core slot) s = .next (s.setWave { w with promoted := some s.clock })) ∧
  (∀ core slot s w t offer, s.wave? core slot = some w → w.stat = .yielded t offer → (t ≤ s.clock ∨ offer = []) →
    exec (.yieldRelease core slot) s = .next (s.setWave { w with stat := .switch }))

end

/-! ## Special registers and traps -/

namespace Sys2Proof.Claims

open Sys2Proof.Machine

/-- The special registers of a lane of a launched wave (Tables 3-6, 18-6). -/
def special (s : State) (w : Wave) (p : Path) (g : Group) (r : LRec) (l : Nat) (idx : Nat) : DWord :=
  let m := w.lanesOfPath p
  BitVec.ofNat 64 (match idx with
    | 0 => l
    | 1 => l / 4
    | 2 => w.idx % 2 ^ 32
    | 3 => g.index % r.gx % 2 ^ 32
    | 4 => g.index / r.gx % r.gy % 2 ^ 32
    | 5 => g.index / (r.gx * r.gy) % 2 ^ 32
    | 6 => g.gang % 2 ^ 32
    | 7 => w.core % 2 ^ 32
    | 8 => clusterOf w.core % 2 ^ 32
    | 9 => s.clock
    | 10 => w.fpcr.toNat
    | 11 => w.fpsr.toNat % 64 + w.astat.toNat % 1024 * 1024
    | 12 => m.toNat
    | 13 => g.asid % 65536
    | 14 => g.lid % 2 ^ 32
    | 15 => (lanesOf (m &&& ~~~w.helper)).length
    | 16 => w.astat.toNat
    | _ => match s.ctx? g.asid with
      | some x => x.feat.toNat
      | none => 0x1FF)

/-- A wave takes a trap: once its results have landed it parks, and a message with the record of Table 17-3 goes to its
service core; until then it waits for them. No register changes (R43, R395). -/
def TakesTrap (s t : State) (w : Wave) (p : Path) (cause : Cause) (x y : Word) (kind : Nat) (dst : Reg) : Prop :=
  let lanes := w.lanesOfPath p
  if w.pend = [] then
    let seq := (Tab.get 0 (s.core w.core).trapSeq w.slot + 1) % 65536
    let word : Nat → Nat → List Byte := bytesLE
    ∃ n k, t.waves = (s.setWave { w with
        stat := .trapped ⟨kind, cause, BitVec.ofNat 16 seq, dst, lanes, p.pc⟩, prev := .run }).waves ∧
      t.net = s.net ++ [{
        id := n, dest := svcOf w.core, src := w.core, slot := w.slot, asid := s.asidOf w, cls := 0, seq := k, needs := []
        body := .mail kind w.core w.slot (s.asidOf w) (word 2 cause.toNat ++ word 1 w.slot ++ word 1 (w.gslot % 32) ++
          word 4 (lanes &&& ~~~w.helper).toNat ++ word 8 p.pc.toNat ++ word 4 w.word.toNat ++ word 4 x.toNat ++
          word 4 y.toNat ++ word 1 w.core ++ word 1 w.slot ++ word 2 seq) }] ∧
      t.mem = s.mem ∧ t.groups = s.groups ∧ t.ctxs = s.ctxs
  else t = s.setWave { w with
    stat := .trapping { cause := cause, x := x, y := y, kind := kind, dst := dst } lanes p.pc }

end Sys2Proof.Claims

section

open Sys2Proof Sys2Proof.Machine Sys2Proof.Claims

/-- R81, R82, R85, R86, R92: RDSR gives each acting lane the special register; WRSR writes %fpcr, %fpsr, %astat, or %asid on a
service core, and sets CHANGED. On a service core some values of RDSR are free.
Readings of the model in it: log entries 4 and 35. -/
def Obligations.SpecialRegisters : Prop :=
  (∀ c d (idx : BitVec 12) s w p g x, idx.toNat < 18 → Plain s c.s w p →
    Clear w (laneUse c.p [] [(d, if idx = 9 then 2 else 1)] [] []) →
    s.groupOf w = some g → g.hgd = none → s.launch? g.lid = some x →
    ∃ t, exec (.rdsr c d idx) s = .next t ∧
      Posts { s with freeCtr := s.freeCtr + 1 } t w c.s
        (((lanesOf (w.acting c.p p)).map fun l =>
          let v := special s w p g x.recd l idx.toNat
          (Dst.g d l, Src.val (v.setWidth 32)) ::
            if idx = 9 then [(.g (d + 1) l, .val (v.extractLsb' 32 32))] else []).flatten) 0) ∧
  (∀ c d (idx : BitVec 12) s w p, idx.toNat < 18 → Plain s c.s w p →
    Clear w (laneUse c.p [] [(d, if idx = 9 then 2 else 1)] [] []) →
    ∃ t vs, exec (.rdsr c d idx) s = .next t ∧ Posts { s with freeCtr := s.freeCtr + 1 } t w c.s vs 0 ∧
      vs.map (fun x => x.1) = ((lanesOf (w.acting c.p p)).map fun l =>
        Dst.g d l :: if idx = 9 then [.g (d + 1) l] else []).flatten) ∧
  (∀ c d s w p l, Plain s c.s w p → Clear w (waveUse w c.p [(d, 1)] [] [] [] [] []) →
    w.actsIn c.p (w.lanesOfPath p) = some l →
    let v := w.readG d l
    (∃ t, exec (.wrsr c d 10) s = .next t ∧ Becomes s t (({ w with fpcr := v &&& 0x3F07 } : Wave).gone c.s true)) ∧
    (∃ t, exec (.wrsr c d 11) s = .next t ∧ Becomes s t (({ w with fpsr := v &&& 0x3F } : Wave).gone c.s true)) ∧
    (∃ t, exec (.wrsr c d 16) s = .next t ∧ Becomes s t (({ w with astat := v &&& 0xFFFF03FF } : Wave).gone c.s true)) ∧
    (isService w.core = true → ∃ t, exec (.wrsr c d 13) s = .next t ∧
      Becomes (s.modCore w.core fun k => { k with asid := v.toNat % 65536 }) t (w.gone c.s true)) ∧
    (isService w.core = false → exec (.wrsr c d 13) s = .next (s.trapBy w p 0x004))) ∧
  (∀ c d idx s w p, Plain s c.s w p → Clear w (waveUse w c.p [(d, 1)] [] [] [] [] []) →
    actsOnce w c.p p = false → ∃ t, exec (.wrsr c d idx) s = .next t ∧ Becomes s t (w.gone c.s false))

/-- R43, R136, R148, R193, R395 to R397: traps taken at issue: TRAP, BKPT, SVCALL, the decode traps, HAZARD, the misuse of
barriers, misaligned addresses, addresses outside group-local memory, blocking in a handler, and misaligned targets. A lane
whose guard is pending counts as acting for HAZARD.
Readings of the model in it: log entries 11 and 30. -/
def Sys2Proof.Claims.IssueTraps : Prop :=
  (∀ c (code : BitVec 12) s w p, Plain s c.s w p → Clear w (noUse w c.p) → actsOnce w c.p p = true →
    (∃ t, exec (.trap c code) s = .next t ∧
      TakesTrap s t w p (BitVec.ofNat 10 (0x3F0 + code.toNat % 16)) (code.setWidth 32) 0 0 0) ∧
    ∃ t, exec (.bkpt c code) s = .next t ∧ TakesTrap s t w p 0x020 (code.setWidth 32) 0 0 0) ∧
  (∀ c d a b s w p l, Plain s c.s w p → Clear w (waveUse w c.p [(a, 1), (b, 1)] [(d, 1)] [] [] [] []) →
    w.actsIn c.p (w.lanesOfPath p) = some l →
    ∃ t, exec (.svcall c d a b) s = .next t ∧
      if w.kind = .handler then TakesTrap s t w p 0x300 0 0 0 0
      else if isService w.core = true then TakesTrap s t w p 0x019 0 0 0 0
      else TakesTrap s t w p 0 (w.readG a l) (w.readG b l) 2 d) ∧
  (∀ s w p cause x, Plain s false w p → w.bad = some cause → w.word = x →
    ∃ t, exec (.decodeTrap x) s = .next t ∧ TakesTrap s t w p cause 0 0 0 0) ∧
  (∀ c a s w p l, Plain s c.s w p → Clear w (waveUse w c.p [(a, 2)] [] [] [] [] []) →
    w.actsIn c.p (w.lanesOfPath p) = some l →
    (w.kind = .handler → ∃ t, exec (.joinw c a) s = .next t ∧ TakesTrap s t w p 0x300 0 0 0 0) ∧
    (w.kind ≠ .handler → (w.readG2 a l).toNat % 4 ≠ 0 →
      ∃ t, exec (.joinw c a) s = .next t ∧ TakesTrap s t w p 0x140 0 0 0 0)) ∧
  (∀ c n s w p g, Plain s c.s w p → Clear w (noUse w c.p) → actsOnce w c.p p = true → s.groupOf w = some g →
    ∀ e ∈ [(Instr.barSync c n, true, true, false), (.barArrive c n, false, true, false), (.barWait c n, true, false, true),
      (.barxWait c n, true, false, false)],
      let cause : Cause :=
        if e.2.1 = true ∧ w.kind = .handler then 0x300
        else if g.bars ≤ n.toNat then 0x013
        else if (match w.kind with
          | .task _ _ => true
          | _ => false) = true ∨ (e.2.2.1 = true ∧ w.slot ∈ (Tab.get {} g.barriers n.toNat).arrivals) ∨
          (e.2.2.2 = true ∧ Tab.get 0 w.arrived n.toNat = 0) then 0x014
        else if w.live &&& ~~~p.mask ≠ 0 then 0x015
        else 0
      cause ≠ 0 → ∃ t, exec e.1 s = .next t ∧ TakesTrap s t w p cause 0 0 0 0) ∧
  (∀ c d a (sz : Size) off s w p l, Plain s c.s w p → l ∈ lanesOf (w.acting c.p p) → w.helper.getLsbD l = false →
    (Clear w (laneUse c.p [(a, 2)] [(d, sizeRegs sz)] [] []) → mAddr sz off (w.readG2 a l).toNat % sizeBytes sz ≠ 0 →
      ∃ t, exec (.ldg c d a sz off) s = .next t ∧ TakesTrap s t w p 0x140 0 0 0 0) ∧
    (Clear w (laneUse c.p [(a, 2), (d, sizeRegs sz)] [] [] []) → mAddr sz off (w.readG2 a l).toNat % sizeBytes sz ≠ 0 →
      ∃ t, exec (.stg c d a sz off) s = .next t ∧ TakesTrap s t w p 0x140 0 0 0 0) ∧
    (Clear w (laneUse c.p [(a, 1), (d, sizeRegs sz)] [] [] []) →
      (∀ k ∈ lanesOf (w.acting c.p p), mAddr sz off (w.readG a k).toNat % sizeBytes sz = 0) →
      ¬ fits s w true (sizeBytes sz) (mAddr sz off (w.readG a l).toNat) →
      ∃ t, exec (.stl c d a sz off) s = .next t ∧ TakesTrap s t w p 0x141 0 0 0 0)) ∧
  (∀ c a s w p l, Plain s c.s w p → Clear w (laneUse c.p [(a, 2)] [] [] []) → l ∈ lanesOf (realLanes w c.p p) →
    (w.readG2 a l).toNat % 4 ≠ 0 →
    ∃ t, exec (.brx c a) s = .next t ∧ TakesTrap s t w p 0x012 0 0 0 0) ∧
  (∀ c d a b s w p m, Plain s c.s w p → (∀ e ∈ w.streams, ∀ r ∈ [(a, 1), (b, 1), (d, 1)], covers r e.1 = false) →
    let pending := maskOf fun l => c.p != 7 && (w.lanesOfPath p).getLsbD l && w.haz.any fun d => d == .p c.p l
    w.hazard (laneUse c.p [(a, 1), (b, 1)] [(d, 1)] [] []) (w.acting c.p p ||| pending) = some m →
    ∃ t, exec (.minR c d a b) s = .next t ∧ TakesTrap s t w p 0x010 (match m with
      | .g r _ => r.setWidth 32
      | .p r _ => r.setWidth 32
      | _ => 0) 0 0 0)

end

namespace Sys2Proof.Claims

open Sys2Proof.Machine

/-- A wave parks on an exception, and the message of Table 4-4 goes to the SVC of its cluster; what else waits in `rest`
stays. -/
def SendsException (s t : State) (w : Wave) (e : FpExc) (rest : List FpExc) : Prop :=
  let seq := (Tab.get 0 (s.core w.core).trapSeq w.slot + 1) % 65536
  let word : Nat → Nat → List Byte := bytesLE
  ∃ n tail, t.waves = (s.setWave { w with
      excs := rest, prev := w.stat, stat := .trapped ⟨1, e.cause, BitVec.ofNat 16 seq, 0, e.lanes, e.pc⟩ }).waves ∧
    t.net = s.net ++ [{
      id := n, dest := svcOf w.core, src := w.core, slot := w.slot, asid := s.asidOf w, cls := 0, seq := 0, needs := []
      body := .mail 1 w.core w.slot (s.asidOf w) (word 2 e.cause.toNat ++ word 1 w.slot ++
        word 1 ((if e.lcls then 1 else 0) + if e.more then 2 else 0) ++ word 4 e.lanes.toNat ++ word 8 e.pc.toNat ++ tail) }] ∧
    t.mem = s.mem ∧ t.groups = s.groups ∧ t.ctxs = s.ctxs

/-- The exception of an instruction whose flags `fl` by lanes are enabled: the lowest flag is its cause (R95). -/
def Raises (w : Wave) (act : Lanes) (fl : Nat → Flags) (lcls : Bool) (pc : DWord) (e : FpExc) : Prop :=
  let on := fun f : Flags => f &&& w.fpcr.extractLsb' 8 6
  let all := on (w.raised act fl)
  ∃ k < 6, all.getLsbD k = true ∧ (∀ j < k, all.getLsbD j = false) ∧
    e = { cause := 0x380 + BitVec.ofNat 10 k, lcls := lcls, more := (List.range 6).any fun j => j != k && all.getLsbD j
          lanes := maskOf fun l => act.getLsbD l && !w.helper.getLsbD l && (on (fl l)).getLsbD k, pc := pc }

/-- `i` is A-class and raises an enabled flag: it writes its results and flags, and the wave parks before its next
instruction (R95). -/
def ParksAtOnce (i : Instr) (c : Ctl) (u : Use) (res : Wave → Lanes → Nat → List (Dst × Word) × Flags) : Prop :=
  ∀ s w p, Plain s c.s w p → Clear w u → w.excs = [] →
    let act := w.acting c.p p
    let fl := fun l => (res w act l).2
    let new := laneNew act fun l => (res w act l).1
    enabledFlags w.fpcr (w.raised act fl) ≠ 0 →
    ∃ t w' ch e, exec i s = .next t ∧ Raises w act fl false p.pc e ∧ SendsException s t w' e [] ∧
      (∀ d : Dst, d.isReg = true → w'.readDst d = if d.isNull then w.readDst d else (new d).getD (w.readDst d)) ∧
      w' = { w.gone c.s ch with g := w'.g, w := w'.w, p := w'.p, fpsr := w.fpsr ||| (w.raised act fl).setWidth 32 }

/-- `i` is L-class and raises an enabled flag: its results are outstanding, and the exception waits for the next switch
point (R95). -/
def ParksAtSwitch (i : Instr) (c : Ctl) (u : Use) (res : Wave → Lanes → Nat → List (Dst × Word) × Flags) : Prop :=
  ∀ s w p, Plain s c.s w p → Clear w u →
    let act := w.acting c.p p
    let fl := fun l => (res w act l).2
    enabledFlags w.fpcr (w.raised act fl) ≠ 0 →
    ∃ t e, exec i s = .next t ∧ Raises w act fl true p.pc e ∧
      Becomes s t { (w.queued (s.checkedOf w)
        (((lanesOf act).map fun l => (res w act l).1).flatten.map fun x => (x.1, Src.val x.2))
        (w.raised act fl)).gone c.s false with excs := w.excs ++ [e] }

end Sys2Proof.Claims

section

open Sys2Proof Sys2Proof.Machine Sys2Proof.Claims

/-- R95: a floating-point instruction with an enabled flag completes, and the wave parks with the message of Table 4-4: at
once after an A-class instruction, and at the switch point where its last result lands after an L-class one. -/
def Sys2Proof.Claims.FloatingTraps : Prop :=
  (∀ c d a b, ∀ e ∈ ([
      (.fadd c d a b, fun rm z x y => f32.add rm z x y),
      (.fmul c d a b, fun rm z x y => f32.mul rm z x y)] : List (Instr × (Rm → Bool → FNum → FNum → Nat × Flags))),
    ParksAtOnce e.1 c (laneUse c.p [(a, 1), (b, 1)] [(d, 1)] [] []) fun w _ l =>
      let r := e.2 w.rm w.ftz (w.f32At a l) (w.f32At b l)
      ([(.g d l, BitVec.ofNat 32 r.1)], r.2)) ∧
  (∀ c d a b, ∀ e ∈ ([
      (.dadd c d a b, fun rm x y => f64.add rm false x y),
      (.dmul c d a b, fun rm x y => f64.mul rm false x y)] : List (Instr × (Rm → FNum → FNum → Nat × Flags))),
    ParksAtSwitch e.1 c (laneUse c.p [(a, 2), (b, 2)] [(d, 2)] [] [])
      fun w _ l => toPair d l (e.2 w.rm (w.f64At a l) (w.f64At b l))) ∧
  (∀ core slot s w d v path word e rest, s.wave? core slot = some w → w.stat = .switch → w.excs = e :: rest →
    w.pend = [⟨d, .val v, path, word⟩] → (d.isReg = true ∨ d = .fpsr) →
    ∃ t w', exec (.lClassResultWrite core slot 0) s = .next t ∧ SendsException s t w' e rest ∧
      w' = { w with pend := [], g := w'.g, w := w'.w, p := w'.p, fpsr := w'.fpsr, paths := w'.paths })

end

/-! ## Service cores, caches and copies -/

namespace Sys2Proof.Claims

open Sys2Proof.Machine

/-- The registers that HALT writes from a mailbox entry (R394). -/
def mailWords (m : Mail) : List (Dst × Src) :=
  [(.w 16, .val (BitVec.ofNat 32 (m.kind + 256 * m.core + 65536 * (m.slot % 128)))),
   (.w 17, .val (BitVec.ofNat 32 (m.asid % 65536)))] ++
  (List.range 8).map fun k => (.w (24 + BitVec.ofNat 6 k), .val (BitVec.ofNat 32 (leNat ((m.body.drop (4 * k)).take 4))))

/-- The mask of HALT takes an entry. -/
def takes (mask : Nat) (m : Mail) : Prop := mask = 0 ∨ mask.testBit m.kind = true

/-- The TLB entry of 128 bits of Table 11-1. -/
def tlbOf (e : Nat) : TlbE :=
  { r := e.testBit 1, w := e.testBit 2, x := e.testBit 3, a := e.testBit 4, d := e.testBit 5, g := e.testBit 6
    mig := e.testBit 7, watch := e.testBit 8, lock := e.testBit 9, size := e / 1024 % 4, cache := e / 4096 % 4
    asid := e / 65536 % 65536, vpn := e / 2 ^ 32 % 2 ^ 45, pfn := e / 2 ^ 80 % 2 ^ 34 }

/-- Two entries translate the same page of one context. -/
def samePage (x y : TlbE) : Prop := x.asid = y.asid ∧ x.size = y.size ∧ x.vpn = y.vpn

/-- The entry as a TLB takes it: a LOCK entry leaves only by TLBI, and so what takes its place is one (R253; log entry 95). -/
def asInstalled (tlb : List TlbE) (x : TlbE) : TlbE :=
  if (tlb.any fun y => y.lock && y.asid == x.asid && y.size == x.size && y.vpn == x.vpn) = true then { x with lock := true }
  else x

/-- Where the value of a service call goes in a lane (R397): to its register, or as a push to the element of a write stream
bound there, at the step of the SVCALL; a helper lane does not push (R127). -/
def valueDst (x : Wave) (m : Waiting) (grp k : Nat) : Option Dst :=
  match (if 60 ≤ m.dst.toNat then assoc x.streams (m.dst.toNat - 60) else none) with
  | some y =>
    if y.push then
      if x.helper.getLsbD k then none
      else some (.push (y.base + BitVec.ofNat 64 k * y.lstride.signExtend 64 +
        BitVec.ofNat 64 (y.pos - 1) * y.estride.signExtend 64) y.size k grp m.pc)
    else some (.g m.dst k)
  | none => some (.g m.dst k)

end Sys2Proof.Claims

section

open Sys2Proof Sys2Proof.Machine Sys2Proof.Claims

/-- R398, R408: ERET: the wave that a token names goes on. RETRY issues the instruction again, NEXT goes past it, VALUE gives a
service call its value in the lanes that still live (or pushes it to a write stream), and each resumes after 16 cycles and 4 for each hop; after an
exception the wave goes on where it parked; TERMINATE stops its context with a cause. A token or an action that is not
allowed traps SYS_ARG, and an ERET that no wave waits for is discarded.
Readings of the model in it: log entry 66. -/
def Obligations.TrapReturn : Prop :=
  ∀ c d a b s w p l, Plain s c.s w p → Clear w (waveUse w c.p [(d, 1), (a, 1), (b, 1)] [] [] [] [] []) →
    w.actsIn c.p (w.lanesOfPath p) = some l → isService w.core = true →
    let tok := (w.readG a l).toNat
    let core := tok % 256
    let slot := tok / 256 % 128
    let action := (w.readG b l).toNat
    let value := w.readG d l
    let reach := core = w.core ∨ (core < 160 ∧ w.core < 240 ∧ core / 2 + 160 = w.core)
    let time := s.clock + 16 + 4 * hops (clusterOf w.core) (clusterOf core)
    (tok / 32768 % 2 = 1 ∨ ¬ reach ∨ 4 < action → exec (.eret c d a b) s = .next (s.trapBy w p 0x019)) ∧
    (tok / 32768 % 2 = 0 → reach → action ≤ 4 → (∀ x ∈ s.waves, x.waitsOn core slot (tok / 65536) = none) →
      (∀ v ∈ s.saved, ∀ x ∈ v.waves, x.waitsOn core slot (tok / 65536) = none) →
      ∃ t, exec (.eret c d a b) s = .next t ∧ Becomes s t (w.gone c.s false)) ∧
    (∀ x m, tok / 32768 % 2 = 0 → reach → s.wave? core slot = some x → x.stat = .trapped m →
      m.seq.toNat = tok / 65536 → isService core = true ∨ s.dying (s.asidOf x) = false →
      (∀ r ∈ s.recsOf x, r.frozen = false ∨ r.told = true) →
      ((if m.kind = 2 then action < 2 else action = 2) → exec (.eret c d a b) s = .next (s.trapBy w p 0x019)) ∧
      ((if m.kind = 2 then action = 2 else action < 2) → (m.kind = 1 → x.excs = []) →
        ∃ t s' grp, exec (.eret c d a b) s = .next t ∧ Becomes s s' (w.gone c.s false) ∧
          t = s'.setWave (
            if m.kind = 1 then
              { x with
                stat := if x.prev = .run ∨ x.prev = .switch ∨ x.prev = .stall then .resume time else x.prev
                prev := .run }
            else if action = 0 then { x with stat := .resume time }
            else { x with
              stat := .resume time
              paths := x.paths.map fun q => if q.made = x.cur then { q with pc := q.pc + 4 } else q
              pend := x.pend ++ if action = 2 ∧ m.dst ≠ 0 then
                ((lanesOf (m.lanes &&& x.live)).filterMap fun k => valueDst x m grp k).map fun d =>
                  ⟨d, .val value, x.cur, x.word⟩ else [] })) ∧
      (∀ y, action = 3 → s.ctx? (s.asidOf x) = some y → y.killed = none → ∃ t s', exec (.eret c d a b) s = .next t ∧ Becomes s s' (w.gone c.s false) ∧
        t = s'.setCtx { y with
          killed := some (if value.toNat % 1024 = 0 then 0x3C1 else BitVec.ofNat 10 value.toNat) }))

/-- R41, R260 to R262, R394: the privileged instructions of a service core: HALT takes the first entry of the lowest kind
that its mask allows, or waits; TLBW installs an entry for its cluster, and lets a fault record be replayed; TLBI asks each
translation cache of its cluster or of all for removals; TLBSYNC goes on when the removals have been made and their records answered.
Readings of the model in it: log entries 17, 59 and 83. -/
def Obligations.ServiceCores : Prop :=
  (∀ c a s w p l mask, Plain s c.s w p → Clear w (waveUse w c.p [(a, 1)] [] [] [(16, 2), (24, 8)] [] []) →
    w.actsIn c.p (w.lanesOfPath p) = some l → isService w.core = true → (w.readG a l).toNat = mask → mask < 32 →
    ((∀ m ∈ (s.core w.core).mail, m.kind < 5 ∧ ¬ takes mask m) →
      exec (.halt c a) s = .next (s.setWave { w with stat := .halt (BitVec.ofNat 5 mask) })) ∧
    (∀ m pre post, (s.core w.core).mail = pre ++ m :: post → m.kind < 5 → takes mask m →
      (∀ x ∈ pre, takes mask x → m.kind < x.kind) → (∀ x ∈ post, takes mask x → m.kind ≤ x.kind) →
      ∃ t, exec (.halt c a) s = .next t ∧
        Posts (s.modCore w.core fun k => { k with
            mail := pre ++ post ++ k.mailWait.take (64 - (pre ++ post).length)
            mailWait := k.mailWait.drop (64 - (pre ++ post).length) })
          t w c.s (mailWords m) 0)) ∧
  (∀ c a b s w p l, Plain s c.s w p → Clear w (waveUse w c.p [(a, 4), (b, 1)] [] [] [] [] []) →
    w.actsIn c.p (w.lanesOfPath p) = some l → isService w.core = true →
    let e := (w.readG a l).toNat + 2 ^ 32 * (w.readG (a + 1) l).toNat + 2 ^ 64 * (w.readG (a + 2) l).toNat +
      2 ^ 96 * (w.readG (a + 3) l).toNat
    let t := (w.readG b l).toNat
    let x := tlbOf e
    let cl := clusterOf w.core
    let room := ((s.cluster cl).tlb.filter fun y => y.lock && y.set == x.set).length < 8
    let x' := asInstalled (s.cluster cl).tlb x
    s.tlbwBad w.core e t = false → x.watch = false →
    (t < 2 ^ 31 → e % 2 = 1 → room → ∃ u, exec (.tlbw c a b) s = .next u ∧ u.wave? w.core w.slot = some (w.gone c.s false) ∧
      x' ∈ (u.cluster cl).tlb ∧ (∀ y ∈ (u.cluster cl).tlb, samePage x y → y = x') ∧ u.mem = s.mem) ∧
    (∀ r, 2 ^ 31 ≤ t → t / 2 ^ 29 % 4 = 0 → s.rec? (2 * cl + t % 2) (t / 256 % 4) (t / 2 % 128) = some r →
      r.frozen = false → r.ready = false → r.fail = none → r.missing = false → r.tlbis = [] →
      ∃ u r', exec (.tlbw c a b) s = .next u ∧ u.wave? w.core w.slot = some (w.gone c.s false) ∧
        u.rec? (2 * cl + t % 2) (t / 256 % 4) (t / 2 % 128) = some r' ∧ r' = { r with ready := true } ∧
        (e % 2 = 1 → room → x' ∈ (u.cluster cl).tlb))) ∧
  (∀ c a b s w p l, Plain s c.s w p → Clear w (waveUse w c.p [(a, 2), (b, 1)] [] [] [] [] []) →
    w.actsIn c.p (w.lanesOfPath p) = some l → isService w.core = true →
    let va := w.readG2 a l
    let t := (w.readG b l).toNat
    let kind := t / 65536 % 4
    t < 2 ^ 19 → (kind % 2 = 0 → canonical va = true) →
    ∃ u, exec (.tlbi c a b) s = .next u ∧ Becomes { s with
        tlbis := s.tlbis ++ ((if t / 2 ^ 18 % 2 = 1 then List.range 80 else [clusterOf w.core]).map fun k =>
          (List.range 10).map fun unit_ =>
            { id := s.nextId, by_ := w.core, cluster := k, unit_ := unit_, asid := t % 65536, kind := kind, va := va }).flatten }
      u (w.gone c.s false)) ∧
  (∀ c s w p, Plain s c.s w p → Clear w (noUse w c.p) → actsOnce w c.p p = true → isService w.core = true →
    (∀ x ∈ s.tlbis, x.by_ = w.core → x.acted = true) →
    (∀ e ∈ s.cores, s.syncTodos (s.tlbis.filter fun x => x.by_ == w.core) e.1 = []) →
    ∃ u, exec (.tlbsync c) s = .next u ∧
      if s.syncRecs w.core = [] then
        Becomes { s with tlbis := s.tlbis.filter (fun x => x.by_ != w.core) } u (w.gone c.s false)
      else u = s.setWave { w with stat := .tlbsync (s.syncRecs w.core) }) ∧
  (∀ c d a b s w p, Plain s c.s w p → isService w.core = false →
    Clear w (waveUse w c.p [(d, 1), (a, 4), (b, 1)] [] [] [(16, 2), (24, 8)] [] []) → actsOnce w c.p p = true →
    ∀ i ∈ [Instr.eret c d a b, .halt c a, .tlbw c a b, .tlbi c a b, .tlbsync c],
      exec i s = .next (s.trapBy w p 0x004))

/-- R186, R197, R198: CACHE: l1inv takes the line of an address out of the L1, l1all every line; wb and wbinv stand in the
store queue for the line; lock and unlock give and take a way of the context, whose window bytes become zero.
Readings of the model in it: log entry 28. -/
def Obligations.CacheOperations : Prop :=
  (∀ c a s w p l pa how, Plain s c.s w p → Clear w (waveUse w c.p [(a, 2)] [] [] [] [] []) → Idle s w →
    w.actsIn c.p (w.lanesOfPath p) = some l → Translates s w {} (w.readG2 a l) pa how → inDev pa = true →
    (∃ t s', exec (.cacheL1inv c a) s = .next t ∧ Becomes s s' (w.gone c.s false) ∧
      SameButTlb (s'.modCore w.core fun k => { k with l1 := k.l1.filter fun e => e.1 != pa / 32 }) t) ∧
    ∀ e ∈ ([(.cacheWb c a, false), (.cacheWbinv c a, true)] : List (Instr × Bool)),
      let es := entriesOf s w p [] [] (fun _ => (pa, how)) [(l, w.readG2 a l, .cache e.2)]
      apart w es → ∃ t s', exec e.1 s = .next t ∧ Becomes s s' (w.gone c.s false) ∧
        SameButTlb (withEntries s' w es fun l1 => l1) t) ∧
  (∀ c s w p, Plain s c.s w p → Clear w (noUse w c.p) →
    ∃ t, exec (.cacheL1all c) s = .next t ∧
      Becomes (if actsOnce w c.p p then s.modCore w.core fun k => { k with l1 := [] } else s) t (w.gone c.s false)) ∧
  (∀ c a s w p l, Plain s c.s w p → Clear w (waveUse w c.p [(a, 1)] [] [] [] [] []) →
    w.actsIn c.p (w.lanesOfPath p) = some l →
    let x := (w.readG a l).toNat
    let way := 8 * (x % 128) + x / 256 % 8
    let base := 0x3F0000000000 + 0x20000 * way
    if x / 2048 ≠ 0 ∨ x / 128 % 2 ≠ 0 ∨ 79 < x % 128 ∨ Tab.get 0 s.ways way ≠ s.asidOf w + 1 then
      ∀ i ∈ [Instr.cacheLock c a, .cacheUnlock c a], exec i s = .next (s.trapBy w p 0x142)
    else Tab.wf 0 s.locks = true →
      (∃ t, exec (.cacheLock c a) s = .next t ∧ t.wave? w.core w.slot = some (w.gone c.s false) ∧
        Tab.get 0 t.locks way = s.asidOf w + 1 ∧
        (Tab.get 0 s.locks way ≠ s.asidOf w + 1 → ∀ k < 0x20000, Tab.get 0 t.mem (base + k) = 0)) ∧
      ∃ t, exec (.cacheUnlock c a) s = .next t ∧ t.wave? w.core w.slot = some (w.gone c.s false) ∧
        Tab.get 0 t.locks way = 0 ∧ (Tab.get 0 s.locks way ≠ 0 → ∀ k < 0x20000, Tab.get 0 t.mem (base + k) = 0)) ∧
  (∀ c a s w p, Plain s c.s w p → Clear w (waveUse w c.p [(a, 2)] [] [] [] [] []) → actsOnce w c.p p = false →
    ∀ i ∈ [Instr.cacheL1inv c a, .cacheWb c a, .cacheWbinv c a],
      ∃ t, exec i s = .next t ∧ Becomes s t (w.gone c.s false))

/-- R143, R249, R263: a fetch from a page without a translation: the wave waits, and a fault record holds the fetch of the
lanes of the path, with a message to the service core.
Readings of the model in it: log entries 17 and 32. -/
def Obligations.FetchFaults : Prop :=
  ∀ s w p, Plain s false w p → w.lanesOfPath p ≠ 0 → canonical p.pc = true → s.pageHeld w p.pc = false →
    (isService w.core && p.pc.msb) = false →
    (∀ e ∈ (s.cluster (clusterOf w.core)).tlb, e.hits (s.asidOf w) p.pc = false) →
    (∀ e ∈ (s.core w.core).tlb, e.2.hits (s.asidOf w) p.pc = false) →
    ∀ idx, s.freeRec w.core 0 = some idx →
    ∃ t r m, exec (.instructionFetchFault p.pc) s = .next t ∧
      t.wave? w.core w.slot = some { w with stat := .stall } ∧
      (t.core (recHome w.core)).recs = (s.core (recHome w.core)).recs ++ [r] ∧
      r.src = 0 ∧ r.idx = idx ∧ r.core = w.core ∧ r.slot = w.slot ∧ r.kind = 0 ∧ r.access = 3 ∧ r.frozen = false ∧
      accLanes r.accs = w.lanesOfPath p ∧ (∀ x ∈ r.accs, x.va = p.pc ∧ x.kind = .fetch) ∧
      t.net = s.net ++ [m] ∧ m.dest = 160 + clusterOf w.core ∧
      ∃ body, m.body = .mail 3 w.core w.slot (s.asidOf w) body ∧ leNat (body.take 8) = p.pc.toNat

end

/-! ## Copies, matrices and other commands of engines -/

namespace Sys2Proof.Claims

open Sys2Proof.Machine

/-- An X form of a wave meets nothing in its way: its path holds a lane that is no helper lane, and no register that it names
is pending (R29, R136). -/
def XReady (s : State) (sw : Bool) (w : Wave) (p : Path) (srcs dsts : List (Reg × Nat)) : Prop :=
  Plain s sw w p ∧ w.lanesOfPath p &&& ~~~w.helper ≠ 0 ∧
    ∀ m, w.hazard { reads := fun _ => wRegs srcs, writes := fun _ => wRegs dsts } m = none

/-- The wave after an X form: its results are outstanding, and it has set CHANGED (R23, R150). -/
def sentWave (s : State) (w : Wave) (sw : Bool) (rs : List (Dst × Src)) : Wave :=
  (Machine.Wave.queued w (s.checkedOf w) rs 0).gone sw true

/-- An engine at a core, of a context, reaches a virtual address: the entries of the cluster L2 TLB and of the caches of its
cores give it one place (R251). -/
def EngineReaches (s : State) (core asid : Nat) (n : Need) (va : DWord) (pa how : Nat) : Prop :=
  canonical va = true ∧ ((s.cluster (clusterOf core)).tlb.any fun e => e.hits asid va) = true ∧
    ∀ e ∈ (s.cluster (clusterOf core)).tlb ++ (s.core core).tlb.map (fun x => x.2) ++
        (s.core (2 * clusterOf core)).tlb.map (fun x => x.2),
      e.hits asid va = true → s.crossPart core (e.give n va) = .ok pa how

/-- A field of a copy register. -/
def cdField (v : DWord) (i n : Nat) : Nat := v.toNat / 2 ^ i % 2 ^ n

/-- The copy that a COPY command latches: its register set, and its size in bytes (Table 8-6, R203). -/
def latched (s : State) (w : Wave) (p : Path) (fn : Nat) (ctl : Word) : Copy :=
  let cd (k : Nat) : DWord := Tab.get 0 w.cd ((if ctl.getLsbD 8 then 8 else 0) + k)
  let ext (d : Nat) : Nat := if d ≤ cdField (cd 7) 4 2 then cdField (cd 2) (16 * d) 16 else 1
  { id := s.nextId, fn := fn, ctl := BitVec.ofNat 8 ctl.toNat, gslot := w.gslot, slot := w.slot, asid := s.asidOf w
    cd := (List.range 7).map cd, geo := BitVec.ofNat 8 (cd 7).toNat
    bytes := 2 ^ cdField (cd 7) 0 3 * (ext 0 * ext 1 * ext 2 * ext 3), pc := p.pc, lid := s.lidOf w, needs := s.ownGrps w }

/-- The COPY command of a number. -/
noncomputable def copyInstr (fn : Nat) (sw : Bool) (d b : Reg) : Instr :=
  match fn with
  | 0 => .cpLd sw d b
  | 1 => .cpSt sw d b
  | 2 => .cpLdz sw d b
  | 3 => .cpFill sw d b
  | 4 => .cpCpy sw d b
  | 5 => .cpSlw sw d b
  | 8 => .cpGather sw d b
  | _ => .cpScatter sw d b

/-- Element j of four dimensions, dimension 0 fastest, and its displacement for three steps (R204). -/
def displacement (size : Nat) (e0 e1 e2 : Nat) (s1 s2 s3 : Int) (j : Nat) : Int :=
  size * ((j % e0 : Nat) + (j / e0 % e1 : Nat) * s1 + (j / (e0 * e1) % e2 : Nat) * s2 + (j / (e0 * e1 * e2) : Nat) * s3)

/-- A half of a copy register, as a signed number. -/
def signedHalf (v : DWord) (i : Nat) : Int := (BitVec.ofNat 32 (v.toNat / 2 ^ (32 * i))).toInt

end Sys2Proof.Claims

section

open Sys2Proof Sys2Proof.Machine Sys2Proof.Claims

/-- R201 to R209: a COPY command that no condition of R205 forbids latches its registers, replies with its bytes, and stands
among the copies of its core; one that is forbidden traps COPY_GEOMETRY; CP.STATUS counts the copies in flight of a
direction; an element of CP.LD is read and written at its strides, in accesses of up to 8 bytes each of which is a step of
its own; a copy that has moved every element leaves, and subtracts its bytes from its barrier.
Readings of the model in it: log entries 36, 37 and 38. -/
def Obligations.Copies : Prop :=
  (∀ fn ∈ [0, 1, 2, 3, 4, 5, 8, 9], ∀ sw d b s w p, XReady s sw w p [(b, 1)] [(d, 1)] →
    let ctl := w.readW b
    let x := latched s w p fn ctl
    let set := Tab.get 0 w.cd ((if ctl.getLsbD 8 then 8 else 0) + 7)
    if x.bad ctl (s.groupBars w) (s.localLimit w) = true ∨ 256 ≤ set.toNat then
      ∃ t, exec (copyInstr fn sw d b) s = .next t ∧
        t = { s with nextId := s.nextId + 1 }.trapBy w p 0x143
    else (s.core w.core).copies.length < 128 →
      ∃ t, exec (copyInstr fn sw d b) s = .next t ∧
        Becomes (if x.bytes = 0 then s else s.modCore w.core fun c => { c with copies := c.copies ++ [x] }) t
          (sentWave s w sw [(.w d, .val (BitVec.ofNat 32 x.bytes))])) ∧
  (∀ sw d b s w p, XReady s sw w p [(b, 1)] [(d, 1)] →
    ((w.readW b).toNat < 2 → ∃ t, exec (.cpStatus sw d b) s = .next t ∧ Becomes s t (sentWave s w sw
      [(.w d, .val (BitVec.ofNat 32 ((s.core w.core).copies.filter fun x =>
        x.toLocal != (w.readW b == 1)).length))])) ∧
    (2 ≤ (w.readW b).toNat → exec (.cpStatus sw d b) s = .next (s.trapBy w p 0x143))) ∧
  (∀ s dt rest core k j x pa how g, s.agenda = ⟨dt, .element core k j⟩ :: rest → s.stopped = false →
    (s.core core).copies[k]? = some x → x.fn = 0 → x.held = false → x.needs = [] → x.cd.length = 7 →
    x.next ≤ j → j ∉ x.moved → isService core = false →
    let n := 2 ^ (x.geo.toNat % 8)
    let cd (i : Nat) : DWord := x.cd.getD i 0
    let ext (i : Nat) : Nat := if i ≤ x.geo.toNat / 16 % 4 then cdField (cd 2) (16 * i) 16 else 1
    let src := (cd 0) + BitVec.ofInt 64
      (displacement n (ext 0) (ext 1) (ext 2) (signedHalf (cd 3) 0) (signedHalf (cd 3) 1) (signedHalf (cd 4) 0) j)
    let off := ((cd 1).toNat : Int) +
      displacement n (ext 0) (ext 1) (ext 2) (signedHalf (cd 4) 1) (signedHalf (cd 5) 0) (signedHalf (cd 5) 1) j
    j < ext 0 * ext 1 * ext 2 * ext 3 → n ≤ 16 → 0 ≤ off → off + n ≤ 2 ^ 18 → x.gslot < 32 → core < 160 →
    s.group? core x.gslot = some g → g.wf = true → s.tabs = true →
    let under := x.parts.find? fun e => e.j == j
    let bs := (under.map fun e => e.bytes).getD []
    let done := (under.map fun e => e.done).getD 0
    let len := min 8 n
    (bs.length < n → EngineReaches s core x.asid { r := true } (src + BitVec.ofNat 64 bs.length) pa how → inDev pa = true →
      ∃ t x', step s = .next t ∧ t.mem = s.mem ∧ t.groups = s.groups ∧ (t.core core).copies[k]? = some x' ∧
        x' = { x with parts := x'.parts } ∧ (∀ e ∈ x.parts, e.j ≠ j → e ∈ x'.parts) ∧
        x'.parts.find? (fun e => e.j == j) =
          some ⟨j, bs ++ (List.range len).map fun i => Tab.get 0 s.mem (pa + i), done⟩) ∧
    (bs.length = n → done + len ≤ n →
      ∃ t g' x', step s = .next t ∧ t.mem = s.mem ∧ t.group? core x.gslot = some g' ∧
        (∀ a, Tab.get 0 g'.loc a = if off.toNat + done ≤ a ∧ a < off.toNat + done + len then bs.getD (a - off.toNat) 0
          else Tab.get 0 g.loc a) ∧
        (t.core core).copies[k]? = some x' ∧
        if done + len = n then (j < x'.next ∨ j ∈ x'.moved) ∧ ∀ e ∈ x'.parts, e.j ≠ j
        else x'.parts.find? (fun e => e.j == j) = some ⟨j, bs, done + len⟩)) ∧
  (∀ s core k x g, (s.core core).copies[k]? = some x → x.held = false → x.total = x.next →
    s.group? core x.gslot = some g → g.wf = true → s.tabs = true →
    let n := x.ctl.toNat % 16
    let now : Int := (Tab.get ({} : Barrier) g.barriers n).bytes - (x.bytes : Int)
    now ≥ -2 ^ 35 →
    ∃ t g', exec (.copyCompletion core k) s = .next t ∧ t.mem = s.mem ∧ t.group? core x.gslot = some g' ∧
      (t.core core).copies = (s.core core).copies.filter (fun y => y.id != x.id) ∧
      (Tab.get {} g'.barriers n).bytes = if x.ctl.getLsbD 4 then now else (Tab.get {} g.barriers n).bytes)

end

namespace Sys2Proof.Claims

open Sys2Proof.Machine

/-- The packet of a MATRIX or DELTA command: the w registers that its operands name, zero for one that it does not have
(R318). -/
def packetOf (s : State) (w : Wave) (p : Path) (fn : Nat) (a b : Option Reg) (pair : Bool) (needs : List Nat) : MPkt :=
  let val (r : Option Reg) : Word := match r with
    | some r => w.readW r
    | none => 0
  { id := s.nextId, fn := fn, core := w.core, gslot := w.gslot, slot := w.slot, asid := s.asidOf w, lid := s.lidOf w
    wa := val a, wa1 := if pair then val (a.map fun r => r + 1) else 0, wb := val b, pc := p.pc, needs := needs }

/-- MATRIX and DELTA commands with their numbers and operands (Tables 14-5 and 15-2). -/
noncomputable def mxInstrs (sw : Bool) (d a b : Reg) : List (Instr × Nat × Option Reg × Option Reg × Bool) :=
  [(.mxCtx sw d, 0x00, none, none, false), (.mxLda sw d a b, 0x01, some a, some b, true),
   (.mxLdb sw d a, 0x02, some a, none, true), (.mxMma sw d a b, 0x03, some a, some b, false),
   (.mxMmaR sw d a b, 0x04, some a, some b, false), (.mxMmas sw d a b, 0x05, some a, some b, false),
   (.mxMmasR sw d a b, 0x06, some a, some b, false), (.mxZero sw d a, 0x08, some a, none, false),
   (.mxStacc sw d a b, 0x09, some a, some b, false), (.mxLdacc sw d a b, 0x0A, some a, some b, false),
   (.mxScale sw d a b, 0x0B, some a, some b, false), (.mxSmax sw d a b, 0x0C, some a, some b, false),
   (.mxSnorm sw d a, 0x0D, some a, none, false), (.mxFence sw d, 0x0E, none, none, false),
   (.mxWait sw d, 0x0F, none, none, false), (.mxRel sw d a, 0x10, some a, none, false),
   (.dlBind sw d a b, 0x80, some a, some b, true), (.dlRun sw d a b, 0x81, some a, some b, true),
   (.dlFull sw d a b, 0x82, some a, some b, true), (.dlInv sw d b, 0x83, none, some b, false),
   (.dlQry sw d a b, 0x84, some a, some b, false), (.dlCfg sw d a b, 0x85, some a, some b, true)]

/-- The registers that operands name. -/
def operandRegs (a b : Option Reg) (pair : Bool) : List (Reg × Nat) :=
  (a.toList.map fun r => (r, if pair then 2 else 1)) ++ b.toList.map fun r => (r, 1)

/-- The next command that the engine of a cluster takes is the head of the inbox of context `k`: no other context has a
command, and nothing holds this one. -/
def MxNext (s : State) (cl k : Nat) (f : FCtx) (m : MPkt) : Prop :=
  s.tabs = true ∧ k < 4 ∧ (s.cluster cl).fctx.length = 4 ∧ s.fctx cl k = f ∧ (∃ rest, f.inbox = m :: rest) ∧ m.held = false ∧ m.done = 0 ∧
    m.needs = [] ∧ (∀ j < 4, j ≠ k → (s.fctx cl j).inbox = []) ∧ f.frozen = none

/-- The number of the owner of a format context (Table 14-1). -/
def ownerOf (m : MPkt) : Option Nat := some (32 * (m.core % 2) + m.gslot)

/-- The value of element (r, n) of tile t of a format context. -/
def tileAt (f : FCtx) (t r n : Nat) : Word := Tab.get 0 f.tiles (1024 * t + 32 * r + n)

end Sys2Proof.Claims

section

open Sys2Proof Sys2Proof.Machine Sys2Proof.Claims

/-- R309 to R311, R318, R349: each MATRIX and DELTA command of a wave of a SIMT core enters the inbox of the wave's format
context, with the values of its operands, and its reply is outstanding; a full inbox puts it off; a service core traps.
DL.DROPALL takes the slots of an ASID away at once. -/
def Sys2Proof.Claims.MatrixCommands : Prop :=
  (∀ sw d a b s w p, ∀ e ∈ mxInstrs sw d a b, XReady s sw w p (operandRegs e.2.2.1 e.2.2.2.1 e.2.2.2.2) [(d, 1)] →
    let cl := clusterOf w.core
    let k := 2 * (w.core % 2) + if w.kind = .handler then 1 else 0
    let m := packetOf s w p e.2.1 e.2.2.1 e.2.2.2.1 e.2.2.2.2 (if e.2.1 = 0x0E then s.groupGrps w else s.ownGrps w)
    (isService w.core = true → exec e.1 s = .next (s.trapBy w p 0x019)) ∧
    (isService w.core = false → (s.fctx cl k).inbox.length < 32 → ∃ t, exec e.1 s = .next t ∧
      Becomes (s.modFctx cl k fun f => { f with inbox := f.inbox ++ [m] }) t
        (sentWave s w sw [(.w d, .reply s.nextId)])) ∧
    (isService w.core = false → 32 ≤ (s.fctx cl k).inbox.length →
      exec e.1 s = .next (s.setWave { w with stat := .stall }))) ∧
  (∀ sw d b s w p, XReady s sw w p [(b, 1)] [(d, 1)] → isService w.core = true → (w.readW b).toNat < 65536 →
    ∃ t, exec (.dlDropall sw d b) s = .next t ∧ (∀ e ∈ t.slots, e.1 / 256 ≠ (w.readW b).toNat) ∧
      (∀ e ∈ s.slots, e.1 / 256 ≠ (w.readW b).toNat → e ∈ t.slots) ∧
      t.wave? w.core w.slot = some (sentWave s w sw [(.w d, .val 0)]))

/-- R310, R311, R317, R320, R323, R324: the engine takes the next command. MX.CTX gives a free context to its group; a command
of another group is discarded with NOT_OWNER; MX.ZERO clears tiles and their side registers; MX.MMA of INT8 adds the
products of the rows of A and the columns of B to the source tile, modulo 2^32, and empties the A latch. -/
def Sys2Proof.Claims.MatrixEngine : Prop :=
  (∀ s cl k f m, MxNext s cl k f m → m.fn = 0 → ∃ t, exec (.mxeDispatch cl) s = .next t ∧
    (t.fctx cl k).inbox = f.inbox.filter (fun x => x.id != m.id) ∧
    (f.owner = none → (t.fctx cl k).owner = ownerOf m) ∧ (f.owner ≠ none → (t.fctx cl k).owner = f.owner) ∧
    ∀ core slot w q, s.wave? core slot = some w → q ∈ w.pend → q.src = .reply m.id →
      ∃ w', t.wave? core slot = some w' ∧
        { q with src := .val (if f.owner = none ∨ f.owner = ownerOf m then 0 else 1) } ∈ w'.pend) ∧
  (∀ s cl k f m, MxNext s cl k f m → 0 < m.fn → m.fn ≤ 0x10 → f.owner ≠ ownerOf m →
    ∃ t, exec (.mxeDispatch cl) s = .next t ∧
      t.fctx cl k = { f with
        inbox := f.inbox.filter (fun x => x.id != m.id), cause := if f.cause = 0 then 0x212 else f.cause }) ∧
  (∀ s cl k f m, MxNext s cl k f m → m.fn = 0x08 → f.owner = ownerOf m → m.wa.toNat < 65536 →
    ∃ t, exec (.mxeDispatch cl) s = .next t ∧ t.mem = s.mem ∧ ∀ i < 16, ∀ r < 32,
      (∀ n < 32, tileAt (t.fctx cl k) i r n = if m.wa.getLsbD i then 0 else tileAt f i r n) ∧
      (t.fctx cl k).readM i r = (if m.wa.getLsbD i then 0xFF800000 else f.readM i r) ∧
      (t.fctx cl k).readL i r = if m.wa.getLsbD i then 0 else f.readL i r) ∧
  (∀ s cl k f m (a b : Oper), MxNext s cl k f m → m.fn = 0x03 → f.owner = ownerOf m → f.fmt = 4 → f.spk = 0 →
    m.wa.toNat < 16 → m.wb.toNat < 16 → f.latch = some a → f.bbuf = some b → a.fmt = 4 → b.fmt = 4 → a.spk = 0 →
    b.spk = 0 → a.masks = [] → b.masks = [] → a.elems.length = 32 → b.elems.length = 32 →
    (∀ x ∈ a.elems, x.length = 64) → (∀ x ∈ b.elems, x.length = 64) →
    ∃ t, exec (.mxeDispatch cl) s = .next t ∧ (t.fctx cl k).latch = none ∧ (t.fctx cl k).bbuf = some b ∧
      ∀ i < 16, ∀ r < 32, ∀ n < 32, tileAt (t.fctx cl k) i r n =
        if i = m.wa.toNat then narrow ((tileAt f m.wb.toNat r n).toInt +
          ((List.range 64).map fun j => (((a.elems.getD r []).getD j 0).toInt * ((b.elems.getD n []).getD j 0).toInt)).sum)
        else tileAt f i r n)

end

/-! ## TRAV, WORK and MSG commands -/

namespace Sys2Proof.Claims

open Sys2Proof.Machine

/-- The command of a wave that waits for its engine (R23, R245): the reply is to go to `d`, and a fault of it names the
lowest lane of the path that is no helper lane. -/
def commandOf (s : State) (w : Wave) (p : Path) (maj fn : Nat) (d : Reg) (wa : DWord) (wb : Word) (needs : List Nat) : Cmd :=
  { id := s.nextId, core := w.core, slot := w.slot, gslot := w.gslot, asid := s.asidOf w, lid := s.lidOf w, pc := p.pc
    maj, fn, dst := d, wa, wb, blk := [], needs, lane := (lanesOf (w.lanesOfPath p &&& ~~~w.helper)).headD 0
    word := w.word }

/-- TRAV commands with their numbers and their descriptor operands (Table 16-8). -/
noncomputable def travInstrs (sw : Bool) (d a b : Reg) : List (Instr × Nat × Option Reg) :=
  [(.trLaunch sw d a b, 0, some a), (.trResume sw d a b, 1, some a), (.trCqcfg sw d a b, 2, some a),
   (.trDtab sw d a b, 4, some a), (.trProg sw d a b, 5, some a), (.pfArm sw d a b, 8, some a),
   (.pfDisarm sw d b, 9, none)]

/-- The bits of an engine register of a wave that software writes (Tables 5-7, 7-6, 8-6 and 12-7). -/
def engineBits (n : Nat) : DWord :=
  if n < 0x10 then (if n % 8 = 7 then 0x37 else BitVec.allOnes 64)
  else if n = 0x21 then 0x3FFFFFFFF
  else if n < 0x40 then BitVec.allOnes 64
  else if n % 4 = 2 then 0x17FFFFFFFF else if n % 4 = 3 then 0 else BitVec.allOnes 64

/-- An index of Table 7-6 that names a register of a wave. -/
def waveIndex (n : Nat) : Prop := n < 0x10 ∨ n = 0x20 ∨ n = 0x21 ∨ n = 0x30 ∨ (0x40 ≤ n ∧ n ≤ 0x4F)

/-- An engine register of a wave; POS and BOUND of a stream that is bound come from the stream (Table 5-7). -/
def engineReg (w : Wave) (n : Nat) : DWord :=
  if n < 0x10 then Tab.get 0 w.cd n
  else if n = 0x20 then w.ms0 else if n = 0x21 then w.ms1 else if n = 0x30 then w.fjoin
  else if n % 4 = 3 then
    match w.streams.lookup ((n - 0x40) / 4) with
    | some x => BitVec.ofNat 64 (x.pos % 2 ^ 32 + 2 ^ 32)
    | none => Tab.get 0 w.sd (n - 0x40)
  else Tab.get 0 w.sd (n - 0x40)

/-- The reply of a command has come: every result that waits for it takes a value. -/
def Replies (s t : State) (id : Nat) (v : Word) : Prop :=
  ∀ core slot w q, s.wave? core slot = some w → q ∈ w.pend → q.src = .reply id →
    ∃ w', t.wave? core slot = some w' ∧ { q with src := .val v } ∈ w'.pend

/-- The reply of a command of one wave has come. -/
def RepliesAt (s t : State) (core slot id : Nat) (v : Word) : Prop :=
  ∀ w q, s.wave? core slot = some w → q ∈ w.pend → q.src = .reply id →
    ∃ w', t.wave? core slot = some w' ∧ { q with src := .val v } ∈ w'.pend

/-- The task that a FORK makes (R171). -/
def forked (s : State) (w : Wave) (glob : Bool) (pc : DWord) (mask : Word) : Task where
  pc := pc
  join := w.fjoin &&& ~~~3
  mask := mask
  glob := glob
  gslot := w.gslot
  wblk := (List.range 8).map fun k => w.readW (BitVec.ofNat 6 (8 + k))
  lid := s.lidOf w
  asid := s.asidOf w
  src := w.core
  needs := s.nextId :: s.groupGrps w

/-- The increment of the join counter that a FORK makes. -/
def joinEntry (s : State) (w : Wave) (p : Path) (pa : Nat) : SQ :=
  let lane := (lanesOf (w.lanesOfPath p &&& ~~~w.helper)).headD 0
  { id := s.nextId + 1, grp := s.nextId, lane, pc := p.pc, slot := w.slot, gslot := w.gslot, asid := s.asidOf w, pa
    kind := .rmw .addSi32 none [(lane, 1, 0)] false, needs := w.after, va := w.fjoin &&& ~~~3, word := w.word }

/-- The lowest entry of the deque area of a core that no task of its deque has (R172). -/
def freePlace (s : State) (core : Nat) : Nat :=
  ((List.range 512).find? fun k => (s.core core).deque.all fun t => t.place != k).getD 0

/-- The 64 bytes of a deque entry (Table 7-7). -/
def taskBytes (t : Task) : List Byte :=
  bytesLE 8 t.pc.toNat ++ bytesLE 8 t.join.toNat ++ bytesLE 4 t.mask.toNat ++
    bytesLE 4 (if t.glob then 2 ^ 31 else t.gslot % 32) ++ (t.wblk.map fun v => bytesLE 4 v.toNat).flatten ++
    bytesLE 4 t.lid ++ bytesLE 4 0

/-- A task stands at the new end of the deque of its core, and its entry in the deque area of its context. -/
def pushed (s : State) (core : Nat) (t : Task) : State :=
  let t := { t with place := freePlace s core }
  let s := match s.ctx? t.asid with
    | some c => s.bankWrite (c.deque + 32768 * core + 64 * t.place) (taskBytes t)
    | none => s
  s.modCore core fun c => { c with deque := c.deque ++ [t] }

/-- The deque of a core has no room: with its entries count those of FORKs that wait for their increment, and those that a
shipment brings (R172; log entry 104). -/
def dequeFull (s : State) (core : Nat) : Prop :=
  let coming := (s.net.map fun p => if p.dest = core then (match p.body with
    | .ship ts => ts.length
    | _ => 0) else 0).sum
  let waiting := (s.cmds.filter fun x => x.core == core && x.maj == 0x3E && (x.fn == 1 || x.fn == 2)).length
  512 ≤ (s.core core).deque.length + coming + waiting

/-- `i`, FORK.L or FORK.G, makes a task and replies 0: a wave of a SIMT core, which for FORK.L is no handler wave and has task
waves in its group, names an aligned PC and a mask that is not empty, and the deque has room. -/
def ForkMakes (i : Instr) (glob sw : Bool) (d a b : Reg) : Prop :=
  ∀ s w p g, XReady s sw w p [(a, 2), (b, 1), (8, 8)] [(d, 1)] → isService w.core = false →
    s.group? w.core w.gslot = some g → (glob = false → w.kind ≠ .handler ∧ g.taskw ≠ 0) →
    (w.readW2 a).toNat % 4 = 0 → w.readW b ≠ 0 → ¬ dequeFull s w.core →
    let s1 := pushed s w.core (forked s w glob (w.readW2 a) (w.readW b))
    (w.fjoin &&& ~~~3 = 0 → ∃ t, exec i s = .next t ∧ Becomes s1 t (sentWave s w sw [(.w d, .val 0)])) ∧
    ∀ pa how, w.fjoin &&& ~~~3 ≠ 0 → Idle s w → Reaches s w (.rmw .addSi32 1 0 false []) (w.fjoin &&& ~~~3) pa how →
      inDev pa = true → apart w [joinEntry s w p pa] →
      ∃ t s', exec i s = .next t ∧ Becomes s1 s' (sentWave s w sw [(.w d, .val 0)]) ∧
        SameButTlb (withEntries s' w [joinEntry s w p pa] fun l1 => l1Drop l1 (joinEntry s w p pa).range.1
          (joinEntry s w p pa).range.2) t

/-- `i`, FORK.L or FORK.G, makes no task. -/
def ForkRefuses (i : Instr) (glob sw : Bool) (d a b : Reg) : Prop :=
  ∀ s w p g, XReady s sw w p [(a, 2), (b, 1), (8, 8)] [(d, 1)] → isService w.core = false →
    s.group? w.core w.gslot = some g →
    let pc := w.readW2 a
    let mask := w.readW b
    if glob = false ∧ w.kind = .handler then exec i s = .next (s.trapBy w p 0x018)
    else if pc.toNat % 4 ≠ 0 then exec i s = .next (s.trapBy w p 0x012)
    else (mask = 0 ∨ (glob = false ∧ g.taskw = 0) ∨ dequeFull s w.core) →
      ∃ t, exec i s = .next t ∧ Becomes s t (sentWave s w sw
        [(.w d, .val (if mask = 0 then 0 else if glob = false ∧ g.taskw = 0 then 2 else 1))])

end Sys2Proof.Claims

section

open Sys2Proof Sys2Proof.Machine Sys2Proof.Claims

/-- R164, R210, R245, R382, R383: TRAV commands and LAUNCH latch their operands, their replies are outstanding, and they wait
for what must be performed before them; TR.LAUNCH queues one request for each record and replies with their number, or
with TR_ARG; a LAUNCH of a misaligned record is refused. -/
def Sys2Proof.Claims.EngineCommands : Prop :=
  (∀ sw d a b s w p, ∀ e ∈ travInstrs sw d a b,
    XReady s sw w p ((e.2.2.toList.map fun r => (r, 2)) ++ [(b, 1)]) [(d, 1)] →
    let va : DWord := match e.2.2 with
      | some r => w.readW2 r
      | none => 0
    ∃ t, exec e.1 s = .next t ∧
      Becomes { s with cmds := s.cmds ++ [commandOf s w p 0x3B e.2.1 d va (w.readW b) (s.ownGrps w)] } t
        (sentWave s w sw [(.w d, .reply s.nextId)])) ∧
  (∀ sw d a s w p, XReady s sw w p [(a, 2)] [(d, 1)] →
    ∃ t, exec (.launch sw d a) s = .next t ∧
      Becomes { s with cmds := s.cmds ++ [commandOf s w p 0x3E 0 d (w.readW2 a) 0 (s.groupGrps w)] } t
        (sentWave s w sw [(.w d, .reply s.nextId)])) ∧
  (∀ s dt rest x, s.agenda = ⟨dt, .command x.id⟩ :: rest → s.stopped = false → s.tabs = true → s.cmds = [x] → x.held = false →
    let good := x.wa.toNat % 64 = 0 ∧ x.wb.toNat < 2 ^ 20
    let n := x.wb.toNat % 65536
    (x.maj = 0x3B → x.fn = 0 → ∃ t, step s = .next t ∧ t.cmds = [] ∧
      Replies s t x.id (if good then BitVec.ofNat 32 n else 0x80000236) ∧
      (t.core x.core).trp.queue = (s.core x.core).trp.queue ++
        if good then (List.range n).map fun i =>
          { va := x.wa + BitVec.ofNat 64 (64 * i), asid := x.asid, gslot := x.gslot, slot := x.slot, lid := x.lid, cmd := x.id
            queue := if x.wb.getLsbD 19 then some (x.wb.toNat / 65536 % 8) else none
            resume := none, hand := none, needs := x.needs }
        else []) ∧
    (x.maj = 0x3E → x.fn = 0 → x.wa.toNat % 64 ≠ 0 → ∃ t, step s = .next t ∧ t.cmds = [] ∧ t.launches = s.launches ∧
      Replies s t x.id 0x80000001))

/-- R170, R176: PRIO replies with the old priority and sets the new one; ENGW writes the bits of a register of the wave that
software may write, and ENGR reads one; an mc write goes to the inbox of the format context; an index that Table 7-6 does
not list traps. -/
def Sys2Proof.Claims.EngineRegisters : Prop :=
  (∀ sw d b s w p, XReady s sw w p [(b, 1)] [(d, 1)] →
    ∃ t, exec (.prio sw d b) s = .next t ∧
      Becomes s t (sentWave s { w with prio := (w.readW b).setWidth 2 } sw [(.w d, .val (w.prio.setWidth 32))])) ∧
  (∀ sw d a b s w p, XReady s sw w p [(a, 2), (b, 1)] [(d, 1)] →
    let n := (w.readW b).toNat
    let v := w.readW2 a
    (waveIndex n → ∃ t v', exec (.engw sw d a b) s = .next t ∧ Becomes s t (sentWave s v' sw [(.w d, .val 0)]) ∧
      v' = { w with cd := v'.cd, ms0 := v'.ms0, ms1 := v'.ms1, fjoin := v'.fjoin, sd := v'.sd } ∧
      ∀ k, waveIndex k → engineReg v' k = if k = n then (engineReg w k &&& ~~~engineBits k) ||| (v &&& engineBits k)
        else engineReg w k) ∧
    (0x80 ≤ n ∧ n ≤ 0x9F → isService w.core = false →
      let cl := clusterOf w.core
      let k := 2 * (w.core % 2) + if w.kind = .handler then 1 else 0
      let m : MPkt :=
        { id := s.nextId, fn := 0x7F, core := w.core, gslot := w.gslot, slot := w.slot, asid := s.asidOf w, lid := s.lidOf w
          wa := w.readW a, wa1 := w.readW (a + 1), wb := w.readW b, pc := p.pc, mcv := v, mci := n - 0x80, needs := [] }
      if (s.fctx cl k).inbox.length < 32 then
        ∃ t, exec (.engw sw d a b) s = .next t ∧
          Becomes (s.modFctx cl k fun f => { f with inbox := f.inbox ++ [m] }) t (sentWave s w sw [(.w d, .val 0)])
      else exec (.engw sw d a b) s = .next (s.setWave { w with stat := .stall })) ∧
    (¬ waveIndex n → (0x80 ≤ n ∧ n ≤ 0x9F → isService w.core = true) →
      exec (.engw sw d a b) s = .next (s.trapBy w p 0x017))) ∧
  (∀ sw d b s w p, XReady s sw w p [(b, 1)] [(d, 2)] →
    let n := (w.readW b).toNat
    (waveIndex n → ∃ t, exec (.engr sw d b) s = .next t ∧ Becomes s t (sentWave s w sw
      [(.w d, .val (BitVec.ofNat 32 (engineReg w n).toNat)),
       (.w (d + 1), .val (BitVec.ofNat 32 ((engineReg w n).toNat / 2 ^ 32)))])) ∧
    (¬ waveIndex n → (0x80 ≤ n ∧ n ≤ 0x9F → isService w.core = true) →
      exec (.engr sw d b) s = .next (s.trapBy w p 0x017)))

/-- R171, R172: FORK.L and FORK.G make a task: it takes the lowest free entry of the deque area of its core and joins the new
end of the deque, after an atomic increment of the counter that FJOIN names, unless FJOIN is 0. No task is made for an
empty mask (reply 0), without task waves (reply 2), or when the deque is full (reply 1); a misaligned PC traps, and so
does FORK.L in a handler wave.
Readings of the model in it: log entry 104. -/
def Obligations.Forks : Prop :=
  ∀ sw d a b, ForkMakes (.forkL sw d a b) false sw d a b ∧ ForkMakes (.forkG sw d a b) true sw d a b ∧
    ForkRefuses (.forkL sw d a b) false sw d a b ∧ ForkRefuses (.forkG sw d a b) true sw d a b

end

/-! ## Messages and capsules -/

namespace Sys2Proof.Claims

open Sys2Proof.Machine

/-- The route entry of a class at the router of a core: the virtual channel, and the partition that may send (Table 12-2). -/
def routeVc (s : State) (core cls : Nat) : Nat := (Tab.get 0 s.routes (16 * clusterOf core + cls)).toNat / 2 % 8
def routeFor (s : State) (core cls : Nat) : Nat := (Tab.get 0 s.routes (16 * clusterOf core + cls)).toNat / 256 % 8

/-- The sequence number of the next packet of a wave to a core, for a class of packets (R271). -/
def seqOf (s : State) (w : Wave) (key dest : Nat) : Nat :=
  (Tab.get 0 (s.core w.core).msgSeq (65536 * w.slot + 256 * dest + key) + 1) % 65536

/-- Packets of a wave have gone to the network, one to each destination, numbered in order, and the sequence numbers of
the wave have advanced: nothing else has changed but the wave and `sends`. -/
structure Sends (s t : State) (w w' : Wave) (first : Nat) (dests : List Nat) (key cls : Nat) (wk : Bool) (needs : List Nat)
    (pull : Option (Nat × Nat × Nat)) (body : Nat → PBody) (sends : List Send) : Prop where
  rest : t = { s with nextId := t.nextId, cores := t.cores, net := t.net, sends := sends }.setWave w'
  net : t.net = s.net ++ dests.zipIdx.map fun e =>
    { id := first + e.2, dest := e.1, src := w.core, slot := w.slot, asid := s.asidOf w, cls, vc := routeVc s w.core cls
      seq := seqOf s w key e.1, body := body (seqOf s w key e.1), wk, born := w.born, needs, pull }
  cores : ∀ c, { t.core c with msgSeq := [] } = { s.core c with msgSeq := [] }
  seqs : ∀ c k, Tab.get 0 (t.core c).msgSeq k =
    match dests.find? fun x => c == w.core && k == 65536 * w.slot + 256 * x + key with
    | some x => seqOf s w key x
    | none => Tab.get 0 (s.core c).msgSeq k

/-- What a send waits for (R279). -/
def sendOf (s : State) (w : Wave) (p : Path) (d : Reg) (retry mcast : Bool) (n : Nat) : Send :=
  { cmd := s.nextId, core := w.core, slot := w.slot, gslot := w.gslot, dst := d, retry, mcast, left := n, worst := 0
    refused := [], asid := s.asidOf w, pc := p.pc, lid := s.lidOf w }

/-- The bytes of the first `n` of 16 w registers. -/
def blockBytes (w : Wave) (a : Reg) (n : Nat) : List Byte :=
  (((List.range 16).map fun k => bytesLE 4 (w.readW (a + BitVec.ofNat 6 k)).toNat).flatten).take n

/-- MSG.SEND, MSG.SENDL and MSG.MCAST. -/
noncomputable def sendInstr (k : Fin 3) (sw : Bool) (d a b : Reg) : Instr :=
  match k with
  | 0 => .msgSend sw d a b
  | 1 => .msgSendl sw d a b
  | 2 => .msgMcast sw d a b

/-- The cores that ms0, ms1 and CSEL name (R280). -/
def mcastTo (w : Wave) (csel : Nat) : List Nat :=
  (List.range 160).filter fun c =>
    (if c / 2 < 64 then w.ms0.getLsbD (c / 2) else w.ms1.getLsbD (c / 2 - 64)) && (csel == 2 || csel == c % 2)

/-- The partition of a wave that sends: that of its group, and the shared pool for firmware. -/
def senderPart (s : State) (w : Wave) : Nat :=
  if isService w.core then 0 else ((s.group? w.core w.gslot).map fun g => g.part).getD 0

/-- The bytes of group-local memory of a wave that sends. -/
def senderLocal (s : State) (w : Wave) : Nat := ((s.groupOf w).map fun g => 1024 * g.localkb).getD 0

/-- A bit of the EN mask of a context on a core (R285). -/
def enabled (s : State) (core asid cls : Nat) : Bool :=
  (Tab.get none (s.core core).htab (16 * asid + cls)).any fun e => e.en

end Sys2Proof.Claims

section

open Sys2Proof Sys2Proof.Machine Sys2Proof.Claims

/-- R276 to R281: MSG.SEND, MSG.SENDL and MSG.MCAST: the traps of R279 and R280 in their order; an empty multicast replies 0;
else one packet goes to each destination, after what the group has outstanding unless it is weak, and the reply is
outstanding.
Readings of the model in it: log entries 11 and 44. -/
def Obligations.MessageSends : Prop :=
  ∀ (k : Fin 3) sw d a b s w p, XReady s sw w p [(a, if k = 1 then 1 else 16), (b, 1)] [(d, 1)] →
    let i := sendInstr k sw d a b
    let x := (w.readW a).toNat
    let y := (w.readW b).toNat
    let dest := y % 256
    let cls := y / 256 % 16
    let csel := y / 2 ^ 14 % 4
    let off := x % 2 ^ 18
    let len := x / 2 ^ 18 % 2 ^ 13
    let argBad := 2 ^ 16 ≤ y ∨ (k = 2 ∧ (dest ≠ 0 ∨ csel = 3)) ∨ (k ≠ 2 ∧ (csel ≠ 0 ∨ 159 < dest)) ∨
      (k = 1 ∧ (2 ^ 31 ≤ x ∨ off % 4 ≠ 0 ∨ len % 4 ≠ 0 ∨ 4096 < len ∨ senderLocal s w < off + len))
    let dests := if k = 2 then mcastTo w csel else [dest]
    let m : Msg :=
      { asid := s.asidOf w, cls, src := w.core, slot := w.slot, long := k == 1, mcast := k == 2, wk := y.testBit 12
        payload := if k = 1 then [] else blockBytes w a 64, seq := 0 }
    if argBad then exec i s = .next (s.trapBy w p 0x301)
    else if routeFor s w.core cls ≠ senderPart s w then exec i s = .next (s.trapBy w p 0x305)
    else if y.testBit 13 = true ∧ w.kind = .handler then exec i s = .next (s.trapBy w p 0x300)
    else if k ≠ 2 ∧ Tab.get 0 s.parts (dest / 2) ≠ senderPart s w then exec i s = .next (s.trapBy w p 0x303)
    else if k = 2 ∧ (mcastTo w 2).any (fun c => Tab.get 0 s.parts (c / 2) != senderPart s w) then
      exec i s = .next (s.trapBy w p 0x302)
    else if k = 2 ∧ mcastTo w 2 = [] then
      ∃ t, exec i s = .next t ∧ Becomes s t (sentWave s w sw [(.w d, .val 0)])
    else ∃ t, exec i s = .next t ∧
      Sends s t w (sentWave s w sw [(.w d, .reply s.nextId)]) (s.nextId + 1) dests cls cls (y.testBit 12)
        (if y.testBit 12 then [] else s.groupGrps w) (if k = 1 then some (w.gslot, off, len) else none)
        (fun seq => .msg { m with seq } s.nextId)
        (s.sends ++ [sendOf s w p d (y.testBit 13) (decide (k = 2)) dests.length])

/-- R285 to R287: MSG.WAKE sends a wake to a core of the partition, with the offset of ms1; MSG.MASK and MSG.UNMASK change
EN of the bound classes that they name and reply with the mask from before; MSG.PEND changes nothing; MSG.HBIND waits for
its binding entry.
Readings of the model in it: log entries 9, 42 and 46. -/
def Obligations.MessageControl : Prop :=
  (∀ sw d a b s w p, XReady s sw w p [(a, 16), (b, 1)] [(d, 1)] →
    let y := (w.readW b).toNat
    let dest := y % 256
    let len := y / 2 ^ 17 % 128
    let off := w.ms1.toNat / 2 ^ 16 % 2 ^ 18
    if 2 ^ 25 ≤ y ∨ 159 < dest ∨ len % 4 ≠ 0 ∨ 64 < len ∨ off % 4 ≠ 0 then
      exec (.msgWake sw d a b) s = .next (s.trapBy w p 0x301)
    else if Tab.get 0 s.parts (dest / 2) ≠ senderPart s w then exec (.msgWake sw d a b) s = .next (s.trapBy w p 0x303)
    else ∃ t, exec (.msgWake sw d a b) s = .next t ∧
      Sends s t w (sentWave s w sw [(.w d, .reply s.nextId)]) (s.nextId + 1) [dest] 16 0 (y.testBit 24)
        (if y.testBit 24 then [] else s.groupGrps w) none
        (fun _ => .wake (y / 256 % 32) (y / 2 ^ 13 % 16) off (blockBytes w a len) s.nextId (s.lidOf w)
          (((s.groupOf w).map fun g => g.gang).getD 0)
          (decide (w.kind = .handler))) (s.sends ++ [sendOf s w p d false false 1])) ∧
  (∀ sw d b s w p, XReady s sw w p [(b, 1)] [(d, 1)] →
    ∀ e ∈ [(Instr.msgMask sw d b, false), (.msgUnmask sw d b, true)],
    if 2 ^ 16 ≤ (w.readW b).toNat then exec e.1 s = .next (s.trapBy w p 0x301)
    else ∃ t v s', exec e.1 s = .next t ∧ Becomes s' t (sentWave s w sw [(.w d, .val v)]) ∧
      s' = { s with cores := s'.cores } ∧ (∀ c, { s'.core c with htab := [] } = { s.core c with htab := [] }) ∧
      (∀ k < 32, v.getLsbD k = (decide (k < 16) && enabled s w.core (s.asidOf w) k)) ∧
      ∀ c k, Tab.get none (s'.core c).htab k =
        if c = w.core ∧ k / 16 = s.asidOf w ∧ (w.readW b).getLsbD (k % 16) then
          (Tab.get none (s.core c).htab k).map fun x => { x with en := e.2 }
        else Tab.get none (s.core c).htab k) ∧
  (∀ sw d s w p, XReady s sw w p [] [(d, 1)] →
    ∃ t v, exec (.msgPend sw d) s = .next t ∧ Becomes s t (sentWave s w sw [(.w d, .val v)]) ∧
      ∀ k < 16, v.getLsbD (16 + k) = enabled s w.core (s.asidOf w) k ∧
        (((s.core w.core).held.any fun x => x.asid == s.asidOf w && x.cls == k) = true → v.getLsbD k = true)) ∧
  (∀ sw d a b s w p, XReady s sw w p [(a, 2), (b, 1)] [(d, 1)] →
    let va := w.readW2 a
    let y := (w.readW b).toNat
    if isService w.core = false then exec (.msgHbind sw d a b) s = .next (s.trapBy w p 0x004)
    else if va.toNat % 16 ≠ 0 ∨ y / 2 ^ 9 % 128 ≠ 0 ∨ 2 ^ 21 ≤ y ∨ 159 < y % 256 then
      exec (.msgHbind sw d a b) s = .next (s.trapBy w p 0x301)
    else ∃ t, exec (.msgHbind sw d a b) s = .next t ∧
      Becomes { s with cmds := s.cmds ++ [commandOf s w p 0x3C 8 d va (w.readW b) (s.groupGrps w)] } t
        (sentWave s w sw [(.w d, .reply s.nextId)]))

end

namespace Sys2Proof.Claims

open Sys2Proof.Machine

/-- A stop (Table 13-2): cluster, core, class and ANY; whether it is valid (R293); and whether the wave may not send
there (R300). -/
def stopTo (x : DWord) : Nat := 2 * (x.toNat % 128) + x.toNat / 128 % 2
def stopCls (x : DWord) : Nat := x.toNat / 256 % 16
def legalStop (x : DWord) : Prop :=
  x.toNat % 128 ≤ 79 ∧ x.toNat / 2 ^ 13 % 8 = 0 ∧ ¬ (x.getLsbD 12 = true ∧ x.getLsbD 7 = true)
def badRoute (s : State) (w : Wave) (x : DWord) : Prop :=
  Tab.get 0 s.parts (x.toNat % 128) ≠ senderPart s w ∨ routeFor s w.core (stopCls x) ≠ senderPart s w

/-- A field of group-local memory, and a stop of the image at an offset (Tables 13-1 and 13-2). -/
def localField (g : Group) (a n : Nat) : Nat := leNat (g.loc.read a n)
def imageStop (g : Group) (off k : Nat) : DWord := BitVec.ofNat 64 (localField g (off + 64 + 8 * k) 8)

/-- The wave may read and write the local memory of its group at issue: nothing of it is outstanding there (R195). -/
def LocalReady (s : State) (w : Wave) (g : Group) : Prop :=
  s.group? w.core w.gslot = some g ∧ g.wf = true ∧ w.core < 160 ∧ w.gslot < 32 ∧ g.localkb ≤ 256 ∧ Idle s w ∧
    w.loads = [] ∧ ∀ e ∈ (s.core w.core).sq, e.slot = w.slot → inLocal e.pa = false

/-- The offset of capsule slot k of a group (R184, R295). -/
def slotAt (g : Group) (k : Nat) : Nat := 1024 * g.localkb - 4352 * (g.cslots - k)

/-- A capsule of the wave's slot or image leaves for a stop: a packet of its class, which waits for what the group has
outstanding unless it is weak, and takes USER and the tile from group-local memory (R299, R301). -/
def SendsCapsule (s t : State) (w w' : Wave) (off : Nat) (wk any : Bool) (dest : Nat) (c : Caps) : Prop :=
  ∃ user crc, Sends s t w w' s.nextId [dest] (32 + c.cls) c.cls wk (if wk then [] else s.groupGrps w)
    (some (w.gslot, off, 128 + 256 * c.len)) (fun _ => .caps { c with user, crc, wk } any) s.sends

/-- The capsule that an image at an offset names, with the device's fields (Table 13-1). -/
def capsuleAt (g : Group) (off : Nat) (asid : Nat) (id : BitVec 64) (flags : BitVec 16) (index count len origin cls core : Nat) :
    Caps :=
  { asid, id, flags, index, count, len, origin, park := BitVec.ofNat 64 (localField g (off + 24) 8), user := []
    stops := (List.range 8).map (imageStop g off), tile := [], crc := 0, magic := 0xCA95, major := 1, cls, prev := core
    seq := 0 }

/-- The slot of a group has other kept fields. -/
def withSlot (s : State) (g : Group) (k : Nat) (x : CSlot) : State :=
  s.setGroup { g with caps := Tab.put none g.caps k (some x) }

/-- The stops of an image after CAP.INS, CAP.DEL and CAP.SET (R302). -/
def stopsAfter (op : Fin 3) (count p : Nat) (new : DWord) (st : Nat → DWord) (j : Nat) : DWord :=
  match op with
  | 0 => if j < p then st j else if j = p then new else if j ≤ count then st (j - 1) else st j
  | 1 => if j < p then st j else if j + 1 < count then st (j + 1) else if j + 1 = count then 0 else st j
  | 2 => if j = p then new else st j

end Sys2Proof.Claims

section

open Sys2Proof Sys2Proof.Machine Sys2Proof.Claims

/-- R300, R303: CAP.NEW checks the image in group-local memory and sends a capsule with a fresh ID to stop 0, leaving the
image as it is; CAP.LOAD waits for its image. -/
def Obligations.NewCapsules : Prop :=
  (∀ sw d a b s w p g, XReady s sw w p [(a, 1), (b, 1)] [(d, 1)] → LocalReady s w g → isService w.core = false →
    let i : Instr := .capNew sw d a b
    let off := (w.readW a).toNat
    let y := (w.readW b).toNat
    let count := localField g (off + 17) 1
    let len := localField g (off + 18) 2
    let park : DWord := BitVec.ofNat 64 (localField g (off + 24) 8)
    let stop := imageStop g off 0
    let n := (s.core w.core).capNew + 1
    if 2 ≤ y ∨ off % 64 ≠ 0 ∨ 1024 * g.localkb < off + 128 then exec i s = .next (s.trapBy w p 0x308)
    else if count = 0 ∨ 8 < count ∨ 16 < len ∨ 1024 * g.localkb < off + 128 + 256 * len ∨ park = 0 ∨
        canonical park = false ∨ park.toNat % 64 ≠ 0 then exec i s = .next (s.trapBy w p 0x308)
    else (¬ legalStop stop → exec i s = .next (s.trapBy w p 0x30A)) ∧
      (legalStop stop → badRoute s w stop → exec i s = .next (s.trapBy w p 0x30E)) ∧
      (legalStop stop → ¬ badRoute s w stop → ∃ t, exec i s = .next t ∧
        SendsCapsule (s.modCore w.core fun c => { c with capNew := n }) t w
          (sentWave s w sw [(.w d, .val (BitVec.ofNat 32 n))]) off (y % 2 == 1) (stop.getLsbD 12) (stopTo stop)
          (capsuleAt g off (s.asidOf w) (BitVec.ofNat 64 (w.core * 2 ^ 48 + n)) 0 0 count len w.core (stopCls stop)
            w.core))) ∧
  (∀ sw d a b s w p, XReady s sw w p [(a, 2), (b, 1)] [(d, 1)] →
    if 8 ≤ (w.readW b).toNat then exec (.capLoad sw d a b) s = .next (s.trapBy w p 0x308)
    else ∃ t, exec (.capLoad sw d a b) s = .next t ∧
      Becomes { s with
        cmds := s.cmds ++ [commandOf s w p 0x3D 7 d (w.readW2 a) (w.readW b) (s.groupGrps w)] } t
        (sentWave s w sw [(.w d, .reply s.nextId)]))

/-- R299, R301, R302: commands on a slot that the wave owns: CAP.FWD, CAP.RET and CAP.PARK send the capsule on, back or to its
parking area and end the ownership; CAP.INS, CAP.DEL and CAP.SET rewrite its stops; each checks its control word, then the
slot, then the itinerary.
Readings of the model in it: log entry 47. -/
def Obligations.SlotCommands : Prop :=
  ∀ sw d a b s w p g, LocalReady s w g → isService w.core = false → XReady s sw w p [(b, 1)] [(d, 1)] →
    let y := (w.readW b).toNat
    let k := y % 16
    let i := y / 16 % 16
    let new := w.readW2 a
    let pair : Prop := XReady s sw w p [(b, 1), (a, 2)] [(d, 1)]
    let edits : List (Fin 3 × Instr) := [(0, .capIns sw d a b), (1, .capDel sw d b), (2, .capSet sw d a b)]
    (32 ≤ y → exec (.capFwd sw d b) s = .next (s.trapBy w p 0x308)) ∧
    (y / 32 % 8 ≠ 0 ∨ 2 ^ 12 ≤ y → exec (.capRet sw d b) s = .next (s.trapBy w p 0x308)) ∧
    (16 ≤ y → exec (.capPark sw d b) s = .next (s.trapBy w p 0x308)) ∧
    (256 ≤ y → ∀ e ∈ edits, (e.1 ≠ 1 → pair) → exec e.2 s = .next (s.trapBy w p 0x308)) ∧
    ((g.cslots ≤ k ∨ ∀ x, Tab.get none g.caps k = some x → x.owner ≠ some w.slot) →
      (y < 32 → exec (.capFwd sw d b) s = .next (s.trapBy w p 0x309)) ∧
      (y / 32 % 8 = 0 ∧ y < 2 ^ 12 → exec (.capRet sw d b) s = .next (s.trapBy w p 0x309)) ∧
      (y < 16 → exec (.capPark sw d b) s = .next (s.trapBy w p 0x309)) ∧
      (y < 256 → ∀ e ∈ edits, (e.1 ≠ 1 → pair) → exec e.2 s = .next (s.trapBy w p 0x309))) ∧
    ∀ x, k < g.cslots → 4352 * g.cslots ≤ 1024 * g.localkb → Tab.get none g.caps k = some x → x.owner = some w.slot →
      let off := slotAt g k
      let stop := imageStop g off (x.index + 1)
      (y < 32 → x.count ≤ 8 →
        (x.count ≤ x.index + 1 ∨ ¬ legalStop stop → exec (.capFwd sw d b) s = .next (s.trapBy w p 0x30A)) ∧
        (x.index + 1 < x.count → legalStop stop → badRoute s w stop →
          exec (.capFwd sw d b) s = .next (s.trapBy w p 0x30E)) ∧
        (x.index + 1 < x.count → legalStop stop → ¬ badRoute s w stop →
          ∃ t, exec (.capFwd sw d b) s = .next t ∧
            SendsCapsule (withSlot s g k { x with owner := none, out := some s.nextId }) t w
              (sentWave s w sw [(.w d, .val 0)]) off (y / 16 % 2 == 1) (stop.getLsbD 12) (stopTo stop)
              (capsuleAt g off x.asid x.id x.flags (x.index + 1) x.count x.len x.origin (stopCls stop) w.core))) ∧
      (y / 32 % 8 = 0 ∧ y < 2 ^ 12 → ∃ t, exec (.capRet sw d b) s = .next t ∧
        SendsCapsule (withSlot s g k { x with owner := none, out := some s.nextId }) t w
          (sentWave s w sw [(.w d, .val 0)]) off (y / 16 % 2 == 1) false x.origin
          (capsuleAt g off x.asid x.id (x.flags ||| 1) x.count x.count x.len x.origin (y / 256 % 16) w.core)) ∧
      (y < 16 → ∃ t, exec (.capPark sw d b) s = .next t ∧
        Becomes { withSlot s g k { x with owner := none, out := some s.nextId } with
          cmds := s.cmds ++ [{
            commandOf s w p 0x3D 6 d (BitVec.ofNat 64 off) (BitVec.ofNat 32 k) (s.groupGrps w) with
              blk := g.loc.read off 128 }] } t (sentWave s w sw [(.w d, .reply s.nextId)])) ∧
      (y < 256 → x.count ≤ 8 → ∀ e ∈ edits, (e.1 ≠ 1 → pair) →
        let good := x.index < i ∧ (if e.1 = 0 then i ≤ x.count ∧ x.count < 8 else i < x.count) ∧ (e.1 ≠ 1 → legalStop new)
        let count := match e.1 with
          | 0 => x.count + 1
          | 1 => x.count - 1
          | 2 => x.count
        (¬ good → exec e.2 s = .next (s.trapBy w p 0x30A)) ∧
        (good → ∃ t g', exec e.2 s = .next t ∧
          Becomes (s.setGroup g') t (sentWave s w sw [(.w d, .val (BitVec.ofNat 32 count))]) ∧
          g' = { g with loc := g'.loc, caps := Tab.put none g.caps k (some { x with count := count }) } ∧
          ∀ q, Tab.get 0 g'.loc q = if off + 64 ≤ q ∧ q < off + 128 then
            (bytesLE 8 (stopsAfter e.1 x.count i new (imageStop g off) ((q - off - 64) / 8)).toNat).getD ((q - off) % 8) 0
            else Tab.get 0 g.loc q))

end

/-! ## Arrivals -/

namespace Sys2Proof.Claims

open Sys2Proof.Machine

/-- The first packet of the network may arrive: it waits for nothing. -/
def Comes (s : State) (p : Packet) : Prop :=
  s.tabs = true ∧ (∃ rest, s.net = p :: rest ∧ ∀ q ∈ rest, q.id ≠ p.id) ∧ p.hold = false ∧ p.notBefore ≤ s.clock ∧
    p.needs = []

/-- The first packet of the network may arrive, and holds its payload. -/
def Arrives (s : State) (p : Packet) : Prop := Comes s p ∧ p.pull = none

/-- A context stands on a core: a group of it does (R282). -/
def standsOn (s : State) (core asid : Nat) : Prop := ∃ g ∈ s.groups, g.core = core ∧ g.asid = asid

/-- 64-byte chunks of a payload. -/
def chunksOf (n : Nat) : Nat := (n + 63) / 64

/-- A message may enter the queue of its class (R282 step 2): its context stands on the core, the class has an entry that
the context may take, and the pool holds its chunks. -/
def mayQueue (s : State) (core : Nat) (m : Msg) : Prop :=
  let c := s.core core
  let q := c.inq.filter fun x => x.cls = m.cls
  let used := (c.inq.map fun x => chunksOf x.payload.length).sum + (c.held.map fun x => chunksOf (128 + 256 * x.len)).sum
  standsOn s core m.asid ∧ q.length < 32 ∧ used + chunksOf m.payload.length ≤ 256 ∧
    ((∃ k h, (k, some h) ∈ c.htab ∧ k % 16 = m.cls ∧ k / 16 ≠ m.asid ∧ standsOn s core (k / 16)) →
      (q.filter fun x => x.asid = m.asid).length < 24)

/-- The packet with the answer to a send (R282). -/
def answerTo (p : Packet) (id cmd v : Nat) : Packet :=
  { id, dest := p.src, src := p.dest, slot := p.slot, asid := p.asid, cls := 0, seq := 0, body := .reply cmd v p.dest
    needs := [] }

/-- A message's record in an overflow ring (R283, Table 12-1): the header, zeros, and the payload to a multiple of 64. -/
def overflowRecord (p : Packet) (m : Msg) : List Byte :=
  [if m.mcast then 1 else 0, BitVec.ofNat 8 p.dest, BitVec.ofNat 8 (m.cls + if m.wk then 16 else 0), BitVec.ofNat 8 m.src] ++
    bytesLE 2 m.asid ++ bytesLE 2 m.payload.length ++ [BitVec.ofNat 8 m.slot, BitVec.ofNat 8 p.vc] ++ bytesLE 2 m.seq ++
    List.replicate 20 0 ++ List.replicate 32 0 ++ m.payload ++
    List.replicate (64 * chunksOf m.payload.length - m.payload.length) 0

/-- A handler group with nothing in its way: enabled for a class of its context, without a wave in its slots, and its
core without a store queue, fault records or batches. -/
def HandlerFree (s : State) (g : Group) (e : HEntry) (cls slot : Nat) : Prop :=
  s.tabs = true ∧ s.group? g.core g.gslot = some g ∧ g.wf = true ∧ g.hgd.isSome = true ∧ s.runsOn g.asid g.core = true ∧
    g.slots.head? = some slot ∧ (∀ k ∈ g.slots, s.wave? g.core k = none) ∧ (s.core g.core).sq = [] ∧
    (s.core g.core).recs = [] ∧ isService g.core = false ∧ (s.core g.core).batches = [] ∧
    Tab.get none (s.core g.core).htab (16 * g.asid + cls) = some e ∧ e.en = true ∧ e.hgroup = g.gslot

/-- The handler wave that starts in a slot, its registers apart (R159, R298): all lanes are live, with one path. -/
def handlerWave (g : Group) (e : HEntry) (slot : Nat) (gs : Tab Word) (ws : Tab Word) : Wave :=
  { core := g.core, slot, gslot := g.gslot, idx := 0, kind := .handler, g := gs, w := ws, live := BitVec.allOnes 32, helper := 0
    paths := [{ pc := e.pc, join := BitVec.allOnes 64, mask := BitVec.allOnes 32, made := 0 }], fpcr := g.fpcr, prio := e.prio }

/-- ARGS of the launch of a group. -/
def argsOf (s : State) (g : Group) : DWord := ((s.launch? g.lid).map fun l => l.recd.args).getD 0

/-- A capsule has taken slot k of a group (R295): its image stands there with the time and the previous hop, and its
fields are kept; nobody owns it yet. -/
def Took (s t : State) (g : Group) (k : Nat) (c : Caps) : Prop :=
  ∃ g' n, t.group? g.core g.gslot = some g' ∧
    g' = { g with
      loc := g'.loc
      caps := Tab.put none g.caps k (some {
        id := c.id, origin := c.origin, asid := c.asid, flags := c.flags, index := c.index, count := c.count, len := c.len
        cls := c.cls, seq := n, owner := none }) } ∧
    let tail := bytesLE 8 s.clock ++ bytesLE 4 (if c.index = 0 then c.origin else c.prev) ++ List.replicate 116 0
    ∀ a, Tab.get 0 g'.loc a =
      if slotAt g k + 4224 ≤ a ∧ a < slotAt g k + 4352 then tail.getD (a - slotAt g k - 4224) 0
      else if slotAt g k ≤ a ∧ a < slotAt g k + c.image.length then c.image.getD (a - slotAt g k) 0
      else Tab.get 0 g.loc a

/-- A capsule as it arrives keeps the header fields of its packet (R297). -/
def arrived (p : Packet) (c : Caps) : Caps := { c with prev := p.src, wslot := p.slot, vc := p.vc, seq := p.seq }

/-- A capsule has been read out of the group-local memory of its sender, if it still stood there: it takes USER and its tile
from there, and its CRC, and the slot that it left is free (R301). -/
def ReadOut (s : State) (p : Packet) (c : Caps) (s' : State) (c' : Caps) : Prop :=
  match p.pull with
  | none => s' = s ∧ c' = c
  | some (gs, off, len) => ∃ g, s.group? p.src gs = some g ∧ g.wf = true ∧ p.src < 160 ∧ gs < 32 ∧ g.localkb ≤ 256 ∧
      len = 128 + 256 * c.len ∧ off + len ≤ 1024 * g.localkb ∧ s.poison = [] ∧
      c' = { c with user := g.loc.read (off + 32) 28, tile := g.loc.read (off + 128) (256 * c.len), crc := c'.crcOf } ∧
      s' = s.setGroup { g with
        caps := g.caps.filter fun e => match e.2 with
          | some x => x.out != some p.id
          | none => true }

/-- The capsules that wait at a core: those of the hold, then those of its rings that are no dead records (R296). -/
def waitingAt (s : State) (core : Nat) : List Caps :=
  (s.core core).held ++ ((s.core core).covf.map fun e => (e.2.filter fun r => !r.dead).filterMap fun r => r.caps).flatten

/-- A capsule of the context and the class of another waits at a core, in the hold or in a ring record of its context. -/
def behindOthers (s : State) (core : Nat) (c : Caps) : Prop :=
  (∃ h ∈ (s.core core).held, h.asid = c.asid ∧ h.cls = c.cls) ∨
    ∃ r ∈ (assoc (s.core core).covf c.asid).getD [], r.dead = false ∧
      ∃ x, r.caps = some x ∧ x.asid = c.asid ∧ x.cls = c.cls

/-- The hold has room for a capsule: fewer than two capsules, and payload chunks for its image (R296 step 3). -/
def holdRoom (s : State) (core : Nat) (c : Caps) : Prop :=
  let used := ((s.core core).inq.map fun x => chunksOf x.payload.length).sum +
    ((s.core core).held.map fun x => chunksOf (128 + 256 * x.len)).sum
  (s.core core).held.length < 2 ∧ used + chunksOf (128 + 256 * c.len) ≤ 256

/-- Free slots of the handler group of a class on a core, for a capsule that may go to either core (R296). -/
def placesFor (s : State) (core : Nat) (c : Caps) : Nat :=
  match Tab.get none (s.core core).htab (16 * c.asid + c.cls) with
  | none => 0
  | some e => match s.group? core e.hgroup with
    | none => 0
    | some g => if g.asid = c.asid ∧ g.hgd.isSome = true then
        ((List.range g.cslots).filter fun k => (Tab.get none g.caps k).isNone).length else 0

/-- The core that a capsule arrives at: of the two of a cluster, the one with more free slots, the first when they have
the same. -/
def landing (s : State) (p : Packet) (c : Caps) (any : Bool) : Nat :=
  let a := 2 * (p.dest / 2)
  if any then (if placesFor s a c < placesFor s (a + 1) c then a + 1 else a) else p.dest

/-- No slot of the group that the enabled entry of a capsule's class names is free. -/
def noSlot (s : State) (core : Nat) (c : Caps) : Prop :=
  ∀ e g, Tab.get none (s.core core).htab (16 * c.asid + c.cls) = some e → e.en = true →
    s.group? core e.hgroup = some g → g.asid = c.asid → g.hgd.isSome = true → ∀ k < g.cslots, Tab.get none g.caps k ≠ none

/-- A capsule's record in an overflow ring (R297): the header of its packet, zeros, and the image. -/
def capsuleRecord (core : Nat) (c : Caps) : List Byte :=
  [3, BitVec.ofNat 8 core, BitVec.ofNat 8 (c.cls + if c.wk then 16 else 0), BitVec.ofNat 8 c.prev] ++
    bytesLE 2 c.asid ++ bytesLE 2 (128 + 256 * c.len) ++ [BitVec.ofNat 8 c.wslot, BitVec.ofNat 8 c.vc] ++ bytesLE 2 c.seq ++
    List.replicate 20 0 ++ List.replicate 32 0 ++ c.image

/-- An event waits for a wave of a handler group: the oldest queued message of a class, a capsule in a slot that nobody
owns and that is not on its way out, or a batch; each of a class whose enabled entry names the group (R169). -/
def WaitsFor (s : State) (g : Group) (e : Ev) : Prop :=
  (match e with
    | .msg m => m.cls < 16 ∧ (s.core g.core).inq.find? (fun x => x.asid == g.asid && x.cls == m.cls) = some m
    | .caps k x => (k, some x) ∈ g.caps ∧ x.owner = none ∧ x.out = none
    | .batch b => b ∈ (s.core g.core).batches ∧ b.asid = g.asid) ∧
  ∃ h, Tab.get none (s.core g.core).htab (16 * g.asid + e.cls) = some h ∧ h.en = true ∧ h.hgroup = g.gslot

/-- PRIO of the entry of a class. -/
def prioOf (s : State) (g : Group) (cls : Nat) : Nat :=
  match Tab.get none (s.core g.core).htab (16 * g.asid + cls) with
  | some h => h.prio.toNat
  | none => 0

/-- An event goes before another: the higher PRIO, then the lower class, then the earlier arrival (R169). -/
def goesFirst (s : State) (g : Group) (a b : Ev) : Prop :=
  prioOf s g b.cls < prioOf s g a.cls ∨ (prioOf s g b.cls = prioOf s g a.cls ∧
    (a.cls < b.cls ∨ (a.cls = b.cls ∧ a.arr < b.arr)))

/-- The slot that a capsule of a context and a class takes on a core: the lowest free one of the group that the enabled
entry of its class names (R296). -/
def TakesSlot (s : State) (core : Nat) (c : Caps) (g : Group) (k : Nat) : Prop :=
  s.group? core g.gslot = some g ∧ g.core = core ∧ g.wf = true ∧ g.hgd.isSome = true ∧ g.asid = c.asid ∧ core < 160 ∧
    g.gslot < 32 ∧ g.localkb ≤ 256 ∧ 4352 * g.cslots ≤ 1024 * g.localkb ∧ c.len ≤ 16 ∧
    (∃ e, Tab.get none (s.core core).htab (16 * c.asid + c.cls) = some e ∧ e.en = true ∧ e.hgroup = g.gslot) ∧
    k < g.cslots ∧ Tab.get none g.caps k = none ∧ ∀ i < k, Tab.get none g.caps i ≠ none

end Sys2Proof.Claims

section

open Sys2Proof Sys2Proof.Machine Sys2Proof.Claims

/-- R273, R279, R282, R283, R287, R393: a message that arrives is queued when it may be, else written to its overflow ring,
else refused, and its sender is answered; mail enters the mailbox of its service core; a wake writes group-local memory
and counts bytes off a barrier; an answer ends a send; a retry is sent again; a record of a ring moves up.
Readings of the model in it: log entries 45, 46 and 86. -/
def Obligations.MessageArrivals : Prop :=
  (∀ s p m cmd, Arrives s p → p.body = .msg m cmd →
    (∀ r ∈ (assoc (s.core p.dest).ovf m.asid).getD [], ∀ x, r.msg = some x → x.cls ≠ m.cls) →
    (mayQueue s p.dest m → ∃ t n id, exec (.messageArrival 0) s = .next t ∧ t.mem = s.mem ∧
      (t.core p.dest).inq = (s.core p.dest).inq ++ [{ m with arr := n }] ∧ t.net = s.net.tail ++ [answerTo p id cmd 0]) ∧
    (∀ x, ¬ mayQueue s p.dest m → s.ctx? m.asid = some x → assoc (s.core p.dest).ovf m.asid = none →
      let base := x.movbase + p.dest * x.ovkb * 1024
      let b := overflowRecord p m
      (b.length ≤ 1024 * x.ovkb → Memory.wf s.mem → Unwatched s base b.length → inDev base = true →
        m.payload.length ≤ 4096 → ∃ t id, exec (.messageArrival 0) s = .next t ∧ Wrote s t base b ∧
          t.net = s.net.tail ++ [answerTo p id cmd 1] ∧
          (t.core p.dest).inq = (s.core p.dest).inq) ∧
      (1024 * x.ovkb < b.length → ∃ t id, exec (.messageArrival 0) s = .next t ∧ t.mem = s.mem ∧ t.cores = s.cores ∧
        t.net = (if (s.sends.any fun y => y.cmd == cmd && y.retry) = true then [{ p with hold := true, notBefore := 0 }] else [])
          ++ s.net.tail ++ [answerTo p id cmd 2]))) ∧
  (∀ s p kind core slot asid body, Arrives s p → p.body = .mail kind core slot asid body → (s.core p.dest).mailWait = [] →
    ∃ t, exec (.messageArrival 0) s = .next t ∧ t.net = s.net.tail ∧
      (if (s.core p.dest).mail.length < 64 then (t.core p.dest).mail = (s.core p.dest).mail ++ [⟨kind, core, slot, asid, body⟩]
       else (t.core p.dest).mailWait = [⟨kind, core, slot, asid, body⟩])) ∧
  (∀ s p cmd v core x, (∃ rest, s.net = p :: rest ∧ ∀ q ∈ rest, q.id ≠ p.id) → p.body = .reply cmd v core →
    s.sends.find? (fun y => y.cmd == cmd) = some x → x.mcast = false → x.left = 1 → x.worst = 0 →
    (v = 2 ∧ x.retry = true → ∃ t, exec (.sendReply 0) s = .next t ∧ t.waves = s.waves ∧ t.sends = s.sends ∧
      t.net = s.net.tail.map fun q => match q.body with
        | .msg _ c =>
          if c = cmd ∧ q.dest = core ∧ q.hold = true ∧ q.notBefore = 0 then { q with notBefore := s.clock + 64 } else q
        | _ => q) ∧
    ((v = 2 → x.retry = false ∧ x.dst ≠ 0) → ∃ t, exec (.sendReply 0) s = .next t ∧ t.net = s.net.tail ∧
      t.sends = s.sends.filter (fun y => y.cmd != cmd) ∧ RepliesAt s t x.core x.slot cmd (BitVec.ofNat 32 v))) ∧
  (∀ s k p, s.net[k]? = some p →
    exec (.linkReplay k) s = .next { s with
      net := s.net.map fun q => if q.id = p.id then { q with replays := q.replays + 1 } else q } ∧
    (p.hold = true → p.notBefore ≠ 0 → p.notBefore ≤ s.clock → exec (.sendRetry k) s = .next { s with
      net := s.net.filter (fun q => q.id != p.id) ++ [{ p with hold := false, notBefore := 0 }] })) ∧
  (∀ s p gslot bar off bs cmd lid gang handler x g, Arrives s p →
    p.body = .wake gslot bar off bs cmd lid gang handler → s.sends.find? (fun y => y.cmd == cmd) = some x → x.mcast = false →
    s.group? p.dest gslot = some g → g.wf = true → p.dest < 160 → gslot < 32 → g.localkb ≤ 256 →
    let mayWake := g.lid = lid ∧ (handler = true ∨ (g.hgd = none ∧ g.gang = gang)) ∧ bar < g.bars ∧
      off + bs.length ≤ 1024 * g.localkb
    let left : Int := (Tab.get ({} : Barrier) g.barriers bar).bytes - (bs.length : Int)
    (mayWake → -2 ^ 35 ≤ left → ∃ t g', exec (.wakeArrival 0) s = .next t ∧ t.mem = s.mem ∧ t.net = s.net.tail ∧
      RepliesAt s t x.core x.slot cmd 0 ∧ t.group? p.dest gslot = some g' ∧ (Tab.get ({} : Barrier) g'.barriers bar).bytes = left ∧
      ∀ a, Tab.get 0 g'.loc a = if off ≤ a ∧ a < off + bs.length then bs.getD (a - off) 0 else Tab.get 0 g.loc a) ∧
    (¬ mayWake → ∃ t, exec (.wakeArrival 0) s = .next t ∧ t.groups = s.groups ∧ t.net = s.net.tail ∧ RepliesAt s t x.core x.slot cmd 3)) ∧
  (∀ s core asid cls recs r m, s.tabs = true → assoc (s.core core).ovf asid = some recs →
    recs.find? (fun y => match y.msg with
      | some x => x.cls == cls
      | none => false) = some r → r.msg = some m → mayQueue s core m →
    ∃ t, exec (.overflowRecordMove core asid cls) s = .next t ∧ t.mem = s.mem ∧
      (t.core core).inq = (s.core core).inq ++ [m] ∧
      assoc (t.core core).ovf asid = some ((recs.erase r).dropWhile fun y => y.msg.isNone && y.caps.isNone))

/-- R169, R275, R288, R298, R432: a handler group with a free slot, whose ended waves have nothing outstanding, starts a wave
for the first of the events that wait for it, by priority, class and arrival; the wave begins at the PC of its entry,
after an acquire. The wave of a message has its registers, and the wave of a capsule in a slot, which it then owns.
Readings of the model in it: log entry 43. -/
def Sys2Proof.Claims.HandlerWaves : Prop :=
  (∀ s core gslot g slot e h, s.tabs = true → s.group? core gslot = some g → g.wf = true → g.hgd.isSome = true →
    isService core = false → s.runsOn g.asid core = true → s.endedGrps g = [] →
    g.slots.find? (fun k => s.slotFree core k) = some slot →
    WaitsFor s g e → (∀ e', WaitsFor s g e' → e' ≠ e → goesFirst s g e e') →
    Tab.get none (s.core core).htab (16 * g.asid + e.cls) = some h →
    ∃ t w, exec (.handlerWaveStart core gslot) s = .next t ∧ t.wave? core slot = some w ∧ w.kind = .handler ∧
      w.gslot = gslot ∧ w.paths.map (fun p => p.pc) = [h.pc] ∧ w.prio = h.prio ∧ w.fpcr = g.fpcr ∧
      (∀ m, e = .msg m → (t.core core).inq = (s.core core).inq.erase m ∧ (t.core core).l1 = []) ∧
      (∀ k x, e = .caps k x → (t.core core).l1 = [] ∧ ∃ g', t.group? core gslot = some g' ∧
        Tab.get none g'.caps k = some { x with owner := some slot }) ∧
      (∀ b, e = .batch b → (t.core core).batches = (s.core core).batches.erase b ∧
        w.live &&& ~~~w.helper = maskOf fun l => decide (l < b.n))) ∧
  (∀ s g e m slot, HandlerFree s g e m.cls slot → (s.core g.core).inq = [m] → g.caps = [] → m.asid = g.asid → m.cls < 16 →
    m.payload.length % 4 = 0 →
    let top := if m.long then 8 + (m.payload.length / 4 + 31) / 32 else 0
    let info := m.src + 256 * m.cls + (if m.long then 2 ^ 12 else 0) + (if 8 * g.blocks < top then 2 ^ 13 else 0) +
      2 ^ 16 * m.payload.length
    let word (k : Nat) : Word := BitVec.ofNat 32 (leNat ((m.payload.drop (4 * k)).take 4))
    ∃ t w, exec (.handlerWaveStart g.core g.gslot) s = .next t ∧ t.waves = s.waves ++ [w] ∧ (t.core g.core).inq = [] ∧
      (t.core g.core).l1 = [] ∧ w = { handlerWave g e slot w.g w.w with born := w.born } ∧ w.wf = true ∧
      w.readW 1 = BitVec.ofNat 32 info ∧ w.readW2 2 = argsOf s g ∧
      (m.long = false → m.payload.length = 64 → w.g = [] ∧ ∀ k < 16, w.readW (BitVec.ofNat 6 (16 + k)) = word k) ∧
      (m.long = true → (∀ r, 4 ≤ r → r < 64 → w.readW (BitVec.ofNat 6 r) = 0) ∧
        ∀ r < 64, ∀ l < 32, w.readG (BitVec.ofNat 6 r) l =
          if 8 ≤ r ∧ r < 8 * g.blocks ∧ 32 * (r - 8) + l < m.payload.length / 4 then word (32 * (r - 8) + l) else 0)) ∧
  (∀ s g e x k slot, HandlerFree s g e x.cls slot → (s.core g.core).inq = [] → g.caps = [(k, some x)] → x.owner = none →
    x.out = none → x.index ≤ 8 →
    let stop := imageStop g (slotAt g k) x.index
    let done := x.count ≤ x.index
    let info := k + 16 * x.index + 256 * x.count + 2 ^ 12 * x.cls + 2 ^ 16 * x.len + if x.flags.getLsbD 2 then 2 ^ 21 else 0
    ∃ t w, exec (.handlerWaveStart g.core g.gslot) s = .next t ∧ t.waves = s.waves ++ [w] ∧ (t.core g.core).l1 = [] ∧
      t.group? g.core g.gslot = some { g with caps := [(k, some { x with owner := some slot })] } ∧
      w = { handlerWave g e slot [] w.w with born := w.born } ∧ w.readW 1 = BitVec.ofNat 32 info ∧ w.readW2 2 = x.id ∧
      w.readW 4 = (if done then 0 else BitVec.ofNat 32 (stop.toNat / 2 ^ 16 % 2 ^ 16)) ∧
      w.readW 5 = (if done then 0 else BitVec.ofNat 32 (stop.toNat / 2 ^ 32)) ∧ w.readW 6 = BitVec.ofNat 32 (slotAt g k) ∧
      w.readW 7 = BitVec.ofNat 32 x.origin ∧ w.readW 8 = BitVec.ofNat 32 x.flags.toNat ∧ w.readW2 10 = argsOf s g)

/-- R295, R296, R297, R305: a capsule whose image is good arrives: it takes the lowest free slot of the handler group of its
class, unless others of its class wait before it; without a slot it waits in the hold when that has room; else, and
when its context does not stand on the core, it goes to the overflow ring. One that waits takes a slot when there is
one, the oldest of its class first.
Readings of the model in it: log entries 43 and 86. -/
def Sys2Proof.Claims.CapsuleArrivals : Prop :=
  (∀ s0 p c0 any s c, Comes s0 p → p.body = .caps c0 any → ReadOut s0 p c0 s c → c.good = true → c.len ≤ 16 →
    (∀ x ∈ s.cmds, ¬ (x.core = p.src ∧ x.slot = p.slot ∧ x.maj = 0x3D ∧ x.fn = 7 ∧ x.id < p.id)) →
    let core := landing s p c any
    let b := capsuleRecord core (arrived p c)
    (∀ g k, ¬ behindOthers s core c → TakesSlot s core c g k → ∃ t, exec (.capsuleArrival 0) s0 = .next t ∧
      t.net = s.net.tail ∧ Took s t g k (arrived p c)) ∧
    (standsOn s core c.asid → ¬ behindOthers s core c → noSlot s core c → holdRoom s core c →
      ∃ t, exec (.capsuleArrival 0) s0 = .next t ∧ t.net = s.net.tail ∧ t.groups = s.groups ∧
        (t.core core).held = (s.core core).held ++ [arrived p c]) ∧
    (∀ x, (¬ standsOn s core c.asid ∨ behindOthers s core c ∨ (noSlot s core c ∧ ¬ holdRoom s core c)) →
      s.ctx? c.asid = some x → assoc (s.core core).covf c.asid = none → b.length ≤ 1024 * x.covkb →
      let base := x.covbase + core * x.covkb * 1024
      Memory.wf s.mem → Unwatched s base b.length → inDev base = true → inDev (base + b.length) = true →
      ∃ t, exec (.capsuleArrival 0) s0 = .next t ∧ t.net = s.net.tail ∧ t.groups = s.groups ∧ Wrote s t base b ∧
        assoc (t.core core).covf c.asid = some [⟨0, b.length, none, some (arrived p c), false⟩])) ∧
  (∀ s core c j g k, s.tabs = true → (waitingAt s core)[j]? = some c →
    (∀ x ∈ (waitingAt s core).take j, ¬ (x.asid = c.asid ∧ x.cls = c.cls)) →
    ((s.core core).covf.map fun e => e.1).Nodup →
    (∀ e ∈ (s.core core).covf, ∀ r ∈ e.2, ∀ x, r.caps = some x → x.asid = e.1) → TakesSlot s core c g k →
    ∃ t, exec (.capsuleSlotEntry core j) s = .next t ∧ waitingAt t core = (waitingAt s core).eraseIdx j ∧ Took s t g k c)

end

/-! ## Launches, groups and tasks -/

namespace Sys2Proof.Claims

open Sys2Proof.Machine

/-- The helper lanes of a wave that starts with a mask: the other lanes of its quads (R20). -/
def helpersOf (m : Lanes) : Lanes :=
  BitVec.ofNat 32 ((List.range 32).map fun l =>
    if !m.getLsbD l && ([0, 1, 2, 3].any fun k => m.getLsbD (l / 4 * 4 + k)) then 2 ^ l else 0).sum

/-- A wave as it starts, but for its w registers (R159). -/
def startedWave (core slot gslot idx : Nat) (kind : WKind) (m : Lanes) (pc : DWord) (prio : BitVec 2) (fpcr : Word)
    (ws : Tab Word) : Wave :=
  { core, slot, gslot, idx, kind, w := ws, live := m ||| helpersOf m, helper := helpersOf m
    paths := [{ pc, join := BitVec.allOnes 64, mask := m ||| helpersOf m, made := 0 }], fpcr, prio }

/-- The g, w and predicate registers of a wave hold zero but for some w registers. -/
def onlyW (w : Wave) (vals : List (Nat × Word)) : Prop :=
  w.wf = true ∧ w.g = [] ∧ w.p = [] ∧ ∀ r < 64, w.readW (BitVec.ofNat 6 r) = (vals.lookup r).getD 0

/-- The words of a pair. -/
def pairWords (r : Nat) (v : DWord) : List (Nat × Word) :=
  [(r, BitVec.ofNat 32 v.toNat), (r + 1, BitVec.ofNat 32 (v.toNat / 2 ^ 32))]

/-- The group that the only gang of a launch of one group gets on an idle device (R19, R166, Table 7-4). -/
def firstGroup (l : Launch) : Group :=
  let r := l.recd
  { core := 0, gslot := 0, lid := l.lid, asid := r.asid, hgd := none, index := 0, gang := 0, waves := r.waves
    taskw := r.taskw, blocks := r.blocks, bars := r.bars, localkb := r.localkb, cslots := r.cslots, fpcr := r.fpcr
    prio := r.prio, slots := (List.range (r.waves + r.taskw)).map fun i => 16 * (i % 8) + i / 8, checked := r.checked
    part := r.part }

/-- A deque entry that a group may run (R173). -/
def mayRunTask (g : Group) (t : Task) : Prop :=
  t.lid = g.lid ∧ t.asid = g.asid ∧ (t.glob = true ∨ t.gslot = g.gslot)

/-- The group has a free task-wave slot, at an index, and the ones before it are taken (R173). -/
def TaskSlot (s : State) (g : Group) (slot idx : Nat) : Prop :=
  g.waves ≤ idx ∧ g.slots[idx]? = some slot ∧ s.wave? g.core slot = none ∧
    ∀ i k, g.waves ≤ i → i < idx → g.slots[i]? = some k → ∃ w, s.wave? g.core k = some w ∧ w.stat ≠ .ended

end Sys2Proof.Claims

section

open Sys2Proof Sys2Proof.Machine Sys2Proof.Claims

/-- R144, R159 to R168: a gang that has waited 2^20 cycles reserves; a gang of one group on an idle device takes core 0, its
wave slots dealt over the partitions, and its waves start with ARGS; a launch with nothing left is complete, and its DONE
word is written; the resources of a group that has ended are free.
Readings of the model in it: log entries 39 and 85. -/
def Obligations.LaunchSteps : Prop :=
  (∀ s lid l, s.launch? lid = some l → s.eligible l = true →
    exec (.reservingGang lid) s = .next (if l.since + 2 ^ 20 ≤ s.clock then
      { s with launches := s.launches.map fun k => if k.lid = lid then { k with reserving := true } else k } else s)) ∧
  (∀ s l, s.tabs = true → s.launches = [l] → s.groups = [] → s.waves = [] → s.saved = [] → s.parts = [] → s.slots = [] →
    s.dleft = [] → l.needs = [] → l.next = 0 → l.lastCore = none → l.hgroups = [] → l.prior ≠ l.lid →
    let r := l.recd
    s.runs r.asid 0 = true → r.part = 0 → r.gang = 1 → r.hgds = [] → r.dslots = 0 → r.gx * r.gy * r.gz ≠ 0 →
    r.waves + r.taskw ≤ 32 → r.blocks ≤ 8 → r.bars ≤ 16 → r.localkb ≤ 256 → r.cslots ≤ 16 →
    ∃ t, exec (.gangPlacement l.lid) s = .next t ∧ t.mem = s.mem ∧ t.groups = [{ firstGroup l with gid := s.nextId }] ∧
      t.launches = [{ l with next := 1, since := s.clock, reserving := false, freed := [], lastCore := some 0 }] ∧ (t.core 0).l1 = [] ∧
      t.waves.length = r.waves ∧ ∀ i < r.waves, ∃ w, t.waves[i]? = some w ∧ onlyW w (pairWords 2 r.args) ∧
        w = { startedWave 0 (16 * (i % 8) + i / 8) 0 i .launched (BitVec.allOnes 32) r.entry r.prio r.fpcr w.w with born := w.born }) ∧
  (∀ s lid l, s.tabs = true → s.launch? lid = some l → l.next = l.gangs → (∀ g ∈ s.groups, g.lid ≠ lid) →
    (∀ v ∈ s.saved, ∀ g ∈ v.groups, g.lid ≠ lid) → (∀ w ∈ s.waves, isService w.core = true ∨ s.lidOf w ≠ lid) →
    (∀ e ∈ s.cores, (∀ x ∈ e.2.copies, x.lid ≠ lid) ∧ (∀ x ∈ e.2.trp.threads, x.lid ≠ lid) ∧
      ∀ x ∈ e.2.trp.queue, x.lid ≠ lid) →
    (∀ e ∈ s.clusters, ∀ f ∈ e.2.fctx, ∀ m ∈ f.inbox, m.lid ≠ lid) → (∀ x ∈ s.cmds, x.lid ≠ lid) →
    (∀ x ∈ s.sends, x.lid ≠ lid) →
    (l.recd.done = 0 → ∃ t, exec (.launchCompletion lid) s = .next t ∧ t.mem = s.mem ∧ t.waves = s.waves ∧
      t.groups = s.groups ∧ t.launches = s.launches.filter (fun k => k.lid != lid) ∧
      ∀ c, (t.core c).deque = (s.core c).deque.filter fun x => x.lid != lid) ∧
    (∀ pa, l.recd.done ≠ 0 → s.walkTo l.recd.asid 3 l.recd.done = some pa → inDev pa = true →
      Memory.wf s.mem → Unwatched s pa 8 → ∃ t, exec (.launchCompletion lid) s = .next t ∧ Wrote s t pa (bytesLE 4 lid ++ bytesLE 4 0) ∧
        t.launches = s.launches.filter fun k => k.lid != lid)) ∧
  (∀ s core gslot g, s.tabs = true → s.group? core gslot = some g → g.ended = true → s.groupIdle g = true →
    ∃ t, exec (.groupResourceRelease core gslot) s = .next t ∧ t.mem = s.mem ∧
      t.groups = s.groups.filter (fun x => decide (¬ (x.core = core ∧ x.gslot = gslot))) ∧
      t.waves = s.waves.filter (fun w => decide (¬ (w.core = core ∧ w.gslot = gslot))) ∧
      (t.core core).trp.arms = (s.core core).trp.arms.filter fun a => a.gslot != gslot)

/-- R172 to R175: a free task-wave slot takes the newest entry that its group may run; a free slot without an entry that its
group may run takes the oldest FORK.G entry of the other core of the cluster, which starts there, and in a partition none;
entries that the hawker ships come to the oldest end, and each takes the lowest free entry of the deque area.
Readings of the model in it: log entry 104. -/
def Obligations.TaskSteps : Prop :=
  (∀ s core gslot g l x pre post slot idx, s.tabs = true → s.group? core gslot = some g → g.hgd = none → g.ended = false →
    s.runsOn g.asid core = true → s.launch? g.lid = some l → (s.core core).deque = pre ++ x :: post → mayRunTask g x →
    (∀ y ∈ post, ¬ mayRunTask g y) → x.needs = [] → TaskSlot s g slot idx → x.wblk.length = 8 →
    ∃ t w, exec (.taskWaveStart core gslot) s = .next t ∧ t.mem = s.mem ∧ (t.core core).deque = pre ++ post ∧
      (t.core core).l1 = [] ∧ t.waves = s.waves ++ [w] ∧
      w = { startedWave core slot gslot idx (.task x.join x.lid) x.mask x.pc g.prio g.fpcr w.w with born := w.born } ∧
      onlyW w (pairWords 2 l.recd.args ++ x.wblk.zipIdx.map fun e => (8 + e.2, e.1))) ∧
  (∀ s core lid g l slot idx x pre post, s.tabs = true → isService core = false → s.group? core g.gslot = some g →
    g.core = core → g.lid = lid → g.hgd = none → g.ended = false → s.runsOn g.asid core = true → TaskSlot s g slot idx →
    (∀ h ∈ s.groups, h.core = core → h.lid = lid → h.hgd = none → h = g) → s.launch? lid = some l →
    (∀ y ∈ (s.core core).deque, ¬ mayRunTask g y) → x.needs = [] → x.wblk.length = 8 →
    let other := if core % 2 = 0 then core + 1 else core - 1
    (s.core other).deque = pre ++ x :: post → x.glob = true → x.lid = lid → (∀ y ∈ pre, ¬ (y.glob = true ∧ y.lid = lid)) →
    ∃ t, exec (.dequeSteal core lid) s = .next t ∧
      if Tab.get 0 s.parts (core / 2) = 0 then
        (t.core core).deque = (s.core core).deque ∧ (t.core other).deque = pre ++ post ∧ (t.core core).l1 = [] ∧
          ∃ w, t.waves = s.waves ++ [w] ∧
            w = { startedWave core slot g.gslot idx (.task x.join x.lid) x.mask x.pc g.prio g.fpcr w.w with born := w.born } ∧
            onlyW w (pairWords 2 l.recd.args ++ x.wblk.zipIdx.map fun e => (8 + e.2, e.1))
      else t = s) ∧
  (∀ s cluster, Tab.get 0 s.parts cluster ≠ 0 → exec (.hawkerInterval cluster) s = .next s) ∧
  (∀ (s : State) (cluster : Nat) (l : Launch), s.tabs = true → s.parts = [] → cluster < 80 → s.launches = [l] → s.runs l.recd.asid 0 = true →
    (s.core (2 * cluster + 1)).deque = [] → s.net = [] → s.cmds = [] →
    (∃ g ∈ s.groups, g.core = 2 * cluster + 1 ∧ g.lid = l.lid ∧ g.hgd = none) →
    (∀ g ∈ s.groups, g.lid = l.lid → g.hgd = none → g.core ≤ 2 * cluster + 1 ∧ 2 * cluster ≤ g.core) →
    let lvl : Nat := if l.recd.lvl = 0 then 12 else l.recd.lvl
    let mine := (s.core (2 * cluster)).deque.filter fun x => x.glob && x.lid == l.lid
    let n : Nat := min 32 (mine.length / 2)
    mine.Nodup → ∃ t, exec (.hawkerInterval cluster) s = .next t ∧
      if s.clock % 2 ^ lvl = 0 ∧ n ≠ 0 then
        (∃ m, t.net = [m] ∧ m.dest = 2 * cluster + 1 ∧ m.body = .ship (mine.take n)) ∧
          (t.core (2 * cluster)).deque = (s.core (2 * cluster)).deque.filter fun x => !(mine.take n).contains x
      else t = s) ∧
  (∀ s p ts, s.tabs = true → (∃ rest, s.net = p :: rest ∧ ∀ q ∈ rest, q.id ≠ p.id) → p.body = .ship ts → p.notBefore ≤ s.clock →
    let old := (s.core p.dest).deque
    let kept := ts.filter fun x => s.launches.any fun l => l.lid == x.lid
    ∃ t qs, exec (.dequeShipmentArrival 0) s = .next t ∧ t.net = s.net.tail ∧ (t.core p.dest).deque = qs ++ old ∧
      qs.map (fun x => { x with place := 0 }) = kept.map (fun x => { x with place := 0 }) ∧
      (old.length + kept.length ≤ 512 → ∀ i q, qs[i]? = some q → q.place < 512 ∧
        (∀ y ∈ old ++ qs.take i, y.place ≠ q.place) ∧ ∀ k < q.place, ∃ y ∈ old ++ qs.take i, y.place = k) ∧
      ∀ c, old.length + kept.length ≤ 512 → (∀ x ∈ kept, s.ctx? x.asid = some c ∧ x.wblk.length = 8) →
        inDev (c.deque + 32768 * p.dest) = true → inDev (c.deque + 32768 * p.dest + 32767) = true → Memory.wf s.mem →
        Unwatched s (c.deque + 32768 * p.dest) 32768 →
        ∀ q ∈ qs, t.mem.read (c.deque + 32768 * p.dest + 64 * q.place) 64 = taskBytes q)

end

/-! ## Pre-emption, replay and termination -/

namespace Sys2Proof.Claims

open Sys2Proof.Machine

/-- A group that has come to rest: its waves wait at switch points or at joins with nothing outstanding, and its core,
its cluster and the network hold nothing of it (R177). -/
structure AtRest (s : State) (c : Ctx) (g : Group) : Prop where
  tabs : s.tabs = true
  ctx : s.ctx? g.asid = some c
  alive : c.killed = none
  group : s.group? g.core g.gslot = some g
  simd : isService g.core = false
  on : g.ended = false
  part : g.part = 0
  caps : g.caps = []
  waves : ∀ w ∈ s.waves, w.core = g.core → w.gslot = g.gslot →
    (∃ va l pc, w.stat = .join va l pc) ∧ w.pend = [] ∧ w.streams = [] ∧ w.behind = []
  sq : (s.core g.core).sq = []
  recs : (s.core g.core).recs = []
  copies : (s.core g.core).copies = []
  trp : ∀ e ∈ s.cores, e.2.trp.threads = []
  fctx : ∀ f ∈ (s.cluster (clusterOf g.core)).fctx, f.owner = none ∧ f.inbox = []
  cmds : s.cmds = []
  sends : s.sends = []
  net : s.net = []
  fits : s.saveOk c g = true

/-- The only group of a unit of saving has left its core and is saved (R177, R265). -/
def IsSaved (s t : State) (g : Group) (missing : Bool) : Prop :=
  let mine (w : Wave) : Bool := w.core == g.core && w.gslot == g.gslot
  ∃ v, t.saved = s.saved ++ [v] ∧ v.missing = missing ∧ v.lid = g.lid ∧ v.asid = g.asid ∧ v.gang = g.gang ∧
    v.groups = [g] ∧ v.waves = s.waves.filter mine ∧ v.copies = [] ∧ v.fctxs = [] ∧
    t.groups = s.groups.filter (fun x => decide (¬ (x.core = g.core ∧ x.gslot = g.gslot))) ∧
    t.waves = s.waves.filter fun w => !mine w

/-- The contexts with one changed. -/
def withCtx (s : State) (c : Ctx) : State :=
  { s with ctxs := s.ctxs.map fun x => if x.asid = c.asid then c else x }

end Sys2Proof.Claims

section

open Sys2Proof Sys2Proof.Machine Sys2Proof.Claims

/-- R177, R178, R265, R266: a pre-emption stops the context, and saves each gang that has come to rest; a gang with missing
translations all of whose waves wait is switched out; what is saved comes back to its slots when its context runs and
nothing is missing; a record that has been answered is replayed once.
Readings of the model in it: log entries 57 and 58. -/
def Obligations.PreemptionSteps : Prop :=
  (∀ s asid c, s.ctx? asid = some c → c.killed = none → c.out = false →
    exec (.preemption asid) s = .next (withCtx s { c with out := true })) ∧
  (∀ s c g, AtRest s c g → c.out = true → (∀ h ∈ s.groups, h.asid = g.asid → h = g) → s.groups.Nodup →
    ∃ t, exec (.preemption g.asid) s = .next t ∧ IsSaved s t g false) ∧
  (∀ s asid c, s.ctx? asid = some c → c.killed = none → c.out = true → (∀ g ∈ s.groups, g.asid ≠ asid) →
    (∀ v ∈ s.saved, v.asid ≠ asid) → (∀ e ∈ s.cores, ∀ x ∈ e.2.trp.threads, x.asid ≠ asid) →
    exec (.preemption asid) s = .next (withCtx s { c with out := false })) ∧
  (∀ s c g, AtRest s c g → g.hgd = none → g.missing ≠ 0 → (∀ h ∈ s.groups, h.lid = g.lid → h.gang = g.gang → h = g) →
    s.groups.Nodup → ∃ t, exec (.gangSwitchOut g.lid g.gang) s = .next t ∧ IsSaved s t g true) ∧
  (∀ s lid gang, (∀ g ∈ s.groups, g.lid = lid → g.gang = gang → g.missing = 0) →
    exec (.gangSwitchOut lid gang) s = .next s) ∧
  (∀ s c v g, s.tabs = true → s.saved = [v] → v.groups = [g] → v.fctxs = [] → v.copies = [] → v.erets = [] →
    v.gang ≠ 0xFFFFFFFF → Tab.get 0 s.parts (clusterOf g.core) = g.part → (∀ w ∈ v.waves, w.behind = [] ∧ w.core = g.core) → ((v.waves.map fun w => w.slot).Nodup) →
    s.ctx? v.asid = some c → c.killed = none → s.groups = [] → s.waves = [] → g.localkb ≤ 256 → g.bars ≤ 256 →
    g.cslots ≤ 16 → (∀ p < 8, g.blocks * (g.slots.filter fun k => k / 16 = p).length ≤ 96) →
    if v.missing = true ∧ g.missing ≠ 0 then exec (.gangResume 0) s = .next s
    else ∃ t, exec (.gangResume 0) s = .next t ∧ t.mem = s.mem ∧ t.groups = [g] ∧ t.waves = v.waves ∧ t.saved = [] ∧
      t.ctx? v.asid = some { c with out := false }) ∧
  (∀ s r w a d part path word len pa how, s.tabs = true → isService r.core = false → (s.core r.core).recs = [r] → r.src = 0 →
    r.slot ≠ 256 → r.frozen = false → r.ready = true → r.fail = none → s.wave? r.core r.slot = some w → r.accs = [a] →
    a.kind = .load len false → a.lane < 32 → w.pend = [⟨d, .held a.grp a.va part, path, word⟩] → (∀ l, d.lane? = some l → l = a.lane) → w.acq = [] → w.excs = [] →
    (∀ v ∈ s.waves, v.behind = []) → s.cmds = [] → (s.core r.core).parking = [] →
    Translates s w { r := true } a.va pa how → inDev pa = true →
    ∃ t, exec (.faultReplay r.core 0 r.idx) s = .next t ∧ t.mem = s.mem ∧ (t.core r.core).recs = [] ∧
      t.wave? r.core r.slot = some { w with
        pend := [⟨d, .mem a.grp a.va a.pc pa len how part, path, word⟩], stat := if w.stat = .stall then .run else w.stat }) ∧
  (∀ s r x, s.tabs = true → (s.core r.core).recs = [r] → r.src = 1 → r.ready = true → r.fail = none →
    isService r.core = false → (s.core r.core).copies = [x] → (∃ a ∈ r.accs, a.grp = x.id) →
    exec (.faultReplay r.core 1 r.idx) s = .next (s.modCore r.core fun c => { c with
      recs := [], copies := [{ x with held := false }] }))

/-- R155, R156, R405, R407, R437: the watchdog, poisoned bytes and the host stop a context with a cause, and the service
cores where its groups stand are told; a stopped context whose waves have parked loses its groups and launches;
uncorrectable bytes of memory are poisoned, and reported by vector 16 when they belong to no context; so is a register of a
wave, which the numbers from 2^60 on name.
Readings of the model in it: log entries 63, 64 and 73. -/
def Obligations.Terminations : Prop :=
  (∀ s asid c cause i, s.ctx? asid = some c → c.killed = none → (∃ g ∈ s.groups, g.asid = asid) →
    (i = .contextTermination asid 0x3C0 ∧ cause = 0x3C0 ∨
      i = .softError asid ∧ cause = 0x3C3 ∧ c.soft = true ∨
      i = .watchdogExpiry asid ∧ cause = 0x3C2 ∧ (∃ l ∈ s.launches, l.recd.asid = asid ∧
        2 ^ (if l.recd.wdog = 0 then 32 else l.recd.wdog) ≤ c.wdog)) →
    ∃ t, exec i s = .next t ∧ t.mem = s.mem ∧ t.waves = s.waves ∧ t.groups = s.groups ∧
      t.ctx? asid = some { c with killed := some cause, soft := if cause = 0x3C3 then false else c.soft } ∧
      (∀ g ∈ s.groups, g.asid = asid → ∃ p ∈ t.net, p.dest = 160 + clusterOf g.core ∧
        p.body = .mail 4 244 0 asid (bytesLE 2 cause.toNat ++ List.replicate 30 0)) ∧
      ∀ p ∈ t.net, p ∉ s.net → ∃ g ∈ s.groups, g.asid = asid ∧ p.dest = 160 + clusterOf g.core) ∧
  (∀ s asid c, s.ctx? asid = some c →
    (c.soft = false → exec (.softError asid) s = .next s) ∧
    ((∀ l ∈ s.launches, l.recd.asid = asid → c.wdog < 2 ^ (if l.recd.wdog = 0 then 32 else l.recd.wdog)) →
      c.wdog < 2 ^ 40 → exec (.watchdogExpiry asid) s = .next s)) ∧
  (∀ s asid c k cause, s.ctx? asid = some c → c.killed = some k → s.cores = [] → s.clusters = [] → s.net = [] → s.saved = [] →
    (∃ g ∈ s.groups, g.asid = asid) → (∀ g ∈ s.groups, g.asid = asid → g.caps = []) →
    (∀ l ∈ s.launches, l.recd.asid = asid → l.recd.done = 0 ∧ ∀ g ∈ s.groups, g.lid = l.lid → g.asid = asid) →
    ((∃ w ∈ s.waves, isService w.core = false ∧ s.asidOf w = asid ∧ w.stat = .run ∧ s.readyWave w = true) →
      exec (.contextTermination asid cause) s = .next s) ∧
    ((∀ w ∈ s.waves, isService w.core = true ∨ s.asidOf w ≠ asid ∨ ∃ va l pc, w.stat = .join va l pc) →
      ∃ t, exec (.contextTermination asid cause) s = .next t ∧ (∀ g ∈ t.groups, g.asid ≠ asid) ∧
        (∀ l ∈ t.launches, l.recd.asid ≠ asid) ∧ (∀ g ∈ s.groups, g.asid ≠ asid →
          (∀ h ∈ s.groups, h.asid = asid → ¬ (h.core = g.core ∧ h.gslot = g.gslot)) → g ∈ t.groups))) ∧
  (∀ s pa len, s.stopped = false → pa < 2 ^ 60 → ∃ t, exec (.uncorrectableError pa len) s = .next t ∧
    t = { s with poison := t.poison, out := t.out } ∧
    (∀ a, a ∈ t.poison ↔ a ∈ s.poison ∨ (pa ≤ a ∧ a < pa + len ∧ (inLocal a || inDev a || inSlice a) = true)) ∧
    ((∀ a, pa ≤ a → a < pa + len → s.ofContext a = true) → t.out = s.out) ∧
    (∀ a, pa ≤ a → a < pa + len → inDev a = true → a ∉ s.poison → s.ofContext a = false → t.out = s.out ++ [.msix 16])) ∧
  (∀ s core slot w b, s.stopped = false → isService core = false → s.wave? core slot = some w → slot < 128 → b < 8192 →
    ∃ t, exec (.uncorrectableError (2 ^ 60 + 16384 * (128 * core + slot) + b) 1) s = .next t ∧
      t = { s with waves := t.waves } ∧ t.wave? core slot = some { w with
        poison := (w.poison ++ [Dst.g (BitVec.ofNat 6 (b / 128)) (b / 4 % 32)]).eraseDups })

end

/-! ## Traversal instructions -/

namespace Sys2Proof.Claims

open Sys2Proof.Machine

/-- A thread of a TRP. -/
def threadOf (s : State) (core num : Nat) : Option Thread := (s.core core).trp.threads.find? fun x => x.num == num

/-- The thread whose instruction is under way (R357). -/
def ThreadIs (s : State) (t : Thread) : Prop := s.tabs = true ∧ threadOf s s.selCore s.selSlot = some t

/-- A thread is now `t'`, or has left its TRP; every other thread stands as it was. -/
def ThreadAt (s u : State) (core num : Nat) (t' : Option Thread) : Prop :=
  ∀ c n, threadOf u c n = if c = core ∧ n = num then t' else threadOf s c n

/-- So is the thread under way. -/
def ThreadNow (s u : State) (t' : Option Thread) : Prop := ThreadAt s u s.selCore s.selSlot t'

/-- The thread under way is now `t'`, and nothing else of the device has changed. -/
def OnlyThread (s u : State) (t' : Thread) : Prop :=
  u = { s with cores := u.cores } ∧ ThreadNow s u (some t') ∧
    ∀ c, { u.core c with trp := { (u.core c).trp with threads := [] } } =
      { s.core c with trp := { (s.core c).trp with threads := [] } }

/-- `i` changes its thread as `f` says, and nothing else, and the thread goes on with the next word. -/
def ChangesThread (i : Instr) (f : Thread → Thread) : Prop :=
  ∀ s t, ThreadIs s t → ∃ u, exec i s = .next u ∧ OnlyThread s u { f t with pc := t.pc + 1 }

/-- TALU (R367) computes as Table 3-4 does for the same names. -/
noncomputable def talus : List ((TReg → TReg → TReg → Instr) × (Word → Word → Word)) :=
  [ (.tadd, fun a b => narrow (a.toInt + b.toInt)),
    (.tsub, fun a b => narrow (a.toInt - b.toInt)),
    (.tand, fun a b => a &&& b),
    (.tor, fun a b => a ||| b),
    (.txor, fun a b => a ^^^ b),
    (.tshl, shiftLeft),
    (.tshr, shiftRight),
    (.tsra, shiftArith),
    (.tmin, fun a b => narrow (min a.toInt b.toInt)),
    (.tmax, fun a b => narrow (max a.toInt b.toInt)),
    (.tminu, fun a b => narrow (min a.toNat b.toNat : Nat)),
    (.tmaxu, fun a b => narrow (max a.toNat b.toNat : Nat)),
    (.tmul, fun a b => narrow (a.toInt * b.toInt)) ]

/-- TFALU (R367): FP32, to nearest even, subnormals kept. -/
noncomputable def tfalus : List ((TReg → TReg → TReg → Instr) × (FNum → FNum → Nat × Flags)) :=
  [ (.tfadd, fun x y => f32.add .rne false x y),
    (.tfsub, fun x y => f32.add .rne false x y.neg),
    (.tfmul, fun x y => f32.mul .rne false x y),
    (.tfmin, fun x y => f32.minmax false false x y),
    (.tfmax, fun x y => f32.minmax false true x y) ]

/-- The conditions of TBR (R368). -/
def branchHolds (c : TCond) (a b : Word) : Bool :=
  let x := f32.num a.toNat
  let y := f32.num b.toNat
  match c with
  | .eq => decide (a = b)
  | .ne => decide (a ≠ b)
  | .lt => decide (a.toInt < b.toInt)
  | .ge => decide (b.toInt ≤ a.toInt)
  | .ltu => decide (a.toNat < b.toNat)
  | .geu => decide (b.toNat ≤ a.toNat)
  | .flt => decide (x.isNaN = false ∧ y.isNaN = false ∧ FNum.cmp x y = .lt)
  | .fge => decide (x.isNaN = false ∧ y.isNaN = false ∧ FNum.cmp x y ≠ .lt)
  | .al => true

/-- A branch of `n` words from the word of a thread: it goes there, or it ends the thread with TR_PROG (R366, R368). -/
def GoesTo (i : Instr) (s : State) (t : Thread) (n : Int) : Prop :=
  if (t.pc : Int) + n < 0 then exec i s = .next (s.endFault s.selCore t 0x235 false 0)
  else ∃ u, exec i s = .next u ∧ OnlyThread s u { t with pc := ((t.pc : Int) + n).toNat }

end Sys2Proof.Claims

section

open Sys2Proof Sys2Proof.Machine Sys2Proof.Claims

/-- R366, R367, R368: TNOP, the register arithmetic and TRSR write tD and go on; TBR goes to its word when its condition
holds. Nothing else changes. -/
def Obligations.TraversalAlu : Prop :=
  (∀ (t : Thread) r r' v, Tab.wf 0 t.t = true →
    (t.write r v).read r' = if r' = r then v else t.read r') ∧
  ChangesThread .tnop (fun t => t) ∧
  (∀ e ∈ talus, ∀ d a b, ChangesThread (e.1 d a b) fun t => t.write d (e.2 (t.read a) (t.read b))) ∧
  (∀ e ∈ tfalus, ∀ d a b, ChangesThread (e.1 d a b) fun t =>
    t.write d (BitVec.ofNat 32 (e.2 (f32.num (t.read a).toNat) (f32.num (t.read b).toNat)).1)) ∧
  (∀ d a (imm : BitVec 14),
    ChangesThread (.taddi d a imm) (fun t => t.write d (narrow ((t.read a).toInt + imm.toInt))) ∧
    ChangesThread (.tandi d a imm) (fun t => t.write d (t.read a &&& narrow imm.toInt)) ∧
    ChangesThread (.tori d a imm) (fun t => t.write d (t.read a ||| narrow imm.toNat))) ∧
  (∀ d a (n : BitVec 5),
    ChangesThread (.tshli d a n) (fun t => t.write d (shiftLeft (t.read a) (n.setWidth 32))) ∧
    ChangesThread (.tshri d a n) (fun t => t.write d (shiftRight (t.read a) (n.setWidth 32))) ∧
    ChangesThread (.tsrai d a n) (fun t => t.write d (shiftArith (t.read a) (n.setWidth 32))) ∧
    ChangesThread (.troli d a n) (fun t => t.write d (rotate (t.read a) n.toNat))) ∧
  (∀ d (imm : BitVec 22), ChangesThread (.tlui d imm) fun t => t.write d (narrow (imm.toNat * 2 ^ 10 : Nat))) ∧
  (∀ d, ChangesThread (.trsrThread d) (fun t => t.write d (narrow t.num)) ∧
    ∀ e ∈ ([(.trsrReclo d, fun t => narrow t.rva.toNat), (.trsrRechi d, fun t => narrow (t.rva.toNat / 2 ^ 32 : Nat)),
        (.trsrTag d, fun t => narrow t.tag.toNat)] : List (Instr × (Thread → Word))),
      ChangesThread e.1 fun t => t.write d (if t.kind = .prefetch then 0 else e.2 t)) ∧
  (∀ c a b off s t, ThreadIs s t →
    GoesTo (.tbr c a b off) s t (if branchHolds c (t.read a) (t.read b) then off.toInt else 1))

end

namespace Sys2Proof.Claims

open Sys2Proof.Machine

/-- The TRP beside a core reads bytes of device memory at a VA, byte for byte at `pa` (R363, R255). -/
def EngineGets (s : State) (core asid : Nat) (va : DWord) (len : Nat) (pa : Nat → Nat) : Prop :=
  ∀ i < len, inDev (pa i) = true ∧ ∃ how, EngineReaches s core asid { r := true } (va + BitVec.ofNat 64 i) (pa i) how

/-- It may write them, and no watched range or ordered reduction lies there. -/
def EngineMay (s : State) (core asid : Nat) (va : DWord) (len : Nat) (pa : Nat → Nat) : Prop :=
  ∀ i < len, inDev (pa i) = true ∧ Unwatched s (pa i) 1 ∧
    ∃ how, EngineReaches s core asid { w := true } (va + BitVec.ofNat 64 i) (pa i) how

/-- The bytes of memory. -/
def bytesIn (s : State) (a : Nat) : Byte := Tab.get 0 s.mem a

/-- Bytes that stand at places. -/
def takes1 (m : Nat → Byte) (pa : Nat → Nat) (len : Nat) : List Byte := (List.range len).map fun i => m (pa i)

/-- Memory after bytes have been written, one after another. -/
def written (m : Nat → Byte) (pa : Nat → Nat) (bs : List Byte) : Nat → Byte :=
  fun a => (List.range bs.length).foldl (fun v i => if pa i = a then bs.getD i 0 else v) (m a)

/-- An instruction of a thread has read memory: the thread is now `t'`, and memory, waves, groups and what leaves the
device are unchanged. -/
def HasRead (s u : State) (t' : Thread) : Prop :=
  u.mem = s.mem ∧ u.waves = s.waves ∧ u.groups = s.groups ∧ u.out = s.out ∧ ThreadNow s u (some t')

/-- The thread ends with a cause (R388). -/
def EndsWith (i : Instr) (s : State) (t : Thread) (c : Cause) : Prop :=
  exec i s = .next (s.endFault s.selCore t c false 0)

/-- Child k of a node (Table 16-3). -/
def childVa (n : Node) (k : Nat) : DWord :=
  let off := tabField n.tab 32 16
  let base := leNat (n.bytes.drop (tabField n.tab 48 16) |>.take 8)
  let index (w : Nat) : Nat := leNat (n.bytes.drop (off + w * k) |>.take w)
  BitVec.ofNat 64 (if tabField n.tab 24 2 = 0 then index 8
    else base + index (if tabField n.tab 24 2 = 1 then 4 else 2) * tabSize n.tab)

/-- The bytes of a key (Table 16-3). -/
def keyBytes (n : Node) : Nat := if tabField n.tab 112 2 = 2 then 8 else 4

/-- Key k of a leaf (R365). -/
def keyOf (n : Node) (k : Nat) : Nat :=
  let p := tabField n.tab 115 3
  let m := keyBytes n - p
  leNat (n.bytes.drop (tabField n.tab 128 16 + m * k) |>.take m) +
    leNat (n.bytes.drop (tabField n.tab 144 16) |>.take p) * 2 ^ (8 * m)

/-- A key, or the value that keys are compared with, as its table orders it. -/
def keyNum (n : Node) (v : Nat) : Int :=
  if tabField n.tab 114 1 = 1 then (BitVec.ofNat (8 * keyBytes n) v).toInt else v

/-- Bound i of the box of child k: lo x, y, z and hi x, y, z, as FP32 (R365). A quantised one is formed exactly and
rounded once, down for lo and up for hi. -/
def boxBound (n : Node) (k i : Nat) : Nat :=
  let off := tabField n.tab 80 16
  let q := tabField n.tab 96 16
  if tabField n.tab 64 2 = 1 then leNat (n.bytes.drop (off + 24 * k + 4 * i) |>.take 4)
  else
    let rm := if i < 3 then Rm.rdn else Rm.rup
    let step : FNum := .fin false (leNat (n.bytes.drop (off + 6 * k + i) |>.take 1))
      ((leNat (n.bytes.drop (q + 12 + i % 3) |>.take 1) : Int) - 127)
    (f32.pack rm (FNum.add rm (f32.num (leNat (n.bytes.drop (q + 4 * (i % 3)) |>.take 4))) step).1).1

/-- One axis of TBOX (R371): origin, direction, lo and hi, and the interval so far. -/
def slab (org dir lo hi : Nat) (nf : Nat × Nat) : Nat × Nat :=
  let inv := fDiv 0x3F800000 dir
  let t1 := fMul (fSub lo org) inv
  let t2 := fMul (fSub hi org) inv
  if fNaN t1 || fNaN t2 then nf else (fMax nf.1 (fMin t1 t2), fMin nf.2 (fMax t1 t2))

/-- Entry and exit of a ray in a box (R371). -/
def interval (ray : Nat → Nat) (box : Nat → Nat) : Nat × Nat :=
  slab (ray 2) (ray 5) (box 2) (box 5) (slab (ray 1) (ray 4) (box 1) (box 4)
    (slab (ray 0) (ray 3) (box 0) (box 3) (ray 6, ray 7)))

/-- FP32 values compare (R371): neither is a NaN, and the first is at most, or below, the second. -/
def atMost (x y : Nat) : Bool := !fNaN x && !fNaN y && FNum.cmp (f32.num x) (f32.num y) != .gt
def below (x y : Nat) : Bool := !fNaN x && !fNaN y && FNum.cmp (f32.num x) (f32.num y) == .lt

/-- Child i stands before child k in a TBOX result (R371). -/
def ahead (hit : Nat → Bool) (enter : Nat → Nat) (i k : Nat) : Bool :=
  if hit i && hit k then below (enter i) (enter k) || (!below (enter k) (enter i) && decide (i < k))
  else if hit i then true else if hit k then false else decide (i < k)

/-- The result of TBOX (R371): the mask of the children hit, and each child at its position. -/
def boxResult (hit : Nat → Bool) (enter : Nat → Nat) : Nat :=
  ((List.range 8).map fun i =>
    (if hit i then 2 ^ i else 0) +
      i * 2 ^ (8 + 3 * ((List.range 8).filter fun k => k != i && ahead hit enter k i).length)).foldl (· + ·) 0

/-- The products and sums of R372, each rounded. -/
def dot3 (x y : Nat → Nat) : Nat := fAdd (fAdd (fMul (x 0) (y 0)) (fMul (x 1) (y 1))) (fMul (x 2) (y 2))
def cross3 (x y : Nat → Nat) (i : Nat) : Nat :=
  fSub (fMul (x ((i + 1) % 3)) (y ((i + 2) % 3))) (fMul (x ((i + 2) % 3)) (y ((i + 1) % 3)))

/-- TTRI (R372): the distance, and the packed v and u. -/
def triangle (ray tri : Nat → Nat) : Nat × Nat :=
  let org := ray
  let dir (i : Nat) : Nat := ray (3 + i)
  let e1 (i : Nat) : Nat := fSub (tri (3 + i)) (tri i)
  let e2 (i : Nat) : Nat := fSub (tri (6 + i)) (tri i)
  let sv (i : Nat) : Nat := fSub (org i) (tri i)
  let p := cross3 dir e2
  let det := dot3 e1 p
  let u := fDiv (dot3 sv p) det
  let qv := cross3 sv e1
  let v := fDiv (dot3 dir qv) det
  let t := fDiv (dot3 e2 qv) det
  if fNaN det = false ∧ (f32.num det).isZero = false ∧ atMost 0 u ∧ atMost 0 v ∧ atMost (fAdd u v) 0x3F800000 ∧
      atMost (ray 6) t ∧ atMost t (ray 7) then
    (t, (Fmt.convert f32 f16 .rne v).1 * 2 ^ 16 + (Fmt.convert f32 f16 .rne u).1)
  else (0x7F800000, 0)

/-- A register of the ray block. -/
def rayAt (t : Thread) (a : TReg) (i : Nat) : Nat := (t.read (a + BitVec.ofNat 4 i)).toNat

/-- BF16 value i of bytes. -/
def bfAt (bs : List Byte) (i : Nat) : FNum := bf16.num (leNat (bs.drop (2 * i) |>.take 2))

/-- D after TDIST (R373). -/
def distance (dot : Bool) (d : Word) (q x : List Byte) : Word :=
  let term (i : Nat) : FNum :=
    let diff := (FNum.add .rne (bfAt q i) (bfAt x i).neg).1
    if dot then (FNum.mul (bfAt q i) (bfAt x i)).1.neg else (FNum.mul diff diff).1
  BitVec.ofNat 32 (f32.pack .rne (sumNums .rne (f32.num d.toNat :: (List.range 64).map term)).1).1

/-- The hit children that a TBOX result lists, nearest first. -/
def listed (v : Word) : List Nat :=
  ((List.range 8).map fun j => v.toNat / 2 ^ (8 + 3 * j) % 8).filter fun i => v.toNat / 2 ^ i % 2 = 1

/-- A thread pushes values, the first of them first (R359, R375): those that its limit allows stand on its stack. What
would pass the entries that the TRP keeps has gone to its home in the extension, bottom entries first. A push past the
limit ends the thread. -/
def Pushes (i : Instr) (s : State) (t : Thread) (vs : List DWord) : Prop :=
  let limit := if t.ext = 0 then 8 else 16
  let n := min vs.length (limit - (t.stack.length + t.spilled))
  let all := (vs.take n).reverse ++ t.stack
  let kept := match t.kind with
    | .handed _ _ => 16
    | _ => 8
  let k := all.length - kept
  let t' := { t with stack := all.take (all.length - k), spilled := t.spilled + k, stat := .ready }
  if k = 0 then
    if vs.length ≤ n then ∃ u, exec i s = .next u ∧ OnlyThread s u { t' with pc := t.pc + 1 } else EndsWith i s t' 0x230
  else ∀ pa, EngineMay s s.selCore t.asid (t.rva + BitVec.ofNat 64 (t.ext + 128 + 8 * t.spilled)) (8 * k) pa →
    Memory.wf s.mem = true →
    ∃ u, u.waves = s.waves ∧ u.groups = s.groups ∧
      bytesIn u = written (bytesIn s) pa (((all.drop (all.length - k)).reverse.map fun x => bytesLE 8 x.toNat).flatten) ∧
      if vs.length ≤ n then exec i s = .next u ∧ ThreadNow s u (some { t' with pc := t.pc + 1 })
      else exec i s = .next (u.endFault s.selCore t' 0x230 false 0) ∧ ThreadNow s u (some t)

end Sys2Proof.Claims

section

open Sys2Proof Sys2Proof.Machine Sys2Proof.Claims

/-- R363 to R374: NFETCH reads a node, which its table decodes, and NDEC decodes it again; NGET, TBOX, TTRI and TKEY write
what the decoded view gives; TLD, TQLD and TDIST read memory. Each ends its thread where the rules say so.
Readings of the model in it: log entry 49. -/
def Obligations.TraversalNodes : Prop :=
  (∀ a n s t d, ThreadIs s t → s.dtab? s.selCore t.asid n.toNat = some d →
    let va := t.read2 a
    (va.toNat % tabSize d.bits ≠ 0 → EndsWith (.nfetch a n) s t 0x231) ∧
    (∀ pa, va.toNat % tabSize d.bits = 0 → EngineGets s s.selCore t.asid va (tabSize d.bits) pa →
      let x : Node := ⟨va, takes1 (bytesIn s) pa (tabSize d.bits), d.bits, n.toNat⟩
      (x.bad = false → ∃ u, exec (.nfetch a n) s = .next u ∧ HasRead s u { t with node := some x, pc := t.pc + 1, stat := .ready }) ∧
      (x.bad = true → ∃ u, HasRead s u t ∧
        exec (.nfetch a n) s = .next (u.endFault s.selCore t 0x231 false 0))) ∧
    (t.node = none → EndsWith (.ndec n) s t 0x232) ∧
    (∀ x, t.node = some x →
      let y : Node := ⟨x.va, x.bytes, d.bits, n.toNat⟩
      (y.bad = false → ∃ u, exec (.ndec n) s = .next u ∧ OnlyThread s u { t with node := some y, pc := t.pc + 1 }) ∧
      (y.bad = true → EndsWith (.ndec n) s t 0x231))) ∧
  (∀ a n s t, ThreadIs s t → s.dtab? s.selCore t.asid n.toNat = none →
    EndsWith (.nfetch a n) s t 0x233 ∧ (t.node ≠ none → EndsWith (.ndec n) s t 0x233)) ∧
  (∀ (x : Node), x.bad = true ↔
    (x.nkind = 3 ∨ x.bytes.length < tabSize x.tab ∨
    (x.nkind = 0 ∧ (x.cnt = 0 ∨ 8 < x.cnt)) ∨
    (x.nkind = 1 ∧ tabField x.tab 112 2 = 0 ∧ tabField x.tab 160 16 ≠ 0 ∧ 4 < x.cnt) ∨
    ∃ f ∈ x.uses, f.2 ≠ 0 ∧ tabSize x.tab < f.1 + f.2)) ∧
  (∀ d k j n s t, ThreadIs s t →
    let gets (i : Instr) (ok : Node → Bool) (f : Node → Nat) : Prop :=
      (∀ x, t.node = some x → ok x = true →
        ∃ u, exec i s = .next u ∧ OnlyThread s u { t.write d (narrow (f x)) with pc := t.pc + 1 }) ∧
      ((∀ x, t.node = some x → ok x = false) → EndsWith i s t 0x232)
    let gets2 (i : Instr) (ok : Node → Bool) (f : Node → DWord) : Prop :=
      (∀ x, t.node = some x → ok x = true → ∃ u, exec i s = .next u ∧ OnlyThread s u
        { (t.write d (narrow (f x).toNat)).write (d + 1) (narrow ((f x).toNat / 2 ^ 32 : Nat)) with pc := t.pc + 1 }) ∧
      ((∀ x, t.node = some x → ok x = false) → EndsWith i s t 0x232)
    gets (.ngetKind d) (fun _ => true) (fun x => leNat (x.bytes.take 8) / 2 ^ tabField x.tab 8 6 % 4) ∧
    gets (.ngetCnt d) (fun _ => true) (fun x => leNat (x.bytes.take 8) / 2 ^ tabField x.tab 16 6 % 16) ∧
    gets2 (.ngetChild d k) (fun x => decide (x.nkind = 0 ∧ k.toNat < x.cnt)) (fun x => childVa x k.toNat) ∧
    gets (.ngetKeylo d j) (fun x => decide (x.nkind = 1 ∧ tabField x.tab 112 2 ≠ 0 ∧ j.toNat < x.cnt))
      (fun x => keyOf x j.toNat % 2 ^ 32) ∧
    gets (.ngetKeyhi d j) (fun x => decide (x.nkind = 1 ∧ tabField x.tab 112 2 ≠ 0 ∧ j.toNat < x.cnt))
      (fun x => keyOf x j.toNat / 2 ^ 32) ∧
    gets (.ngetPeer d) (fun x => decide (x.nkind = 2)) (fun x => leNat (x.bytes.drop (tabField x.tab 176 16) |>.take 1)) ∧
    gets2 (.ngetRemote d) (fun x => decide (x.nkind = 2))
      (fun x => BitVec.ofNat 64 (leNat (x.bytes.drop (tabField x.tab 176 16 + 8) |>.take 8))) ∧
    gets (.ngetWord d n) (fun x => decide (4 * n.toNat < tabSize x.tab))
      (fun x => leNat (x.bytes.drop (4 * n.toNat) |>.take 4))) ∧
  (∀ d a s t x, ThreadIs s t → t.node = some x →
    let near (i : Nat) : Nat × Nat := interval (rayAt t a) fun j => (x.box i).getD j 0
    (x.nkind = 0 → tabField x.tab 64 2 ≠ 0 → x.cnt ≤ 8 → ∃ u, exec (.tbox d a) s = .next u ∧
      OnlyThread s u { t.write d (narrow (boxResult
        (fun i => decide (i < x.cnt) && atMost (near i).1 (near i).2) fun i => (near i).1)) with pc := t.pc + 1 }) ∧
    (x.nkind ≠ 0 ∨ tabField x.tab 64 2 = 0 → EndsWith (.tbox d a) s t 0x232)) ∧
  (∀ (x : Node) k, tabField x.tab 64 2 = 1 ∨ tabField x.tab 64 2 = 2 → ∀ i < 6, (x.box k)[i]? = some (boxBound x k i)) ∧
  (∀ d a k s t x, ThreadIs s t → t.node = some x →
    let r := triangle (rayAt t a) fun j => leNat (x.bytes.drop (tabField x.tab 160 16 + 36 * k.toNat + 4 * j) |>.take 4)
    let has := x.nkind = 1 ∧ tabField x.tab 160 16 ≠ 0 ∧ k.toNat < min x.cnt 4
    (has → ∃ u, exec (.ttri d a k) s = .next u ∧
      OnlyThread s u { (t.write d (narrow r.1)).write (d + 1) (narrow r.2) with pc := t.pc + 1 }) ∧
    (¬ has → EndsWith (.ttri d a k) s t 0x232)) ∧
  (∀ (le : Bool) d a s t x, ThreadIs s t → t.node = some x →
    let i : Instr := if le then .tkeyLe d a else .tkeyLt d a
    let wide := tabField x.tab 112 2 = 2
    let v := keyNum x (if wide then (t.read2 a).toNat else (t.read a).toNat)
    let n := ((List.range x.cnt).filter fun k =>
      if le then decide (keyNum x (keyOf x k) ≤ v) else decide (keyNum x (keyOf x k) < v)).length
    let has := x.nkind = 1 ∧ tabField x.tab 112 2 ≠ 0
    (has → (wide → a.toNat % 2 = 0) → ∃ u, exec i s = .next u ∧
      OnlyThread s u { t.write d (narrow n) with pc := t.pc + 1 }) ∧
    (has → wide → a.toNat % 2 ≠ 0 → EndsWith i s t 0x005) ∧
    (¬ has → EndsWith i s t 0x232)) ∧
  (∀ d a off n dot s t pa, ThreadIs s t →
    let va := t.read2 a
    let wa := va + BitVec.ofInt 64 (4 * off.toInt)
    let i : Instr := if dot then .tdistDot d a n else .tdistL2 d a n
    (wa.toNat % 4 ≠ 0 → EndsWith (.tld d a off) s t 0x231) ∧
    (wa.toNat % 4 = 0 → EngineGets s s.selCore t.asid wa 4 pa → ∃ u, exec (.tld d a off) s = .next u ∧
      HasRead s u { t.write d (narrow (leNat (takes1 (bytesIn s) pa 4))) with pc := t.pc + 1, stat := .ready }) ∧
    (va.toNat % 32 ≠ 0 → EndsWith (.tqld a n) s t 0x231 ∧ EndsWith i s t 0x231) ∧
    (va.toNat % 32 = 0 → EngineGets s s.selCore t.asid va 128 pa →
      let bs := takes1 (bytesIn s) pa 128
      (∃ u, exec (.tqld a n) s = .next u ∧
        HasRead s u { t with chunks := Tab.put [] t.chunks n.toNat bs, pc := t.pc + 1, stat := .ready }) ∧
      ∃ u, exec i s = .next u ∧
        HasRead s u { t.write d (distance dot (t.read d) (Tab.get [] t.chunks n.toNat) bs) with
          pc := t.pc + 1
          stat := .ready })) ∧
  (∀ a s t, ThreadIs s t → ∀ i ∈ ([.tpfNc a, .tpfL1 a] : List Instr),
    ∃ u, exec i s = .next u ∧ (s.poison = [] → u.ctxs = s.ctxs) ∧ HasRead s u { t with pc := t.pc + 1 }) ∧
  (∀ d a off s t, ThreadIs s t → t.kind ≠ .prefetch → t.stat = .ready →
    let wa := t.read2 a + BitVec.ofInt 64 (4 * off.toInt)
    wa.toNat % 4 = 0 → canonical wa = true →
    (∀ e ∈ (s.cluster (clusterOf s.selCore)).tlb ++ (s.core s.selCore).tlb.map (fun x => x.2) ++
        (s.core (2 * clusterOf s.selCore)).tlb.map (fun x => x.2), e.hits t.asid wa = false) →
    ∃ u r, exec (.tld d a off) s = .next u ∧ u.mem = s.mem ∧ ThreadNow s u (some { t with stat := .held (.word d wa) }) ∧
      r ∈ (u.core (recHome s.selCore)).recs ∧ r.src = 2 ∧ r.idx = t.num ∧ r.core = s.selCore)

end

namespace Sys2Proof.Claims

open Sys2Proof.Machine

/-- CONS of a queue: in mode 0 the word that software has left in the descriptor (R379, R380). -/
def consNow (q : CQ) (m : Nat → Byte) (cpa : Nat → Nat) : Nat := if q.mode = 0 then leNat (takes1 m cpa 4) else q.cons

/-- The queue of a record has room for an entry, and the TRP reaches the entry and the descriptor (R380). -/
structure Room (s : State) (core : Nat) (t : Thread) (m : Nat → Byte) (q : CQ) (cpa epa dpa : Nat → Nat) : Prop where
  queue : (s.core core).cqs.find? (fun x => x.num == t.cq && x.asid == t.asid) = some q
  cons : q.mode = 0 → EngineGets s core t.asid (q.desc + 20) 4 cpa
  room : (q.prod + 2 ^ 32 - consNow q m cpa) % 2 ^ 32 ≠ 2 ^ q.logn
  entry : EngineMay s core t.asid (q.base + BitVec.ofNat 64 (32 * (q.prod % 2 ^ q.logn))) 32 epa
  prod : EngineMay s core t.asid (q.desc + 16) 4 dpa
  mem : Memory.wf s.mem = true

/-- The entry of a thread (Table 16-6). -/
def entryOf (t : Thread) (kind : Nat) (ws : List Word) : List Byte :=
  bytesLE 8 t.rva.toNat ++ bytesLE 8 t.payload.toNat ++
    bytesLE 4 (kind + 2 ^ 4 * (t.cq % 8) + 2 ^ 8 * (t.num % 64) + 2 ^ 16 * (t.seq % 2 ^ 16)) ++
    (ws.map fun x => bytesLE 4 x.toNat).flatten

/-- A thread has posted an entry: memory holds `m`, then the entry, then PROD, and in mode 1 the entry waits for a batch
(R380, R381). -/
def Posted1 (s u : State) (core : Nat) (t : Thread) (m : Nat → Byte) (q : CQ) (epa dpa : Nat → Nat) (kind : Nat) (ws : List Word) :
    Prop :=
  bytesIn u = written (written m epa (entryOf t kind ws)) dpa (bytesLE 4 ((q.prod + 1) % 2 ^ 32)) ∧
    u.waves = s.waves ∧ u.groups = s.groups ∧ u.out = s.out ∧
    ∃ q', (u.core core).cqs = (s.core core).cqs.map (fun x => if x.num = q.num then q' else x) ∧
      q' = { q with prod := (q.prod + 1) % 2 ^ 32, waiting := q'.waiting } ∧
      q'.waiting.map (fun e => e.2) = q.waiting.map (fun e => e.2) ++ if q.mode = 1 then
        [[t.rva.setWidth 32, narrow (t.rva.toNat / 2 ^ 32 : Nat), t.payload.setWidth 32, narrow (t.payload.toNat / 2 ^ 32 : Nat),
          narrow (kind + 2 ^ 4 * (t.cq % 8) + 2 ^ 8 * (t.num % 64) + 2 ^ 16 * (t.seq % 2 ^ 16))] ++ ws]
      else []

/-- The result words at a register (R376). -/
def resultOf (t : Thread) (a : TReg) : List Word := [t.read a, t.read (a + 1), t.read (a + 2)]

/-- The TRP reaches the extension of a record, if it has one, where the thread's entries stand in it (R362). -/
def ExtMay (s : State) (t : Thread) (hpa spa : Nat → Nat) : Prop :=
  t.ext ≠ 0 →
    EngineMay s s.selCore t.asid (t.rva + BitVec.ofNat 64 t.ext) 128 hpa ∧
    EngineMay s s.selCore t.asid (t.rva + BitVec.ofNat 64 (t.ext + 128 + 8 * t.spilled)) (8 * t.stack.length) spa

/-- Memory after an extension has been written with a PC and an SDR (Table 16-2); a record without one stays. -/
def extOver (t : Thread) (pc sdr : Nat) (m : Nat → Byte) (hpa spa : Nat → Nat) : Nat → Byte :=
  if t.ext = 0 then m
  else
    let regs := ((List.range 16).map fun i => bytesLE 4 (t.read (BitVec.ofNat 4 i)).toNat).flatten
    let node : List Byte × Nat := match t.node with
      | some n => ([BitVec.ofNat 8 n.id, 0], n.va.toNat)
      | none => ([0xFF, 0], 0)
    let head := regs ++ bytesLE 4 pc ++ [BitVec.ofNat 8 (t.stack.length + t.spilled), BitVec.ofNat 8 sdr] ++ node.1 ++
      bytesLE 8 node.2 ++ List.replicate 48 0
    written (written m hpa head) spa ((t.stack.reverse.map fun x => bytesLE 8 x.toNat).flatten)

/-- The port can deliver a hand-off to a peer: the link is up, both ports accept the version of the interface, and the id is
another device's, in a directly joined pair one of the two (R378, R442, R443; log entry 105). -/
def canHand (s : State) (peer : Nat) : Prop :=
  s.linkUp = true ∧ s.linkLo ≤ 1 ∧ 1 ≤ s.linkHi ∧ peer ≠ s.peerId ∧ (peer ≤ 1 ∨ (peer ≤ 7 ∧ Config.linkSwitched = true))

end Sys2Proof.Claims

section

open Sys2Proof Sys2Proof.Machine Sys2Proof.Claims

/-- R359, R375: TPUSH and TPUSHC push, a push past the limit ends the thread with TR_STACK; TPOP pops, refills from the
extension, or branches when the stack is empty; TDEPTH counts. -/
def Obligations.TraversalStack : Prop :=
  (∀ a s t, ThreadIs s t → Pushes (.tpush a) s t [t.read2 a]) ∧
  (∀ a s t, ThreadIs s t →
    (∀ x, t.node = some x → x.nkind = 0 → (t.read a).toNat % 256 < 2 ^ x.cnt →
      Pushes (.tpushc a) s t ((listed (t.read a)).reverse.map fun k => childVa x k)) ∧
    ((∀ x, t.node = some x → x.nkind ≠ 0 ∨ 2 ^ x.cnt ≤ (t.read a).toNat % 256) → EndsWith (.tpushc a) s t 0x232)) ∧
  (∀ d off s t, ThreadIs s t →
    (t.stack = [] → GoesTo (.tpop d off) s t off.toInt) ∧
    (∀ x rest, t.stack = x :: rest →
      let popped (t : Thread) : Thread :=
        { (t.write d (narrow x.toNat)).write (d + 1) (narrow (x.toNat / 2 ^ 32 : Nat)) with pc := t.pc + 1 }
      (rest ≠ [] ∨ t.spilled = 0 → ∃ u, exec (.tpop d off) s = .next u ∧ OnlyThread s u (popped { t with stack := rest })) ∧
      (rest = [] → t.spilled ≠ 0 → ∀ pa,
        let k := min 8 t.spilled
        EngineGets s s.selCore t.asid (t.rva + BitVec.ofNat 64 (t.ext + 128 + 8 * (t.spilled - k))) (8 * k) pa →
        ∃ u, exec (.tpop d off) s = .next u ∧ HasRead s u (popped { t with
          stack := (List.range k).map fun i => BitVec.ofNat 64 (leNat (takes1 (bytesIn s) (fun j => pa (8 * (k - 1 - i) + j)) 8))
          spilled := t.spilled - k
          stat := .ready })))) ∧
  (∀ d, ChangesThread (.tdepth d) fun t => t.write d (narrow (t.stack.length + t.spilled : Nat)))

/-- R376, R377, R380, R445: EMIT, END and SUSP of a record write its fields, the entry and PROD in this order, and EMIT
goes on; a full queue makes the thread wait; a prefetch thread ends with nothing; the entries of a handed-off thread go
back to its peer, and SUSP ends it.
Readings of the model in it: log entry 53. -/
def Obligations.TraversalResults : Prop :=
  (∀ a s t, ThreadIs s t → t.kind = .record →
    (∀ q cpa epa dpa, Room s s.selCore t (bytesIn s) q cpa epa dpa → ∃ u, exec (.emit a) s = .next u ∧
      Posted1 s u s.selCore t (bytesIn s) q epa dpa 0 (resultOf t a) ∧
      ThreadNow s u (some { t with pc := t.pc + 1, seq := (t.seq + 1) % 2 ^ 16, stat := .ready })) ∧
    (∀ q cpa, (s.core s.selCore).cqs.find? (fun x => x.num == t.cq && x.asid == t.asid) = some q →
      (q.mode = 0 → EngineGets s s.selCore t.asid (q.desc + 20) 4 cpa) →
      (q.prod + 2 ^ 32 - consNow q (bytesIn s) cpa) % 2 ^ 32 = 2 ^ q.logn →
      ∃ u, exec (.emit a) s = .next u ∧ HasRead s u { t with stat := .posting ⟨0, resultOf t a, false⟩ })) ∧
  (∀ a s t, ThreadIs s t → t.kind = .record →
    ∀ e ∈ ([(.endDone a, 4), (.endMiss a, 1)] : List (Instr × Nat)), ∀ q cpa epa dpa rpa spa,
    EngineMay s s.selCore t.asid (t.rva + 36) 12 rpa → EngineMay s s.selCore t.asid (t.rva + 60) 4 spa →
    let m := written (written (bytesIn s) rpa ((resultOf t a).map fun x => bytesLE 4 x.toNat).flatten) spa (bytesLE 4 1)
    Room s s.selCore t m q cpa epa dpa → ∃ u, exec e.1 s = .next u ∧
      Posted1 s u s.selCore t m q epa dpa e.2 (resultOf t a) ∧ ThreadNow s u none) ∧
  (∀ d a b s t, ThreadIs s t → t.kind = .record →
    (t.ext = 0 → EndsWith (.susp d a b) s t 0x232) ∧
    (t.ext ≠ 0 → ∀ q cpa epa dpa hpa kpa spa, ExtMay s t hpa kpa → EngineMay s s.selCore t.asid (t.rva + 60) 4 spa →
      let m := written (extOver t (t.pc + 1) (d.toNat + 16 * b.toNat) (bytesIn s) hpa kpa) spa (bytesLE 4 2)
      Room s s.selCore t m q cpa epa dpa → ∃ u, exec (.susp d a b) s = .next u ∧
        Posted1 s u s.selCore t m q epa dpa 2 (resultOf t a) ∧ ThreadNow s u none ∧
        (t.asid, t.rva, (t.seq + 1) % 2 ^ 16) ∈ u.seqs)) ∧
  (∀ d a b s t, ThreadIs s t → t.kind = .prefetch →
    ∀ i ∈ ([.emit a, .endDone a, .endMiss a, .susp d a b, .thand] : List Instr),
    ∃ u, exec i s = .next u ∧ u = { s with cores := u.cores } ∧ ThreadNow s u none) ∧
  (∀ d a b s t seq peer, ThreadIs s t → t.kind = .handed seq peer →
    EndsWith (.susp d a b) s t 0x232 ∧ EndsWith .thand s t 0x232 ∧
    (s.linkUp = true →
      (∃ u, exec (.emit a) s = .next u ∧ u = { s with cores := u.cores, out := u.out } ∧
        u.out = s.out ++ [.handReturn peer ⟨seq, 0, resultOf t a, [], false⟩] ∧
        ThreadNow s u (some { t with pc := t.pc + 1, seq := (t.seq + 1) % 2 ^ 16, stat := .ready })) ∧
      ∀ e ∈ ([(.endDone a, 4), (.endMiss a, 1)] : List (Instr × Nat)),
        ∃ u, exec e.1 s = .next u ∧ u = { s with cores := u.cores, out := u.out } ∧
          u.out = s.out ++ [.handReturn peer ⟨seq, e.2, resultOf t a, resultOf t a, true⟩] ∧ ThreadNow s u none))

/-- R378, R387, R388, R446, R38: THAND writes the extension with the remote root in t8:t9 and passes the record and the
extension to the port, and the thread ends; without a remote node, an extension or a port it ends with a cause. A cause
ends a record's thread: its extension, STATUS 3 and a fault entry with the cause and the PC are written, and no wave traps.
A traversal word that is no instruction ends its thread.
Readings of the model in it: log entries 49, 53, 80 and 105. -/
def Obligations.TraversalEnds : Prop :=
  (∀ s t, ThreadIs s t → t.kind = .record →
    ((∀ x, t.node = some x → x.nkind ≠ 2) → EndsWith .thand s t 0x232) ∧
    (∀ x, t.node = some x → x.nkind = 2 →
      let off := tabField x.tab 176 16
      let peer := leNat (x.bytes.drop off |>.take 1)
      let root := BitVec.ofNat 64 (leNat (x.bytes.drop (off + 8) |>.take 8))
      let t' := (t.write 8 (narrow root.toNat)).write 9 (narrow (root.toNat / 2 ^ 32 : Nat))
      (t.ext = 0 → EndsWith .thand s t 0x232) ∧
      (t.ext ≠ 0 → ¬ canHand s peer → EndsWith .thand s t' 0x234) ∧
      (t.ext ≠ 0 → canHand s peer → ∀ hpa kpa rpa epa, ExtMay s t hpa kpa → EngineGets s s.selCore t.asid t.rva 64 rpa →
        EngineGets s s.selCore t.asid (t.rva + BitVec.ofNat 64 t.ext) 256 epa → Memory.wf s.mem = true →
        let m := extOver t' (t.pc + 1) 0 (bytesIn s) hpa kpa
        ∃ u pkt, exec .thand s = .next u ∧ bytesIn u = m ∧ ThreadNow s u none ∧ u.out = s.out ++ [.handPacket peer pkt] ∧
          pkt.take 320 = takes1 m rpa 64 ++ takes1 m epa 256 ∧ u.waves = s.waves ∧ u.groups = s.groups))) ∧
  (∀ s t0 t, ThreadIs s t0 → t.num = t0.num → ∀ (c : Cause),
    (t.kind = .prefetch → ∃ u, s.endFault s.selCore t c false 0 = u ∧ u = { s with cores := u.cores } ∧ ThreadNow s u none) ∧
    (t.kind = .record → ∀ q cpa epa dpa hpa kpa spa, ExtMay s t hpa kpa → EngineMay s s.selCore t.asid (t.rva + 60) 4 spa →
      let m := written (extOver t t.pc 0 (bytesIn s) hpa kpa) spa (bytesLE 4 3)
      Room s s.selCore t m q cpa epa dpa → ∃ u, s.endFault s.selCore t c false 0 = u ∧
        Posted1 s u s.selCore t m q epa dpa 3 [c.setWidth 32, narrow t.pc, 0] ∧ ThreadNow s u none) ∧
    (∀ seq peer, t.kind = .handed seq peer → s.linkUp = true →
      ∃ u, s.endFault s.selCore t c false 0 = u ∧ u = { s with cores := u.cores, out := u.out } ∧ ThreadNow s u none ∧
        u.out = s.out ++ [.handReturn peer ⟨seq, 3, [c.setWidth 32, narrow t.pc, 0], [], true⟩])) ∧
  (∀ w s t, ThreadIs s t → EndsWith (.traversalWordNotInstruction w) s t
    (if t.words.length ≤ t.pc then 0x235 else match t.bad with
      | some c => c
      | none => 0x001))

end

namespace Sys2Proof.Claims

open Sys2Proof.Machine

/-- A thread context of a TRP is in use, or its fault record is (R357). -/
def contextUsed (s : State) (core k : Nat) : Prop :=
  threadOf s core k ≠ none ∨ ∃ r ∈ (s.core core).recs, r.src = 2 ∧ r.idx = k

/-- The lowest free thread context; gathers and scatters share the contexts (R357). -/
def FreeContext (s : State) (core num : Nat) : Prop :=
  (s.core core).trp.threads.length + ((s.core core).copies.filter fun x => x.fn == 8 || x.fn == 9).length < 64 ∧
    num < 64 ∧ ¬ contextUsed s core num ∧ ∀ k < num, contextUsed s core k

/-- A program of a context. -/
def ProgramIs (s : State) (core asid index : Nat) (ws : List Word) : Prop :=
  ∃ p, (s.core core).trp.progs.find? (fun p => p.asid == asid && p.index == index) = some p ∧ p.words = ws

/-- A field of bytes. -/
def fieldAt (b : List Byte) (i n : Nat) : Nat := leNat (b.drop i |>.take n)

/-- The queue that a record posts to (Table 16-1, R383). -/
def queueOf (r : TReq) (b : List Byte) : Nat := r.queue.getD (fieldAt b 12 1)

/-- The checks of Table 16-1, but for STATUS. -/
def RecordGood (s : State) (core : Nat) (r : TReq) (b : List Byte) (words : List Word) : Prop :=
  ProgramIs s core r.asid (fieldAt b 8 2) words ∧ fieldAt b 10 1 ≤ 15 ∧ fieldAt b 11 1 = 0 ∧ (r.queue = none → fieldAt b 12 1 < 8) ∧
    ((s.core core).cqs.find? fun q => q.num == queueOf r b && q.asid == r.asid) ≠ none ∧ fieldAt b 56 4 % 64 = 0

/-- A thread has what every start reads from its record and from its request (R358, Table 16-1). -/
def HasRecord (x : Thread) (core num : Nat) (r : TReq) (b : List Byte) (words : List Word) : Prop :=
  x.num = num ∧ x.kind = .record ∧ x.core = core ∧ x.asid = r.asid ∧ x.cmd = r.cmd ∧ x.rva = r.va ∧ x.words = words ∧
    x.payload.toNat = fieldAt b 48 8 ∧ x.tag.toNat = fieldAt b 13 3 ∧ x.cq = queueOf r b ∧ x.ext = fieldAt b 56 4 ∧
    x.dtab = fieldAt b 10 1 ∧ x.prog = fieldAt b 8 2 ∧ x.stat = .ready ∧ x.start = none

/-- A thread of a record keeps a resumption of it back: its suspension is still to be posted, or it is an earlier resumption
that still reads the record (R380, R390). -/
def keepsBack (t : Thread) : Prop :=
  (∃ p, t.stat = .posting p ∧ p.kind = 2) ∨ (t.stat = .held .start ∧ ∃ r, t.start = some r ∧ r.resume ≠ none)

/-- A TRP may take a request: its context runs on the core, or a wave of a context that is not being terminated waits for the
reply of the resumption; and no thread keeps it back. -/
def mayTake (s : State) (core : Nat) (r : TReq) : Prop :=
  r.gslot < 2 ^ 16 ∧
  (s.runsOn r.asid core = true ∨ (r.resume ≠ none ∧ (∃ c, s.ctx? r.asid = some c ∧ c.killed = none) ∧
    ∃ w ∈ s.waves, ∃ q ∈ w.pend, q.src = .reply r.cmd)) ∧
  (r.resume ≠ none → ∀ e ∈ s.cores, ∀ t ∈ e.2.trp.threads, t.asid = r.asid → t.rva = r.va → t.num < 64 ∧ ¬ keepsBack t)

/-- The request that a TRP takes next: of the ones of its queue, the first that it may take. -/
def NextRequest (s : State) (core : Nat) (r : TReq) : Prop :=
  (∃ pre post, (s.core core).trp.queue = pre ++ r :: post ∧ (∀ x ∈ pre, s.mayStart core x = false)) ∧ mayTake s core r ∧
    r.needs = [] ∧ r.hand = none ∧ r.cont = false ∧ r.began = false

/-- Words of an extension (Table 16-2). -/
def extReg (e : List Byte) (i : Nat) : Word := narrow (fieldAt e (4 * i) 4)

/-- A batch of a queue, with its oldest entries (R381). -/
def batched (q : CQ) (n : Nat) (timeout : Bool) (b : Batch) : Prop :=
  b.queue = q.num ∧ b.asid = q.asid ∧ b.cls = q.cls ∧ b.n = n ∧ b.timeout = timeout ∧
    b.entries = (q.waiting.take n).map fun e => e.2

/-- A repacking queue of a context that runs. -/
def Repacking (s : State) (core n : Nat) (q : CQ) : Prop :=
  s.tabs = true ∧ (s.core core).cqs.find? (fun x => x.num == n && x.mode == 1 && s.runsOn x.asid core) = some q

end Sys2Proof.Claims

section

open Sys2Proof Sys2Proof.Machine Sys2Proof.Claims

/-- R211, R358, R361, R383, R384: a prefetch thread starts with its line, a record thread with the fields of its record, and a
suspended one with its extension, its interval end shortened; a record that fails a check ends with TR_RECORD.
Readings of the model in it: log entries 50 and 52. -/
def Obligations.ThreadStarts : Prop :=
  (∀ s core k g, s.tabs = true → (s.core core).trp.triggers[k]? = some g →
    ∃ u, exec (.prefetchThreadStart core k) s = .next u ∧ u = { s with cores := u.cores } ∧
      (u.core core).trp.triggers = (s.core core).trp.triggers.eraseIdx k ∧
      (∀ num words, FreeContext s core num → ProgramIs s core g.arm.asid g.arm.prog words →
        ∃ x, ThreadAt s u core num (some x) ∧ x.num = num ∧ x.kind = .prefetch ∧ x.asid = g.arm.asid ∧ x.pc = 0 ∧ x.words = words ∧
          x.stack = [] ∧ x.node = none ∧ x.chunks = [] ∧ x.stat = .ready ∧
          (∀ i < 8, x.read (BitVec.ofNat 4 i) = g.words.getD i 0) ∧ x.read2 8 = g.va ∧ x.read2 10 = g.arm.target ∧
          x.read 12 = g.arm.user ∧ x.read 13 = 0 ∧ x.read2 14 = 0) ∧
      ((∀ num, ¬ FreeContext s core num) ∨ (∀ words, ¬ ProgramIs s core g.arm.asid g.arm.prog words) → ∀ c n, threadOf u c n = threadOf s c n)) ∧
  (∀ s core num r pa words, s.tabs = true → FreeContext s core num → NextRequest s core r → r.resume = none →
    EngineGets s core r.asid r.va 64 pa →
    let b := takes1 (bytesIn s) pa 64
    (RecordGood s core r b words → fieldAt b 60 4 = 0 →
      ∃ u x, exec (.trpThreadStart core) s = .next u ∧ u.mem = s.mem ∧ (u.core core).trp.queue = (s.core core).trp.queue.erase r ∧
        ThreadAt s u core num (some x) ∧ HasRecord x core num r b words ∧ x.pc = 0 ∧ x.stack = [] ∧ x.spilled = 0 ∧
        x.node = none ∧ x.chunks = [] ∧ x.seq = 0 ∧ (∀ i < 8, x.read (BitVec.ofNat 4 i) = narrow (fieldAt b (16 + 4 * i) 4)) ∧
        (x.read2 8).toNat = fieldAt b 0 8 ∧ (x.read2 10).toNat = fieldAt b 48 8 ∧ x.read2 12 = 0 ∧ x.read2 14 = 0) ∧
    ((∀ words, ¬ RecordGood s core r b words) ∨ fieldAt b 60 4 ≠ 0 →
      ((s.core core).cqs.find? fun q => q.num == r.queue.getD (fieldAt b 12 1 % 8) && q.asid == r.asid) ≠ none →
      ∃ u x, exec (.trpThreadStart core) s = .next (u.endFault core x 0x233 false 0) ∧ u.mem = s.mem ∧
        ThreadAt s u core num (threadOf u core num) ∧ threadOf u core num ≠ none ∧
        x.num = num ∧ x.kind = .record ∧ x.asid = r.asid ∧ x.rva = r.va ∧ x.ext = 0 ∧
        x.cq = r.queue.getD (fieldAt b 12 1 % 8) ∧ x.payload.toNat = fieldAt b 48 8)) ∧
  (∀ s core num r v pa, s.tabs = true → FreeContext s core num → NextRequest s core r → r.resume = some v → r.queue = none →
    EngineGets s core r.asid r.va 64 pa →
    let b := takes1 (bytesIn s) pa 64
    (fieldAt b 60 4 ≠ 2 ∨ fieldAt b 56 4 = 0 →
      ∃ u, exec (.trpThreadStart core) s = .next u ∧ u.mem = s.mem ∧ ThreadAt s u core num none ∧ Replies s u r.cmd 0x80000233) ∧
    (∀ words epa npa spa d, RecordGood s core r b words → fieldAt b 60 4 = 2 → fieldAt b 56 4 ≠ 0 →
      EngineGets s core r.asid (r.va + BitVec.ofNat 64 (fieldAt b 56 4)) 256 epa → EngineMay s core r.asid (r.va + 60) 4 spa →
      let m := written (bytesIn s) spa (bytesLE 4 0)
      let e := takes1 m epa 256
      let node : Node := ⟨BitVec.ofNat 64 (fieldAt e 72 8), takes1 m npa (tabSize d), d, fieldAt e 70 1⟩
      (fieldAt e 70 1 ≠ 0xFF →
        (∃ t ∈ (s.core core).trp.tables, t.asid = r.asid ∧ t.id = fieldAt e 70 1 ∧ t.bits = d) ∧
        (∀ t ∈ (s.core core).trp.tables, t.asid = r.asid → t.id = fieldAt e 70 1 → t.bits = d) ∧
        EngineGets s core r.asid (BitVec.ofNat 64 (fieldAt e 72 8)) (tabSize d) npa ∧ node.bad = false) →
      (∀ c ∈ s.cores, ∀ t ∈ c.2.trp.threads, t.asid = r.asid → t.rva = r.va → ∀ y, t.stat ≠ .held (.status y)) →
      fieldAt e 68 1 ≤ 16 → Memory.wf s.mem = true →
      let di := fieldAt e 69 1 % 16
      let bi := fieldAt e 69 1 / 16
      let less := branchHolds .flt v (extReg e bi)
      ∃ u x, exec (.trpThreadStart core) s = .next u ∧ Replies s u r.cmd 0 ∧
        bytesIn u = m ∧ ThreadAt s u core num (some x) ∧ HasRecord x core num r b words ∧
        x.pc = fieldAt e 64 4 ∧ x.node = (if fieldAt e 70 1 = 0xFF then none else some node) ∧
        x.stack.length + x.spilled = fieldAt e 68 1 ∧ x.stack.length = min 8 (fieldAt e 68 1) ∧
        (∀ i < x.stack.length, x.stack[i]? = some (BitVec.ofNat 64 (fieldAt e (128 + 8 * (fieldAt e 68 1 - 1 - i)) 8))) ∧
        ∀ i < 16, x.read (BitVec.ofNat 4 i) =
          if i = di then (if less then 1 else 0) else if i = bi ∧ less = true then v else extReg e i))

/-- R380, R381: a queue in mode 1 with 32 waiting entries, or whose oldest entry is 512 cycles old, makes a batch of its oldest
entries; a thread that waits to post does so when there is room.
Readings of the model in it: log entry 51. -/
def Obligations.CompletionQueues : Prop :=
  (∀ s core n q, Repacking s core n q →
    (32 ≤ q.waiting.length → ∃ u b, exec (.cqBatchForm core n) s = .next u ∧ batched q 32 false b ∧
      (u.core core).batches = (s.core core).batches ++ [b] ∧ u.mem = s.mem ∧ u.waves = s.waves ∧
      (u.core core).cqs = (s.core core).cqs.map fun x => if x.num = q.num then { q with waiting := q.waiting.drop 32 } else x) ∧
    (q.waiting.length < 32 → exec (.cqBatchForm core n) s = .next s) ∧
    (∀ e rest, q.waiting = e :: rest →
      (e.1 + 512 ≤ s.clock → ∃ u b, exec (.cqBatchTimeout core n) s = .next u ∧ batched q (min 32 (rest.length + 1)) true b ∧
        (u.core core).batches = (s.core core).batches ++ [b] ∧ u.mem = s.mem ∧ u.waves = s.waves ∧
        (u.core core).cqs = (s.core core).cqs.map fun x =>
          if x.num = q.num then { q with waiting := q.waiting.drop 32 } else x) ∧
      (s.clock < e.1 + 512 → exec (.cqBatchTimeout core n) s = .next s))) ∧
  (∀ s core num t p, s.tabs = true → threadOf s core num = some t → t.kind = .record → t.stat = .posting p →
    (∀ r ∈ (s.core core).recs, ¬ (r.src = 2 ∧ r.idx = num)) →
    (∀ q cpa epa dpa, Room s core t (bytesIn s) q cpa epa dpa →
      ∃ u, exec (.cqPostResume core num) s = .next u ∧ Posted1 s u core t (bytesIn s) q epa dpa p.kind
          ((List.range 3).map fun i => p.words.getD i 0) ∧
        ThreadAt s u core num (if p.ends then none
          else some { t with pc := t.pc + 1, seq := (t.seq + 1) % 2 ^ 16, stat := .ready })) ∧
    (∀ q cpa, (s.core core).cqs.find? (fun x => x.num == t.cq && x.asid == t.asid) = some q →
      (q.mode = 0 → EngineGets s core t.asid (q.desc + 20) 4 cpa) →
      (q.prod + 2 ^ 32 - consNow q (bytesIn s) cpa) % 2 ^ 32 = 2 ^ q.logn →
      ∃ u, exec (.cqPostResume core num) s = .next u ∧ u.mem = s.mem ∧ ThreadAt s u core num (some t)))

/-- R160, R164, R440: the HSC takes the record at the head of a queue whose head is not its tail, writes its LAUNCHID and then
HEAD, and the launch is accepted or completed with its code.
Readings of the model in it: log entry 41. -/
def Obligations.HostLaunches : Prop :=
  (∀ s quad n q, s.hostQs.find? (fun q => q.q == quad && q.n == n) = some q →
    (q.head = q.tail → exec (.hostLaunchRead quad n) s = .next s) ∧
    (q.head ≠ q.tail →
      let at_ := q.ring + 128 * (q.head % 2 ^ q.logn)
      let b := s.mem.read at_ 128
      let desc := Tab.get 0 s.qbase quad + 32 * n
      let head := (q.head + 1) % 2 ^ q.logn
      let m := written (written (bytesIn s) (fun i => at_ + 52 + i) (bytesLE 4 s.nextLaunch)) (fun i => desc + 16 + i) (bytesLE 4 head)
      Memory.wf s.mem = true → Unwatched s (at_ + 52) 4 → Unwatched s (desc + 16) 4 → inDev at_ = true → inDev (at_ + 127) = true →
      inDev desc = true → inDev (desc + 31) = true →
      (∀ r, rawOk b = true → (readRec b).hgds = [] → r = readRec b → s.ctx? r.asid ≠ none → s.refuseCode r none = none →
        ∃ u, exec (.hostLaunchRead quad n) s = .next u ∧ bytesIn u = m ∧ u.waves = s.waves ∧ u.groups = s.groups ∧
          u.nextLaunch = s.nextLaunch + 1 ∧
          (∃ l, u.launches = s.launches ++ [l] ∧ l.lid = s.nextLaunch ∧ l.recd = r ∧ l.queue = 64 * quad + n ∧
            l.accepted = s.clock ∧ l.next = 0 ∧ l.reserving = false) ∧
          ∃ q', q' ∈ u.hostQs ∧ q'.q = quad ∧ q'.n = n ∧ q'.head = head) ∧
      (∀ k, (readRec b).done = 0 →
        (rawOk b = false ∧ k = 1 ∨ rawOk b = true ∧ (readRec b).hgds = [] ∧ s.ctx? (readRec b).asid = none ∧ k = 5) →
        ∃ u, exec (.hostLaunchRead quad n) s = .next u ∧ bytesIn u = m ∧ u.launches = s.launches ∧
          u.nextLaunch = s.nextLaunch + 1))) ∧
  (∀ s r raw k queue src needs pa, raw.done ≠ 0 → s.walkTo raw.asid 3 raw.done = some pa → inDev pa = true →
    Memory.wf s.mem = true → Unwatched s pa 8 →
    Wrote s (s.acceptLaunch r raw (some k) queue src needs).2 pa (bytesLE 4 s.nextLaunch ++ bytesLE 4 (0x10000 + k)))

end

/-! ## Host, peers, displays, power and boot -/

namespace Sys2Proof.Claims

open Sys2Proof.Machine

/-- Host requests are answered (R402, R454). -/
def HostServed (s : State) : Prop := s.stopped = false ∧ s.hostFrozen = false

/-- Requests of the host, but for a Function Level Reset and a conventional reset. -/
noncomputable def hostRequests (req : BusReq) (q n id ma mi off c : Nat) (v : BitVec 64) : List Instr :=
  [.hostMemoryRequest req, .doorbell q n, .versionSelect id ma mi, .registerWrite off v, .droopRead c, .getVersion,
   .getCapabilities, .negotiateAlgorithms true true, .getDigests, .getCertificate 0 0 1, .challenge 0 0,
   .getMeasurements 0, .spdmUnsupportedRequest c]

/-- A queue descriptor of a quadrant obeys Table 22-2. -/
def descriptorOk (quad : Nat) (b : List Byte) : Prop :=
  let ring := fieldAt b 0 8
  let logn := fieldAt b 8 1
  ring % 128 = 0 ∧ 4 ≤ logn ∧ logn ≤ 16 ∧ quad * 2 ^ 35 ≤ ring ∧ ring + 128 * 2 ^ logn ≤ (quad + 1) * 2 ^ 35 ∧
    fieldAt b 9 1 < 2 ∧ fieldAt b 10 6 = 0 ∧ fieldAt b 24 8 = 0

/-- An entry of the access table admits a request (R444). -/
def Admits (s : State) (peer : Nat) (write : Bool) (pa n : Nat) : Prop :=
  ∃ e ∈ s.access, e.peers.getLsbD peer = true ∧ (if write then e.w else e.r) = true ∧ e.base ≤ pa ∧ pa + n ≤ e.base + e.size

/-- The bits of a mode register of a head (Table 22-6). -/
def modeBits (v : BitVec 64) (i n : Nat) : Nat := v.toNat / 2 ^ i % 2 ^ n

/-- A head after a write of its mode register: a field that would take a value that Table 22-6 does not allow stays. -/
def headSet (h : Head) (v : BitVec 64) : Head :=
  { h with
    stride := if modeBits v 0 18 % 256 = 0 then modeBits v 0 18 else h.stride
    width := if 1 ≤ modeBits v 18 16 ∧ modeBits v 18 16 ≤ 16384 then modeBits v 18 16 else h.width
    height := if 1 ≤ modeBits v 34 16 ∧ modeBits v 34 16 ≤ 16384 then modeBits v 34 16 else h.height
    fmt := if modeBits v 50 2 < 3 then modeBits v 50 2 else h.fmt
    en := v.getLsbD 52, vblanks := if h.en = false ∧ v.getLsbD 52 = true then 0 else h.vblanks }

/-- The mode register of a head, as it reads (Table 22-6). -/
def headMode (h : Head) : Nat :=
  h.stride + 2 ^ 18 * h.width + 2 ^ 34 * h.height + 2 ^ 50 * h.fmt + if h.en = true then 2 ^ 52 else 0

/-- The registers of BAR0: offset, bytes and value (R442, R443, Tables 22-3, 22-4, 22-6, 22-7). DOORBELL is WO. -/
def barTable (s : State) : List (Nat × Nat × Nat) :=
  ((List.range 5).map fun i => (0x1000 + 8 * i, 8, Tab.get 0 s.versions i)) ++
  ((List.range 4).map fun q => (0x10000 + 16 * q, 8, Tab.get 0 s.qbase q)) ++
  ((List.range 4).map fun q => (0x10008 + 16 * q, 8, 0)) ++
  (s.heads.zipIdx.map fun e => (0x20000 + 64 * e.2, 8, e.1.flippa)) ++
  (s.heads.zipIdx.map fun e => (0x20008 + 64 * e.2, 8, headMode e.1)) ++
  (s.heads.zipIdx.map fun e => (0x20010 + 64 * e.2, 4, e.1.vblanks.toNat)) ++
  ((List.range 48).map fun i => (0x30000 + 2 * i, 2, (Tab.get 0 s.temps i).toNat)) ++
  ((List.range 80).map fun c => (0x30102 + 4 * c, 2, (s.cluster c).ring.toNat)) ++
  [(0x30400, 2, s.board.toNat), (0x30402, 2, s.mhz % 2 ^ 16), (0x50000, 4, s.peerId % 2 ^ 32)]

/-- The parts of a request, one for each memory window that it touches (R439). -/
def PartsOf (r : BusReq) (n : Nat) (parts : List (Nat × BusReq)) : Prop :=
  parts.map (fun e => e.1) = ((List.range 4).filter fun q => decide (r.addr < (q + 1) * 2 ^ 35 ∧ q * 2 ^ 35 < r.addr + n)) ∧
  ∀ e ∈ parts, e.2.write = r.write ∧ e.2.addr = max r.addr (e.1 * 2 ^ 35) ∧
    e.2.len = min (r.addr + n) ((e.1 + 1) * 2 ^ 35) - e.2.addr ∧ e.2.data = (r.data.drop (e.2.addr - r.addr)).take e.2.len

/-- A request lies in one memory window, whose HSC has no part of another to perform. -/
def OneWindow (s : State) (a n : Nat) : Prop := (a + n - 1) / 2 ^ 35 = a / 2 ^ 35 ∧ ∀ e ∈ s.hsc, e.1 ≠ a / 2 ^ 35

/-- The head of a display becomes another; the other heads stay. -/
def HeadIs (s u : State) (k : Nat) (h : Head) : Prop :=
  u = { s with heads := u.heads } ∧ ∀ j, u.heads[j]? = if j = k then some h else s.heads[j]?

/-- Line i of a frame: 32 bytes of a row of the surface, or what is left of the row (R448). -/
def lineOf (s : State) (f : Scan) (i : Nat) : List Byte :=
  let n := (f.row + 31) / 32
  takes1 (bytesIn s) (fun x => f.surface + i / n * f.stride + 32 * (i % n) + x) (min 32 (f.row - 32 * (i % n)))

/-- The lines of a frame. -/
def linesOf (f : Scan) : Nat := f.height * ((f.row + 31) / 32)

/-- The hottest sensor lies below a temperature, in eighths of a degree. -/
def coolerThan (s : State) (t : Int) : Prop := ∀ i < 48, (Tab.get 0 s.temps i).toInt < t

/-- The temporary thread context in which the port posts what came back for a record (R445). -/
def portContext (h : HandOut) : Thread :=
  { num := h.thread, kind := .record, core := h.core, asid := h.asid, gslot := 0xFF, lid := 0, cmd := h.cmd, rva := h.rva
    t := [], pc := 0, words := [], payload := h.payload, tag := 0, cq := h.cq, ext := 0, dtab := 0, prog := 0
    seq := h.entries }

/-- The record is the only one that is handed off, and its thread context is free; its context is not being terminated. -/
def HandedOff (s : State) (h : HandOut) : Prop :=
  s.handOut = [h] ∧ h.lost = false ∧ s.tabs = true ∧ ¬ contextUsed s h.core h.thread ∧
    (∀ t ∈ (s.core h.core).trp.threads, ¬ (t.asid = h.asid ∧ t.rva = h.rva)) ∧
    ∀ c, s.ctx? h.asid = some c → c.killed = none

/-- The link is up with a hand-off version that both ports accept (R442). -/
def linkAgreed (s : State) : Prop := s.linkUp = true ∧ s.linkLo ≤ 1 ∧ 1 ≤ s.linkHi

/-- The state in which the link has just gone down, and vector 16 has told of it. -/
def unlinked (s : State) : State :=
  if s.linkUp = true then { s with linkUp := false, versions := Tab.put 0 s.versions 4 0, out := s.out ++ [.msix 16] } else s

end Sys2Proof.Claims

section

open Sys2Proof Sys2Proof.Machine Sys2Proof.Claims

/-- R402, R437 to R442, R448, R452, R454: requests of the host. BAR2 reaches device memory; a doorbell reads the descriptor
that it names, once host queues have an accepted version; a selection outside the advertised range reads as 0; a register of
BAR0 takes its RW fields, but not a value that its table does not allow, and reads as the tables say; DROOP clears when it is
read; a request over two memory windows is split, each part for its HSC; a stopped device answers Completer Abort and raises
vector 16.
Readings of the model in it: log entries 68, 69, 70 and 76. -/
def Obligations.HostRequests : Prop :=
  (∀ s req q n id ma mi off c v, ∀ i ∈ hostRequests req q n id ma mi off c v,
    (s.stopped = true → ∃ a, exec i s = .next { s with out := s.out ++ [.completerAbort a, .msix 16] }) ∧
    (s.stopped = false → s.hostFrozen = true → ∃ a, exec i s = .next { s with out := s.out ++ [.unsupported a] })) ∧
  (∀ s a n data, HostServed s →
    (s.booted = false ∨ s.recovery = true → exec (.hostMemoryRequest ⟨false, a, data, n⟩) s = .next s ∧
      exec (.hostMemoryRequest ⟨true, a, data, n⟩) s = .next s) ∧
    (s.booted = true → s.recovery = false → a + n ≤ 2 ^ 37 → 0 < n → OneWindow s a n →
      ∃ u, exec (.hostMemoryRequest ⟨false, a, data, n⟩) s = .next u ∧ u.mem = s.mem ∧ u.waves = s.waves ∧ u.groups = s.groups ∧
        u.out = s.out ++ [.hostRead a (some (takes1 (bytesIn s) (fun i => a + i) n))]) ∧
    (s.booted = true → s.recovery = false → a + data.length ≤ 2 ^ 37 → data ≠ [] → Memory.wf s.mem = true →
      OneWindow s a data.length → Unwatched s a data.length → ∃ u, exec (.hostMemoryRequest ⟨true, a, data, n⟩) s = .next u ∧ Wrote s u a data ∧
        u.waves = s.waves ∧ u.groups = s.groups ∧ u.out = s.out) ∧
    (∀ w, s.booted = true → s.recovery = false → a + n ≤ 2 ^ 37 → (w = true → data.length = n) → 0 < n →
      (a + n - 1) / 2 ^ 35 ≠ a / 2 ^ 35 → ∃ parts, exec (.hostMemoryRequest ⟨w, a, data, n⟩) s = .next { s with
        hsc := s.hsc ++ parts } ∧ PartsOf ⟨w, a, data, n⟩ n parts)) ∧
  (∀ s dt q r rest more, s.agenda = ⟨dt, .hsc q⟩ :: more → s.stopped = false → s.hsc = (q, r) :: rest →
    (r.write = false → ∃ u, step s = .next u ∧ u.hsc = rest ∧ u.mem = s.mem ∧ u.waves = s.waves ∧
      u.out = s.out ++ [.hostRead r.addr (some (takes1 (bytesIn s) (fun i => r.addr + i) r.len))]) ∧
    (r.write = true → r.addr + r.data.length ≤ 2 ^ 37 → Memory.wf s.mem = true → Unwatched s r.addr r.data.length →
      ∃ u, step s = .next u ∧ u.hsc = rest ∧ Wrote s u r.addr r.data ∧ u.waves = s.waves ∧ u.out = s.out)) ∧
  (∀ s quad n, HostServed s → s.booted = true → s.recovery = false → quad < 4 → n < 64 →
    let at_ := Tab.get 0 s.qbase quad + 32 * n
    let b := takes1 (bytesIn s) (fun i => at_ + i) 32
    let rest := s.hostQs.filter fun x => decide (¬ (x.q = quad ∧ x.n = n))
    let size := 2 ^ fieldAt b 8 1
    (Tab.get 0 s.versions 0 = 0 → exec (.doorbell quad n) s = .next s) ∧
    (Tab.get 0 s.versions 0 ≠ 0 → ¬ (quad * 2 ^ 35 ≤ at_ ∧ at_ + 32 ≤ (quad + 1) * 2 ^ 35) →
      exec (.doorbell quad n) s = .next { s with out := s.out ++ [.msix 16] }) ∧
    (Tab.get 0 s.versions 0 ≠ 0 → (∀ e ∈ s.hsc, e.1 ≠ quad) → quad * 2 ^ 35 ≤ at_ → at_ + 32 ≤ (quad + 1) * 2 ^ 35 →
      (¬ descriptorOk quad b →
        exec (.doorbell quad n) s = .next { s with hostQs := rest, out := s.out ++ [.msix 16] }) ∧
      (descriptorOk quad b → fieldAt b 9 1 = 0 → exec (.doorbell quad n) s = .next { s with hostQs := rest }) ∧
      (descriptorOk quad b → fieldAt b 9 1 = 1 → exec (.doorbell quad n) s = .next { s with
        hostQs := rest ++ [⟨quad, n, fieldAt b 0 8, fieldAt b 8 1, fieldAt b 16 4 % size, fieldAt b 20 4 % size⟩] }))) ∧
  (∀ s id major minor, HostServed s → s.recovery = false → id ≤ 4 → Tab.wf 0 s.versions = true →
    ∃ u, exec (.versionSelect id major minor) s = .next u ∧ u = { s with versions := u.versions } ∧
      ∀ k, Tab.get 0 u.versions k =
        if k = id then (if major = 1 ∧ minor = 0 then 1 else 0) else Tab.get 0 s.versions k) ∧
  (∀ s (v : BitVec 64) k, HostServed s → s.recovery = false → Tab.wf 0 s.qbase = true → k < 4 →
    (∃ u, exec (.registerWrite (0x10000 + 16 * k) v) s = .next u ∧ u = { s with qbase := u.qbase } ∧
      ∀ j, Tab.get 0 u.qbase j = if j = k ∧ v.toNat % 4096 = 0 ∧ k * 2 ^ 35 ≤ v.toNat ∧ v.toNat + 2048 ≤ (k + 1) * 2 ^ 35
        then v.toNat else Tab.get 0 s.qbase j) ∧
    (∀ h, s.heads[k]? = some h →
      (∃ u, exec (.registerWrite (0x20000 + 64 * k) v) s = .next u ∧ HeadIs s u k { h with
        flippa := if v.toNat % 8 = 0 ∧ v.toNat % 2 ^ 46 < 2 ^ 37 then v.toNat % 2 ^ 46 else h.flippa }) ∧
      (∃ u, exec (.registerWrite (0x20008 + 64 * k) v) s = .next u ∧ HeadIs s u k (headSet h v)) ∧
      exec (.registerWrite (0x20010 + 64 * k) v) s = .next s) ∧
    exec (.registerWrite 0x50000 v) s = .next { s with peerId := v.toNat % 8 } ∧
    (∀ off, 0x30000 ≤ off → off < 0x40000 → exec (.registerWrite off v) s = .next s)) ∧
  (∀ s c, HostServed s → s.recovery = false → c < 80 → s.tabs = true →
    ∃ u, exec (.droopRead c) s = .next u ∧ u = { s with clusters := u.clusters, out := u.out, freeCtr := s.freeCtr + 1 } ∧
      u.out = s.out ++ [.regRead (0x30100 + 4 * c)
        (BitVec.ofNat 64 ((s.cluster c).droop.toNat + 2 ^ 16 * (s.cluster c).ring.toNat))] ∧
      ∀ k, u.cluster k = if k = c then { s.cluster k with droop := 0 } else s.cluster k) ∧
  (∀ s dt off len more, s.agenda = ⟨dt, .barRead off len⟩ :: more → HostServed s →
    (∀ i < 5, off = 8 * i → len = 8 →
      ∃ u, step s = .next u ∧ u.mem = s.mem ∧ u.out = s.out ++ [.regRead off (BitVec.ofNat 64 (i + 2 ^ 8 + 2 ^ 16))]) ∧
    (∀ v, s.recovery = false → s.heads.length = 4 → (off, len, v) ∈ barTable s →
      ∃ u, step s = .next u ∧ u.mem = s.mem ∧ u.out = s.out ++ [.regRead off (BitVec.ofNat 64 v)]) ∧
    (s.recovery = true → 40 ≤ off → ∃ u, step s = .next u ∧ u.mem = s.mem ∧ u.out = s.out ++ [.regRead off 0])) ∧
  (∀ s, s.stopped = false → ∃ u, exec .functionLevelReset s = .next u ∧ u.hostFrozen = false ∧ u.qbase = [] ∧ u.versions = [] ∧
    u.hostQs = [] ∧ u.heads = [{}, {}, {}, {}] ∧ u.booted = s.booted ∧ u.measure = s.measure ∧ u.waves = s.waves ∧
    ∀ c, s.ctx? c.asid = some c → c.killed = none → s.hasWork c.asid = true →
      ∃ c', u.ctx? c.asid = some c' ∧ c'.killed = some 0x3C0)

/-- R443, R444: a request of a peer that an entry admits is made, and any other gets an error response and touches nothing;
an atomic request gets an error response. -/
def Obligations.PeerRequests : Prop :=
  (∀ s peer a n data, s.stopped = false → s.linkUp = true → peer < 8 → a + n ≤ 2 ^ 37 → 0 < n → n ≤ 256 → data.length = n →
    (Admits s peer false a n → ∃ u, exec (.peerRequest peer ⟨false, a, data, n⟩) s = .next u ∧ u.mem = s.mem ∧
      u.waves = s.waves ∧ u.groups = s.groups ∧
      u.out = s.out ++ [.peerRead peer a (some (takes1 (bytesIn s) (fun i => a + i) n))]) ∧
    (Admits s peer true a n → Memory.wf s.mem = true → Unwatched s a n →
      ∃ u, exec (.peerRequest peer ⟨true, a, data, n⟩) s = .next u ∧ Wrote s u a data ∧ u.waves = s.waves ∧
        u.groups = s.groups ∧ u.out = s.out) ∧
    (∀ w, ¬ Admits s peer w a n →
      exec (.peerRequest peer ⟨w, a, data, n⟩) s = .next { s with out := s.out ++ [.peerError peer a] })) ∧
  (∀ s peer a, s.stopped = false → s.linkUp = true →
    exec (.peerAtomicRequest peer a) s = .next { s with out := s.out ++ [.peerError peer a] }) ∧
  (∀ s peer a req, s.linkUp = false → exec (.peerAtomicRequest peer a) s = .next s ∧ exec (.peerRequest peer req) s = .next s)

/-- R437, R442, R445, R446: the link comes up with the hand-off version that both ports accept, and goes down, and vector 16
tells of both; a packet that the hand-off table knows waits for a thread, and any other is refused; a returned entry is
posted at the origin, END writes the record too, and a link that goes down ends a handed-off record with TR_REMOTE.
Readings of the model in it: log entries 53 and 77. -/
def Obligations.HandOffs : Prop :=
  (∀ s lo hi minor, s.stopped = false → Tab.wf 0 s.versions = true →
    (∃ u, exec (.ualinkLinkUp lo hi minor) s = .next u ∧
      u = { s with linkUp := true, linkLo := lo, linkHi := hi, versions := u.versions, out := s.out ++ [.msix 16] } ∧
      ∀ k, Tab.get 0 u.versions k = if k = 4 then (if lo ≤ 1 ∧ 1 ≤ hi then 1 else 0) else Tab.get 0 s.versions k) ∧
    (s.linkUp = true → s.handOut = [] → ∃ u, exec .ualinkLinkDown s = .next u ∧
      u = { s with linkUp := false, versions := u.versions, out := s.out ++ [.msix 16] } ∧
      ∀ k, Tab.get 0 u.versions k = if k = 4 then 0 else Tab.get 0 s.versions k)) ∧
  (∀ s h q cpa epa dpa spa, s.stopped = false → HandedOff s h →
    let t := portContext h
    let s' := unlinked s
    EngineMay s' h.core h.asid (h.rva + 60) 4 spa →
    let m := written (bytesIn s) spa (bytesLE 4 3)
    Room s' h.core t m q cpa epa dpa → ∃ u, exec .ualinkLinkDown s = .next u ∧ u.handOut = [] ∧
      Posted1 s' u h.core t m q epa dpa 3 [0x234, 0, 0] ∧ ∀ c n, threadOf u c n = threadOf s c n) ∧
  (∀ s h, s.stopped = false → s.linkUp = true → s.handOut = [h] → s.handBusy h = true →
    exec .ualinkLinkDown s = .next { unlinked s with handOut := [{ h with lost := true }] }) ∧
  (∀ s ret, (∀ h ∈ s.handOut, h.seq = ret.seq → h.lost = true) → exec (.handoffReturn ret) s = .next s) ∧
  (∀ s pkt, s.stopped = false → linkAgreed s →
    let peer := fieldAt pkt 328 1
    let seq := fieldAt pkt 332 4
    let refused := { s with out := s.out ++ [.handRefused peer seq] }
    ((∀ e ∈ s.hand, ¬ (e.peer = peer ∧ e.asid = fieldAt pkt 330 2)) → exec (.handoffArrival pkt) s = .next refused) ∧
    (∀ e, s.hand.find? (fun e => e.peer == peer && e.asid == fieldAt pkt 330 2) = some e →
      let known (id : Nat) : Prop := ∃ d ∈ (s.core e.core).trp.tables, d.asid = e.localAsid ∧ d.id = id
      let ready := (∃ ws, ProgramIs s e.core e.localAsid (fieldAt pkt 8 2) ws) ∧ known (fieldAt pkt 10 1) ∧
        (fieldAt pkt 134 1 ≠ 0xFF → known (fieldAt pkt 134 1))
      (¬ ready → exec (.handoffArrival pkt) s = .next refused) ∧
      (ready → s.tabs = true → s.cores.all (fun c => c.2.trp.queue.isEmpty && c.2.trp.threads.isEmpty) = true →
        (∃ c, s.ctx? e.localAsid = some c ∧ c.killed = none) →
        ∃ u r, exec (.handoffArrival pkt) s = .next u ∧ u = { s with cores := u.cores } ∧
          (u.core e.core).trp.queue = [r] ∧ r.asid = e.localAsid ∧ r.hand = some (pkt, peer, seq) ∧ r.needs = []))) ∧
  (∀ s core num r pkt peer seq words, s.tabs = true → FreeContext s core num → r.resume = none → r.needs = [] →
    (∃ pre post, (s.core core).trp.queue = pre ++ r :: post ∧ ∀ x ∈ pre, s.mayStart core x = false) → mayTake s core r →
    r.hand = some (pkt, peer, seq) → pkt.length = 352 →
    let e := (pkt.drop 64).take 256
    ProgramIs s core r.asid (fieldAt pkt 8 2) words → fieldAt e 70 1 = 0xFF → fieldAt e 68 1 ≤ 16 →
    ∃ u x, exec (.trpThreadStart core) s = .next u ∧ u.mem = s.mem ∧ ThreadAt s u core num (some x) ∧
      x.kind = .handed seq peer ∧ x.asid = r.asid ∧ x.words = words ∧ x.pc = fieldAt e 64 4 ∧ x.node = none ∧ x.stat = .ready ∧
      x.spilled = 0 ∧ x.stack.length = fieldAt e 68 1 ∧
      (∀ i < x.stack.length, x.stack[i]? = some (BitVec.ofNat 64 (fieldAt e (128 + 8 * (fieldAt e 68 1 - 1 - i)) 8))) ∧
      ∀ i < 16, x.read (BitVec.ofNat 4 i) = extReg e i) ∧
  (∀ s h ret q cpa epa dpa rpa spa, s.stopped = false → linkAgreed s → HandedOff s h → ret.seq = h.seq → ret.words.length = 3 →
    let t := portContext h
    (ret.kind ≠ 3 → ret.final = false → Room s h.core t (bytesIn s) q cpa epa dpa →
      ∃ u, exec (.handoffReturn ret) s = .next u ∧ u.handOut = [{ h with entries := (h.entries + 1) % 2 ^ 16 }] ∧
        Posted1 s u h.core t (bytesIn s) q epa dpa ret.kind ret.words ∧ ∀ c n, threadOf u c n = threadOf s c n) ∧
    (EngineMay s h.core h.asid (h.rva + 36) 12 rpa → EngineMay s h.core h.asid (h.rva + 60) 4 spa →
      (ret.kind ≠ 3 → ret.final = true → ret.endWords.length = 3 →
        let m := written (written (bytesIn s) rpa (ret.endWords.map fun x => bytesLE 4 x.toNat).flatten) spa (bytesLE 4 1)
        Room s h.core t m q cpa epa dpa → ∃ u, exec (.handoffReturn ret) s = .next u ∧ u.handOut = [] ∧
          Posted1 s u h.core t m q epa dpa ret.kind ret.words ∧ ∀ c n, threadOf u c n = threadOf s c n) ∧
      (ret.kind = 3 →
        let m := written (bytesIn s) spa (bytesLE 4 3)
        Room s h.core t m q cpa epa dpa → ∃ u, exec (.handoffReturn ret) s = .next u ∧ u.handOut = [] ∧
          Posted1 s u h.core t m q epa dpa 3 [narrow ((ret.words.getD 0 0).toNat % 2 ^ 10 : Nat), ret.words.getD 1 0, 0] ∧
          ∀ c n, threadOf u c n = threadOf s c n))) ∧
  (∀ s ret, (∀ h ∈ s.handOut, h.seq ≠ ret.seq) → exec (.handoffReturn ret) s = .next s)

/-- R448, R452 to R454: a vertical blank reads the flip word, and the next frame is scanned out of the surface, line by line;
DROOP saturates; the power manager steps
the clock by 50 MHz within 1,350 and 1,700 MHz; at 110 degrees the clock stops, resident work is lost, and vector 16 is
raised.
Readings of the model in it: log entry 74. -/
def Obligations.DisplayAndPower : Prop :=
  (∀ s k h, s.stopped = false → s.heads[k]? = some h →
    (h.en = false → exec (.verticalBlank k) s = .next s) ∧
    (h.en = true → h.flippa % 8 = 0 → h.flippa < 2 ^ 37 → h.stride % 256 = 0 → 1 ≤ h.width → h.width ≤ 16384 →
      1 ≤ h.height → h.height ≤ 16384 → h.fmt < 3 →
      let v := leNat (takes1 (bytesIn s) (fun i => h.flippa + i) 8)
      let surface := if v % 2 = 1 then some (v % 2 ^ 46 / 2 ^ 12 * 2 ^ 12) else h.surface
      ∃ u h', exec (.verticalBlank k) s = .next u ∧ u.mem = s.mem ∧ u.waves = s.waves ∧ u.heads[k]? = some h' ∧
        h' = { h with vblanks := h.vblanks + 1, surface := surface, scan := h'.scan, frame := h'.frame } ∧
        (surface = none → h'.scan = none) ∧
        (∀ a, surface = some a → h'.scan = some {
          surface := a, stride := h.stride, row := (if h.fmt = 2 then 8 else 4) * h.width, height := h.height }) ∧
        (h.scan = none → h'.frame = h.frame) ∧
        ∀ f, h.scan = some f → h'.frame =
          f.got ++ ((List.range (linesOf f - f.next)).map fun i => lineOf s f (f.next + i)).flatten)) ∧
  (∀ s dt k h f more, s.agenda = ⟨dt, .scanLine k⟩ :: more → s.stopped = false → s.heads[k]? = some h → h.scan = some f →
    f.next < linesOf f → ∃ u, step s = .next u ∧ u.mem = s.mem ∧
      u.heads[k]? = some { h with scan := some { f with next := f.next + 1, got := f.got ++ lineOf s f f.next } }) ∧
  (∀ s c, s.stopped = false → c < 80 → s.tabs = true →
    ∃ u, exec (.droopEvent c) s = .next u ∧ u = { s with clusters := u.clusters, pmDroop := true } ∧
      ∀ k, u.cluster k = if k = c then
        { s.cluster k with droop := BitVec.ofNat 16 (min 0xFFFF ((s.cluster k).droop.toNat + 1)) } else s.cluster k) ∧
  (∀ s, s.stopped = false →
    let now := s.pmTime + 100 * 254186856000
    let hot := 600 < s.board.toNat ∨ (∃ i < 48, 800 < (Tab.get 0 s.temps i).toInt) ∨ s.pmDroop = true
    let calm := s.board.toNat < 575 ∧ coolerThan s 760 ∧ s.pmDroop = false ∧ s.pmStep + 1000 * 254186856000 ≤ now
    (s.wall < now → exec .powerManagerDecision s = .next s) ∧
    (now ≤ s.wall → ∃ u, exec .powerManagerDecision s = .next u ∧
      u = { s with mhz := u.mhz, pmTime := now, pmStep := u.pmStep, pmHeld := u.pmHeld, pmDroop := false, out := u.out } ∧
      (hot → 1350 < s.mhz → u.mhz = max 1350 (s.mhz - 50) ∧ u.pmStep = now ∧ u.out = s.out) ∧
      (hot → s.mhz ≤ 1350 → u.mhz = s.mhz ∧ u.pmStep = s.pmStep ∧ u.pmHeld = s.pmHeld + 1 ∧
        u.out = s.out ++ if s.pmHeld + 1 = 500 then [.msix 16] else []) ∧
      (calm → s.mhz < 1700 → u.mhz = min 1700 (s.mhz + 50) ∧ u.pmStep = now ∧ u.out = s.out) ∧
      (¬ hot → ¬ calm ∨ 1700 ≤ s.mhz → u.mhz = s.mhz ∧ u.pmStep = s.pmStep ∧ u.pmHeld = 0 ∧ u.out = s.out))) ∧
  (∀ s i, s.stopped = false → i < 48 →
    ((Tab.get 0 s.temps i).toInt < 880 → exec (.thermalTrip i) s = .next s) ∧
    (880 ≤ (Tab.get 0 s.temps i).toInt → ∃ u, exec (.thermalTrip i) s = .next u ∧ u.stopped = true ∧ u.waves = [] ∧
      u.groups = [] ∧ u.launches = [] ∧ u.out = s.out ++ [.msix 16] ∧ u.mem = s.mem))

end

namespace Sys2Proof.Claims

open Sys2Proof.Machine

/-- A context descriptor obeys Table 17-8. -/
def contextOk (b : List Byte) : Prop :=
  let f := fieldAt b
  let power (lo hi n : Nat) : Prop := lo ≤ n ∧ n ≤ hi ∧ ∃ k < 64, n = 2 ^ k
  f 2 1 < 16 ∧ f 3 1 < 2 ∧ f 4 4 = 0 ∧ f 8 8 % 2 ^ 12 = 0 ∧ f 16 8 % 2 ^ 16 = 0 ∧ power 16 1024 (f 24 2) ∧ power 64 4096 (f 26 2) ∧
    f 28 4 = 0 ∧ f 32 8 % 2 ^ 16 = 0 ∧ f 40 8 % 2 ^ 12 = 0 ∧ f 48 8 % 128 = 0 ∧ 6 ≤ f 56 1 ∧ f 56 1 ≤ 16 ∧ f 57 3 = 0 ∧
    f 72 8 % 2 ^ 16 = 0 ∧ f 80 4 % 2 ^ 16 = 0 ∧ f 84 4 = 0 ∧ f 88 8 % 64 = 0 ∧ f 96 32 = 0

/-- A table with one entry changed. -/
def OneEntry (old new : Tab Nat) (k v : Nat) : Prop := ∀ j, Tab.get 0 new j = if j = k then v else Tab.get 0 old j

/-- A router lies on the dimension-ordered route from one cluster to another (R14, Table 12-2). -/
def onRoute (yFirst : Bool) (a b r : Nat) : Prop :=
  let btw (lo hi k : Nat) : Prop := min lo hi ≤ k ∧ k ≤ max lo hi
  if yFirst = true then (r % 10 = a % 10 ∧ btw (a / 10) (b / 10) (r / 10)) ∨ (r / 10 = b / 10 ∧ btw (a % 10) (b % 10) (r % 10))
  else (r / 10 = a / 10 ∧ btw (a % 10) (b % 10) (r % 10)) ∨ (r % 10 = b % 10 ∧ btw (a / 10) (b / 10) (r / 10))

/-- The routes of a class between the clusters of a partition stay inside it (R272). -/
def RoutesStay (s : State) (cls part : Nat) : Prop :=
  ∀ a < 80, ∀ b < 80, ∀ r < 80, Tab.get 0 s.parts a = part → Tab.get 0 s.parts b = part →
    onRoute ((Tab.get 0 s.routes (16 * a + cls)).getLsbD 0) a b r → Tab.get 0 s.parts r = part

/-- The ways of a partition are allotted: a way changes only when it was free and an allotment names it, and each one that
names a way of the partition for a context of the device leaves it allotted (R189). -/
def Allotted (s u : State) (cl : List Nat) (ways : List (Nat × Nat × Nat)) : Prop :=
  let may (e : Nat × Nat × Nat) : Prop := e.2.1 ∈ cl ∧ e.2.2 < 8 ∧ s.ctx? e.1 ≠ none
  (∀ j, Tab.get 0 u.ways j ≠ Tab.get 0 s.ways j → Tab.get 0 s.ways j = 0 ∧
    ∃ e ∈ ways, may e ∧ j = 8 * e.2.1 + e.2.2 ∧ Tab.get 0 u.ways j = e.1 + 1) ∧
  ∀ e ∈ ways, may e → Tab.get 0 u.ways (8 * e.2.1 + e.2.2) ≠ 0

end Sys2Proof.Claims

section

open Sys2Proof Sys2Proof.Machine Sys2Proof.Claims

/-- R180, R189, R272, R404, R412, R444, R445: what the root service core does for the driver. A context is written while it
holds no work, with what the device has written kept; a partition is made of idle clusters of no other one, and receives its
ways; a reserved channel goes to a partition only when the class's routes stay inside it; ways, routes, feature words, CONS and the tables of the port take their values.
Readings of the model in it: log entries 75 and 84. -/
def Obligations.DriverRequests : Prop :=
  (∀ s n cl asids ways, s.stopped = false → Tab.wf 0 s.parts = true → Tab.wf 0 s.ways = true → 1 ≤ n → n ≤ 7 → cl.Nodup → (∀ k ∈ cl, k < 80) →
    (∀ k, k < 80 ∨ Tab.get 0 s.parts k = 0) →
    let free := (∀ k ∈ cl, Tab.get 0 s.parts k = 0 ∨ Tab.get 0 s.parts k = n) ∧
      ∀ g ∈ s.groups, clusterOf g.core ∉ cl ∧ (clusterOf g.core < 80 → Tab.get 0 s.parts (clusterOf g.core) ≠ n)
    (free → ∃ u, exec (.driverRequest (.partition n cl asids ways)) s = .next u ∧
      u = { s with parts := u.parts, partAsids := u.partAsids, ways := u.ways } ∧ Allotted s u cl ways ∧
      (∀ k, Tab.get 0 u.parts k =
        if k ∈ cl then n else if Tab.get 0 s.parts k = n then 0 else Tab.get 0 s.parts k) ∧
      ∀ a, (n, a) ∈ u.partAsids ↔ a ∈ asids) ∧
    (¬ free → exec (.driverRequest (.partition n cl asids ways)) s = .next s)) ∧
  (∀ s asid cl k, s.stopped = false → Tab.wf 0 s.ways = true → cl < 80 → k < 8 →
    (s.ctx? asid ≠ none → Tab.get 0 s.ways (8 * cl + k) = 0 →
      ∃ u, exec (.driverRequest (.allotWay asid cl k)) s = .next u ∧ u = { s with ways := u.ways } ∧
        OneEntry s.ways u.ways (8 * cl + k) (asid + 1)) ∧
    (Tab.get 0 s.ways (8 * cl + k) ≠ 0 → exec (.driverRequest (.allotWay asid cl k)) s = .next s) ∧
    (Tab.get 0 s.locks (8 * cl + k) = 0 → ∃ u, exec (.driverRequest (.takeWay cl k)) s = .next u ∧
      u = { s with ways := u.ways } ∧ OneEntry s.ways u.ways (8 * cl + k) 0)) ∧
  (∀ s router cls entry, s.stopped = false → Tab.wf 0 s.routes = true → router < 80 → cls < 16 → (∀ p ∈ s.net, p.cls ≠ cls) →
    ∀ s', s' = { s with routes := s'.routes } → Tab.wf 0 s'.routes = true →
      (∀ j, Tab.get 0 s'.routes j = if j = 16 * router + cls then entry &&& 0x7FF else Tab.get 0 s.routes j) →
      let vc := entry.toNat / 2 % 8
      let part := entry.toNat / 2 ^ 8 % 8
      (vc = 0 ∨ part = 0 ∨ RoutesStay s' cls part → exec (.driverRequest (.route router cls entry)) s = .next s') ∧
      (vc ≠ 0 → part ≠ 0 → ¬ RoutesStay s' cls part → exec (.driverRequest (.route router cls entry)) s = .next s)) ∧
  (∀ s asid mask cons, s.stopped = false →
    exec (.driverRequest (.features asid mask)) s = .next { s with
      ctxs := s.ctxs.map fun c => if c.asid = asid then { c with feat := mask } else c } ∧
    exec (.driverRequest (.freeRecords asid cons)) s = .next { s with
      ctxs := s.ctxs.map fun c => if c.asid = asid then { c with cons := cons % 2 ^ 32 } else c } ∧
    (s.hasWork asid = false → exec (.driverRequest (.dropContext asid)) s = .next { s with
      ctxs := s.ctxs.filter fun c => decide (c.asid ≠ asid) }) ∧
    (s.hasWork asid = true → exec (.driverRequest (.dropContext asid)) s = .next s)) ∧
  (∀ s b, s.stopped = false → b.length = 128 →
    (contextOk b → (∀ x ∈ s.ctxs, x.asid = fieldAt b 0 2 ∨ x.slot = fieldAt b 2 1 → s.hasWork x.asid = false) →
      ∃ u c, exec (.driverRequest (.context b)) s = .next u ∧ u = { s with ctxs := u.ctxs } ∧
        (∀ x, x ∈ u.ctxs ↔ x = c ∨ (x ∈ s.ctxs ∧ x.asid ≠ fieldAt b 0 2 ∧ x.slot ≠ fieldAt b 2 1)) ∧
        c.asid = fieldAt b 0 2 ∧ c.slot = fieldAt b 2 1 ∧ c.flags.toNat = fieldAt b 3 1 ∧ c.root = fieldAt b 8 8 ∧
        c.movbase = fieldAt b 16 8 ∧ c.ovkb = fieldAt b 24 2 ∧ c.covkb = fieldAt b 26 2 ∧ c.covbase = fieldAt b 32 8 ∧
        c.reuse = fieldAt b 40 8 ∧ c.afqbase.toNat = fieldAt b 48 8 ∧ c.afqlog = fieldAt b 56 1 ∧ c.cons = fieldAt b 68 4 ∧
        c.save = fieldAt b 72 8 ∧ c.sstride = fieldAt b 80 4 ∧ c.deque = fieldAt b 88 8 ∧ c.killed = none ∧ c.out = false ∧
        (∀ x, s.ctx? (fieldAt b 0 2) = some x → c.prod = x.prod ∧ c.lost = x.lost ∧ c.feat = x.feat) ∧
        (s.ctx? (fieldAt b 0 2) = none → c.prod = 0 ∧ c.lost = 0 ∧ c.feat = 0x1FF)) ∧
    (¬ contextOk b → exec (.driverRequest (.context b)) s = .next s) ∧
    (∀ x ∈ s.ctxs, x.asid = fieldAt b 0 2 → s.hasWork x.asid = true → exec (.driverRequest (.context b)) s = .next s)) ∧
  (∀ s e base k peers r w, s.stopped = false → e < 16 → 21 ≤ k → k ≤ 37 → base % 2 ^ k = 0 →
    ∃ u, exec (.driverRequest (.access e base (2 ^ k) peers r w)) s = .next u ∧ u = { s with access := u.access } ∧
      ∀ x, x ∈ u.access ↔ x = ⟨e, base, 2 ^ k, peers, r, w⟩ ∨ (x ∈ s.access ∧ x.e ≠ e)) ∧
  (∀ s e peer asid loc core, s.stopped = false → e < 16 → peer < 8 → core < 160 →
    ∃ u, exec (.driverRequest (.handoff e peer asid loc core)) s = .next u ∧ u = { s with hand := u.hand } ∧
      ∀ x, x ∈ u.hand ↔ x = ⟨e, peer, asid, loc, core⟩ ∨ (x ∈ s.hand ∧ x.e ≠ e))

end

namespace Sys2Proof.Claims

open Sys2Proof.Machine

/-- An image is accepted (R450). -/
def ImageGood (s : State) (m : FwImage) : Prop :=
  m.digest = Config.sha3 m.body ∧ m.publicKey.length = 2592 ∧ m.signature.length = 4627 ∧ m.keyIndex < 4 ∧
    Config.sha3 m.publicKey = Tab.get 0 s.fuses m.keyIndex ∧ s.revoked.getLsbD m.keyIndex = false ∧
    Config.mldsaVerify m.publicKey m.digest m.signature = true ∧ Tab.get 0 s.counters m.kind ≤ m.version

/-- The 64 bytes of a digest or of a measurement register. -/
def hashBytes (d : BitVec 512) : List Byte := bytesLE 64 d.toNat

/-- SPDM requests that need a negotiation before them (R451). -/
noncomputable def lateRequests (slot off len index : Nat) (nonce : BitVec 256) : List Instr :=
  [.getDigests, .getCertificate slot off len, .challenge slot nonce, .getMeasurements index]

/-- The answer of the device is one SPDM message, and nothing else has changed. -/
def Answers (i : Instr) (s : State) (code : Nat) (body : List Byte) : Prop :=
  exec i s = .next { s with out := s.out ++ [.spdm code body] }

end Sys2Proof.Claims

section

open Sys2Proof Sys2Proof.Machine Sys2Proof.Claims

/-- R450: a conventional reset clears the device, but for the fuses, and verifies root, SVC and HSC in this order; accepting
an image raises its counter and extends its register; one that fails, or is missing, leaves recovery mode. The numbers of
the images and the registers that they extend are the model's (log entry 60), and so is the reset that takes the images of
the recovery region (log entry 107). -/
def Sys2Proof.Claims.BootChecks : Prop :=
  (∀ s r v h, r.kind = 0 → v.kind = 1 → h.kind = 2 → Tab.wf 0 s.counters = true → Tab.wf 0 s.fuses = true → s.recov = [] →
    let good := ImageGood s r ∧ ImageGood s v ∧ ImageGood s h
    ∃ u, exec (.deviceReset [r, v, h]) s = .next u ∧ u.booted = !u.recovery ∧ (u.recovery = false ↔ good) ∧
      u.fuses = s.fuses ∧ u.revoked = s.revoked ∧ u.stopped = false ∧ u.mem = [] ∧ u.waves = [] ∧ u.groups = [] ∧
      u.ctxs = [] ∧ u.qbase = [] ∧ u.versions = [] ∧ u.spdmReady = 0 ∧
      (good → (∀ k, Tab.get 0 u.counters k = if k = 0 then r.version else if k = 1 then v.version else if k = 2 then h.version
          else Tab.get 0 s.counters k) ∧
        (∀ k, Tab.get 0 u.measure k = if k = 1 then Config.sha3 (hashBytes 0 ++ hashBytes r.digest)
          else if k = 2 then Config.sha3 (hashBytes 0 ++ hashBytes v.digest)
          else if k = 3 then Config.sha3 (hashBytes 0 ++ hashBytes h.digest) else 0)) ∧
      (¬ ImageGood s r → u.counters = s.counters ∧ u.measure = [])) ∧
  (∀ s, s.recov = [] → ∃ u, exec (.deviceReset []) s = .next u ∧ u.recovery = true ∧ u.booted = false ∧ u.counters = s.counters) ∧
  (∀ s imgs, exec (.deviceReset imgs) s = exec (.deviceReset (s.recov ++ imgs)) { s with recov := [] }) ∧
  (∀ s dt m more, s.agenda = ⟨dt, .recoveryImage m⟩ :: more → HostServed s →
    ∃ u, step s = .next u ∧ (s.recovery = false → u.recov = s.recov) ∧ (s.recovery = true →
      u.recov.find? (fun x => x.kind == m.kind) = some m ∧
      ∀ k, k ≠ m.kind → u.recov.find? (fun x => x.kind == k) = s.recov.find? fun x => x.kind == k))

/-- R451: the seven SPDM requests that the device answers, and ERROR for every other; slot 0 holds the chain; blocks 1 to 16
are the measurement registers and block 17 the fuse state. The codes, the order that they need and the content of a body
are the model's (log entry 61). -/
def Sys2Proof.Claims.Attestation : Prop :=
  (∀ s, HostServed s → exec .getVersion s = .next { s with spdmReady := 1, out := s.out ++ [.spdm 0x04 [0x13]] }) ∧
  (∀ s, HostServed s → s.spdmReady.getLsbD 0 = true →
    Answers .getCapabilities s 0x61 [] ∧
    (∀ a b, exec (.negotiateAlgorithms a b) s = .next { s with
      spdmReady := if a = true ∧ b = true then 3 else 1
      out := s.out ++ [.spdm 0x63 [if a = true then 1 else 0, if b = true then 1 else 0]] })) ∧
  (∀ s slot off len index nonce, HostServed s → s.spdmReady.getLsbD 1 = false →
    ∀ i ∈ lateRequests slot off len index nonce, Answers i s 0x7F [4]) ∧
  (∀ s off len nonce, HostServed s → s.spdmReady.getLsbD 1 = true →
    Answers .getDigests s 0x01 (hashBytes (Config.sha3 Config.certChain)) ∧
    Answers (.getCertificate 0 off len) s 0x02 ((Config.certChain.drop off).take len) ∧
    (∃ n : BitVec 256, ∃ u, exec (.challenge 0 nonce) s = .next u ∧ u = { s with freeCtr := u.freeCtr, out := u.out } ∧
      let body := hashBytes (Config.sha3 Config.certChain) ++ bytesLE 32 n.toNat
      u.out = s.out ++ [.spdm 0x03 (body ++ Config.mldsaSign (bytesLE 32 nonce.toNat ++ body))]) ∧
    (∀ slot, slot ≠ 0 → Answers (.getCertificate slot off len) s 0x7F [1] ∧ Answers (.challenge slot nonce) s 0x7F [1]) ∧
    Answers (.getMeasurements 0) s 0x60 [17] ∧
    (∀ k, 1 ≤ k → k ≤ 16 → Answers (.getMeasurements k) s 0x60 (hashBytes (Tab.get 0 s.measure k))) ∧
    (∃ b, Answers (.getMeasurements 17) s 0x60 b ∧
      b.take 256 = ((List.range 4).map fun i => hashBytes (Tab.get 0 s.fuses i)).flatten) ∧
    (∃ b, Answers (.getMeasurements 0xFF) s 0x60 b ∧
      b.take 1024 = ((List.range 16).map fun k => hashBytes (Tab.get 0 s.measure (k + 1))).flatten) ∧
    (∀ k, 17 < k → k ≠ 0xFF → Answers (.getMeasurements k) s 0x7F [1])) ∧
  (∀ s code, HostServed s → Answers (.spdmUnsupportedRequest code) s 0x7F [7])

end

/-! ## Encodings, steps and the whole machine -/

namespace Sys2Proof.Claims

open Sys2Proof.Machine

/-- Privileged instructions (R41). -/
def privileged (x : Word) : Prop := decodeWave false x = .bad 0x004

/-- The word that a wave fetches at an address is `x`: the instruction cache of its core holds it, or device memory does
(R249). -/
def Fetches (s : State) (w : Wave) (pc : DWord) (x : Word) : Prop :=
  ∃ pa how, Reaches s w .fetch pc pa how ∧ s.windowOk (s.asidOf w) pa = true ∧
    match assoc (s.core w.core).ic (pa / 4) with
    | some y => x = y
    | none => inDev pa = true ∧ x.toNat = leNat (s.mem.read pa 4)

/-- The state of a turn after its time has passed. -/
def afterTime (s : State) : State := s.takeTurn.2

/-- The waves apart from one have aged at most, and a wave that yields has seen an offer (R145, R153). -/
def OthersAge (s t : State) (core slot : Nat) : Prop :=
  ∀ c k, ¬ (c = core ∧ k = slot) →
    match s.wave? c k, t.wave? c k with
    | some v, some v' => v' = { v with age := v'.age, stat := v'.stat } ∧ (v.age = v'.age ∨ v'.age = v.age + 1) ∧
        (v'.stat = v.stat ∨ ∃ n a b, v.stat = .yielded n a ∧ v'.stat = .yielded n b)
    | a, b => a = none ∧ b = none

/-- A wave is the next that its partition issues (R152, R153): it is ready, no other comes before it, none is due for
promotion, and its path does not stand at its join. -/
structure IssuesNext (s : State) (core part : Nat) (w : Wave) (p : Path) : Prop where
  tabs : s.tabs = true
  ready : w ∈ s.readyIn core part
  here : s.wave? core w.slot = some w
  first : ∀ v ∈ s.readyIn core part, v ≠ w → before w v = true ∧ before v w = false
  calm : ∀ v ∈ s.readyIn core part, s.promotable v = false
  path : w.choose = some p
  join : p.pc ≠ p.join
  run : w.stat = .run ∨ w.stat = .switch

end Sys2Proof.Claims

section

open Sys2Proof Sys2Proof.Machine Sys2Proof.Claims

/-- R31 to R42, R366: some words, written out from the layouts of Tables 2-1, 2-3 and of the entries, decode to the
instructions that they stand for; words that Table 2-6 refuses decode to its causes. -/
def Obligations.DecodeWords : Prop :=
  (∀ e ∈ ([
      (0b0_000001_111_000011_000001_000010_0000#32, .addR ⟨false, 7⟩ 3 1 2),
      (0b1_000001_010_000011_000001_000010_0010#32, .andR ⟨true, 2⟩ 3 1 2),
      (0b0_111110_0000000_000110_001000_000000#32, .launch false 6 8),
      (0b0_111011_0001000_000100_000110_000000#32, .pfArm false 4 6 0),
      (0b0_111011_0000000_000101_001000_001010#32, .trLaunch false 5 8 10)] : List (Word × Instr)),
    decodeWave false e.1 = .ok e.2 ∧ decodeWave true e.1 = .ok e.2) ∧
  (∀ e ∈ ([
      (0b010000_0000_1000_0000_00000000000001#32, .nfetch 8 1),
      (0b010010_1110_0000_0000_00000000000000#32, .ngetKind 14),
      (0b011000_1010_0000_0000_00000000000000#32, .tbox 10 0),
      (0b100010_1000_0000_0000_00000000001000#32, .tpop 8 8),
      (0b101001_0000_1100_0000_00000000000000#32, .endDone 12),
      (0#32, .tnop)] : List (Word × Instr)), decodeTrav e.1 = .ok e.2) ∧
  decodeWave false (0b0_011011_111_000000_000000_000000_0000#32) = .bad 0x001 ∧
  decodeWave false (0b0_101101_111_000000_000000_000000_1111#32) = .bad 0x002

/-- R31 to R42, R366: the encoder and the decoders agree on every instruction that has an encoding: what a well-formed one is
encoded as decodes to it, what decodes is well-formed and encodes back to its word, and outside a service core a word
decodes as there, or traps as privileged. -/
def Obligations.DecodeEncode : Prop :=
  (∀ i x, encode i = some x → wellFormed i = true → decodeWave true x = .ok i ∨ decodeTrav x = .ok i) ∧
  (∀ i x, decodeWave true x = .ok i → wellFormed i = true ∧ encode i = some x) ∧
  (∀ i x, decodeTrav x = .ok i → wellFormed i = true ∧ encode i = some x) ∧
  (∀ x, decodeWave false x = decodeWave true x ∨ privileged x)

/-- A turn of a partition runs the instruction that the word at the PC of its next wave decodes to, or its decode trap; a turn
of a TRP runs the one at the PC of its next thread; a turn of an event runs the event; a step without a turn passes one cycle
(R17, R42, R152, R357; the agenda is the model's, log entry 1). -/
def Obligations.StepRuns : Prop :=
  (∀ s dt core part rest w p x, s.agenda = ⟨dt, .issue core part⟩ :: rest → s.stopped = false →
    IssuesNext (afterTime s) core part w p → Fetches (afterTime s) (w.onPath p) p.pc x →
    ∃ t, t.selCore = core ∧ t.selSlot = w.slot ∧ t.mem = s.mem ∧ t.groups = s.groups ∧ OthersAge (afterTime s) t core w.slot ∧
      t.agenda = rest ∧ match decodeWave (isService core) x with
        | .ok i => step s = exec i t ∧
            t.wave? core w.slot = some { w.onPath p with age := 0, promoted := none, word := x, bad := none }
        | .bad c => step s = exec (.decodeTrap x) t ∧
            t.wave? core w.slot = some { w.onPath p with age := 0, promoted := none, word := x, bad := some c }) ∧
  (∀ w p, w.stat = .run → p.made = w.cur → Machine.Wave.onPath w p = w) ∧
  (∀ s dt core part rest, s.agenda = ⟨dt, .issue core part⟩ :: rest → s.stopped = false →
    (afterTime s).readyIn core part = [] → step s = .next (afterTime s)) ∧
  (∀ s dt core rest t k, s.agenda = ⟨dt, .trav core⟩ :: rest → s.stopped = false → s.tabs = true → k < 64 →
    threadOf s core (((s.core core).trp.last + 1 + k) % 64) = some t → s.threadReady core t = true →
    (∀ j < k, ∀ v, v ∈ (s.core core).trp.threads → v.num = ((s.core core).trp.last + 1 + j) % 64 →
      s.threadReady core v = false) →
    let x := t.words.getD t.pc 0xFFFFFFFF
    ∃ u, u.selCore = core ∧ u.selSlot = t.num ∧ (u.core core).trp.last = t.num ∧ u.mem = s.mem ∧ u.waves = s.waves ∧
      match decodeTrav x with
        | .ok i => step s = exec i u ∧ ThreadAt s u core t.num (some { t with word := x, bad := none })
        | .bad c => step s = exec (.traversalWordNotInstruction x) u ∧
            ThreadAt s u core t.num (some { t with word := x, bad := some c })) ∧
  (∀ s dt e rest, s.agenda = ⟨dt, .event e⟩ :: rest → encode e = none →
    (∀ x, e ≠ .decodeTrap x ∧ e ≠ .traversalWordNotInstruction x) → (∀ pc, e ≠ .instructionFetchFault pc) →
    (s.stopped = false → step s = exec e (afterTime s)) ∧
    (s.stopped = true → fromHost e = true → step s = exec e { s with agenda := rest }) ∧
    (s.stopped = true → fromHost e = false → step s = .next { s with agenda := rest })) ∧
  (∀ s, s.agenda = [] → s.stopped = false → step s = .next { s with
    clock := s.clock + 1, wall := s.wall + 254186856000 / s.mhz
    ctxs := s.ctxs.map fun c => if (s.groups.any fun g => g.asid == c.asid) then { c with wdog := c.wdog + 1 } else c }) ∧
  (∀ s dt act rest, s.agenda = ⟨dt, act⟩ :: rest → s.stopped = false → afterTime s = { s with
    agenda := rest, clock := s.clock + dt, wall := s.wall + dt * (254186856000 / s.mhz)
    ctxs := s.ctxs.map fun c => if (s.groups.any fun g => g.asid == c.asid) then { c with wdog := c.wdog + dt } else c })

/-- R440, R448, R452: the values that Tables 22-3, 22-6 and 22-7 give for reset, and the canonical form of the state, which
holds at reset. -/
def Obligations.ResetValues : Prop :=
  State.reset.wf = true ∧ State.reset.mhz = 1700 ∧ State.reset.board = 0 ∧ (∀ i, Tab.get 0 State.reset.temps i = 0) ∧
  (∀ c, (State.reset.cluster c).droop = 0 ∧ (State.reset.cluster c).ring = 0) ∧ (∀ q, Tab.get 0 State.reset.qbase q = 0) ∧
  State.reset.heads.length = 4 ∧
  ∀ h ∈ State.reset.heads, h.flippa = 0 ∧ h.stride = 0 ∧ h.width = 0 ∧ h.height = 0 ∧ h.fmt = 0 ∧ h.en = false ∧ h.vblanks = 0

/-- Every step keeps the canonical form of the state: memory and every table list each key once, rising, and no default
value; a wave binds a stream once (R186, R251; the form is the model's, log entry 3). -/
def Obligations.StepKeeps : Prop :=
  ∀ s t, s.wf = true → step s = .next t → t.wf = true

end

/-! ## Statements of several parts -/

section

open Sys2Proof.Claims

/-- R61 to R69, R73, R74, R22: the lane forms of Table 3-4, the immediate forms and the bit functions. -/
def Obligations.IntegerArithmetic : Prop := Sys2Proof.Claims.LaneArithmetic ∧ Sys2Proof.Claims.Immediates ∧ Sys2Proof.Claims.BitFields

/-- R78 to R80, R28: the w forms, and the exchange between g, w and predicate registers. -/
def Obligations.UniformOperations : Prop := Sys2Proof.Claims.UniformArithmetic ∧ Sys2Proof.Claims.UniformExchange

/-- R70 to R72: the functions of pairs, and the carry chains. -/
def Obligations.WideArithmetic : Prop := Sys2Proof.Claims.PairArithmetic ∧ Sys2Proof.Claims.CarryChains

/-- R75 to R77: integer compares, predicate logic and selection. -/
def Obligations.ComparesAndPredicates : Prop := Sys2Proof.Claims.IntegerCompares ∧ Sys2Proof.Claims.PredicatesAndSelect

/-- R88 to R90, R94, R102: exact values round to themselves, sums and products of finite values are rounded once with the flags of R94, and NaN operands give the canonical qNaN. -/
def Obligations.RoundingAndNaNs : Prop := Sys2Proof.Claims.RoundingExact ∧ Sys2Proof.Claims.NaNResults ∧ Sys2Proof.Claims.ExactThenRounded ∧ Sys2Proof.Claims.FlushToZero

/-- R101 to R104, R112: FP32 arithmetic, signs and compares, and DCMP. -/
def Obligations.SingleArithmetic : Prop := Sys2Proof.Claims.FloatArithmetic ∧ Sys2Proof.Claims.MinAndMax ∧ Sys2Proof.Claims.FloatSigns ∧ Sys2Proof.Claims.FloatCompares ∧ Sys2Proof.Claims.CompareRules

/-- R99, R106 to R109: conversions between formats, with integers, and of blocks. -/
def Obligations.Conversions : Prop := Sys2Proof.Claims.FormatConversions ∧ Sys2Proof.Claims.IntegerConversions ∧ Sys2Proof.Claims.BlockConversions ∧ Sys2Proof.Claims.ConversionRules ∧ Sys2Proof.Claims.BlockProcedure

/-- R111, R113 to R116: FP64 arithmetic, the special functions and the dot products. Readings of the model in it: log entry 10. -/
def Obligations.DoublesAndSpecials : Prop := Sys2Proof.Claims.DoubleArithmetic ∧ Sys2Proof.Claims.SpecialFunctionsAndDots ∧ Sys2Proof.Claims.SpecialValues ∧ Sys2Proof.Claims.Ex2Procedure ∧ Sys2Proof.Claims.HalfDots

/-- R120 to R124: exchanges between lanes, votes and reductions. Readings of the model in it: log entry 31. -/
def Obligations.Exchanges : Prop := Sys2Proof.Claims.LaneExchanges ∧ Sys2Proof.Claims.Votes ∧ Sys2Proof.Claims.Reductions

/-- R126, R129, R28: what an instruction reads and writes through streams, and their configuration. Readings of the model in it: log entry 89. -/
def Obligations.Streams : Prop := Sys2Proof.Claims.StreamFunctions ∧ Sys2Proof.Claims.StreamConfiguration

/-- R191, R193, R194, R220, R237, R240: loads per lane, per wave, and with acquire. Readings of the model in it: log entries 79 and 87. -/
def Obligations.Loads : Prop := Sys2Proof.Claims.LaneLoads ∧ Sys2Proof.Claims.WaveLoads ∧ Sys2Proof.Claims.AcquireLoads

/-- R191 to R195, R213, R217, R219, R220, R222, R238, R240: stores, atomics and ordered contributions enter the store queue. Readings of the model in it: log entry 15. -/
def Obligations.StoresAndAtomics : Prop := Sys2Proof.Claims.LaneStores ∧ Sys2Proof.Claims.Atomics ∧ Sys2Proof.Claims.OrderedContributions

/-- R309 to R311, R317, R318, R320, R323, R324, R349: MATRIX and DELTA commands, and the engine that takes them. Readings of the model in it: log entries 14 and 55. -/
def Obligations.MatrixSteps : Prop := Sys2Proof.Claims.MatrixCommands ∧ Sys2Proof.Claims.MatrixEngine

/-- R164, R170, R176, R210, R245, R382, R383: TRAV commands, LAUNCH, PRIO, ENGW and ENGR. Readings of the model in it: log entries 41, 52 and 54. -/
def Obligations.EngineCommandsAndRegisters : Prop := Sys2Proof.Claims.EngineCommands ∧ Sys2Proof.Claims.EngineRegisters

/-- R450, R451: a conventional reset verifies root, SVC and HSC in order (the numbering is the model's, log entry 60), and the SPDM requests and their answers (codes, order and bodies are the model's, log entry 61). -/
def Obligations.BootAndAttestation : Prop := Sys2Proof.Claims.BootChecks ∧ Sys2Proof.Claims.Attestation

/-- R43, R95, R136, R148, R193, R395 to R397: the traps that are taken at issue, and the floating-point exceptions that park a wave. -/
def Obligations.TrapsTaken : Prop := Sys2Proof.Claims.IssueTraps ∧ Sys2Proof.Claims.FloatingTraps

/-- R169, R275, R288, R295 to R298, R305, R432: what waits starts a handler wave, and a capsule that arrives takes a slot, is held, or goes to its overflow ring. -/
def Obligations.HandlerStarts : Prop := Sys2Proof.Claims.HandlerWaves ∧ Sys2Proof.Claims.CapsuleArrivals

/-- R146, R147, R149: barriers, joins and what releases a wave that waits at one. Readings of the model in it: log entries 26 and 34. -/
def Obligations.BarriersAndJoins : Prop := Sys2Proof.Claims.Barriers ∧ Sys2Proof.Claims.Joins

end
end

