-- ==== Sys2Proof/Laws/Tab.lean ====
section
/-! SUPPORT. What the sparse tables do: a read after a write, and the canonical form, which every write keeps. -/

namespace Sys2Proof.Machine

/-- The first key of a table lies above a bound. -/
def Tab.above {α : Type} (k : Nat) : Tab α → Prop
  | [] => True
  | (x, _) :: _ => k < x

theorem Tab.wf_cons {α : Type} [DecidableEq α] (d v : α) (k : Nat) (t : Tab α) :
    Tab.wf d ((k, v) :: t) = true ↔ v ≠ d ∧ Tab.above k t ∧ Tab.wf d t = true := by
  cases t with
  | nil => simp [Tab.wf, Tab.above]
  | cons e t =>
    obtain ⟨x, u⟩ := e
    simp only [Tab.wf, Tab.above, Nat.blt_eq, Bool.and_eq_true, bne_iff_ne, ne_eq]
    exact ⟨fun h => ⟨h.1.2, h.1.1, h.2⟩, fun h => ⟨⟨h.2.1, h.1⟩, h.2.2⟩⟩

theorem Tab.get_above {α : Type} [DecidableEq α] (d : α) {t : Tab α} (h : Tab.wf d t = true) {k x : Nat}
    (ha : Tab.above k t) (hx : x ≤ k) : Tab.get d t x = d := by
  induction t generalizing k with
  | nil => rfl
  | cons e t ih =>
    obtain ⟨y, v⟩ := e
    obtain ⟨-, h2, h3⟩ := (Tab.wf_cons d v y t).1 h
    simp only [Tab.above] at ha
    have hne : (y == x) = false := by simp; omega
    simpa only [Tab.get, hne, Bool.false_eq_true, if_false] using ih h3 h2 (by omega)

theorem Tab.above_put {α : Type} [DecidableEq α] (d v : α) {t : Tab α} (h : Tab.wf d t = true) {k x : Nat}
    (ha : Tab.above k t) (hx : k < x) : Tab.above k (Tab.put d t x v) := by
  cases t with
  | nil => unfold Tab.put; split <;> simp [Tab.above, hx]
  | cons e t =>
    obtain ⟨y, u⟩ := e
    obtain ⟨-, h2, -⟩ := (Tab.wf_cons d u y t).1 h
    simp only [Tab.above] at ha
    unfold Tab.put
    split
    · split
      · cases t with
        | nil => simp [Tab.above]
        | cons e t => simp only [Tab.above] at h2 ⊢; omega
      · simpa [Tab.above] using hx
    · split
      · split <;> simp [Tab.above, ha, hx]
      · simpa [Tab.above] using ha

/-- Every write keeps the canonical form. -/
theorem Tab.wf_put {α : Type} [DecidableEq α] (d v : α) {t : Tab α} (h : Tab.wf d t = true) (x : Nat) :
    Tab.wf d (Tab.put d t x v) = true := by
  induction t with
  | nil => unfold Tab.put; split <;> simp_all [Tab.wf]
  | cons e t ih =>
    obtain ⟨y, u⟩ := e
    obtain ⟨h1, h2, h3⟩ := (Tab.wf_cons d u y t).1 h
    unfold Tab.put
    split
    · rename_i hk
      simp only [beq_iff_eq] at hk
      subst hk
      split
      · exact h3
      · exact (Tab.wf_cons d v y t).2 ⟨by assumption, h2, h3⟩
    · rename_i hk
      simp only [beq_iff_eq] at hk
      split
      · rename_i hb
        rw [Nat.blt_eq] at hb
        split
        · exact h
        · exact (Tab.wf_cons d v x _).2 ⟨by assumption, hb, h⟩
      · rename_i hb
        rw [Nat.blt_eq] at hb
        exact (Tab.wf_cons d u y _).2 ⟨h1, Tab.above_put d v h3 h2 (by omega), ih h3⟩

/-- A read after a write. -/
theorem Tab.get_put {α : Type} [DecidableEq α] (d v : α) {t : Tab α} (h : Tab.wf d t = true) (x z : Nat) :
    Tab.get d (Tab.put d t x v) z = if z = x then v else Tab.get d t z := by
  induction t with
  | nil =>
    by_cases hv : v = d <;> by_cases hz : z = x <;> simp [Tab.put, Tab.get, hv, hz]
    exact fun h => absurd h.symm hz
  | cons e t ih =>
    obtain ⟨y, u⟩ := e
    obtain ⟨h1, h2, h3⟩ := (Tab.wf_cons d u y t).1 h
    unfold Tab.put
    split
    · rename_i hk
      simp only [beq_iff_eq] at hk
      subst hk
      split
      · rename_i hv
        subst hv
        by_cases hz : z = y
        · subst hz
          simp [Tab.get_above _ h3 h2 (Nat.le_refl _)]
        · simp [Tab.get, hz]
          exact fun h => absurd h.symm hz
      · by_cases hz : z = y
        · simp [Tab.get, hz]
        · have : (y == z) = false := by simp; exact fun h => hz h.symm
          simp [Tab.get, hz, this]
    · rename_i hk
      simp only [beq_iff_eq] at hk
      split
      · rename_i hb
        rw [Nat.blt_eq] at hb
        split
        · rename_i hv
          subst hv
          by_cases hz : z = x
          · subst hz
            simp [Tab.get_above _ h (show Tab.above z ((y, u) :: t) from hb) (Nat.le_refl _)]
          · simp [hz]
        · by_cases hz : z = x
          · simp [Tab.get, hz]
          · have : (x == z) = false := by simp; exact fun h => hz h.symm
            rw [Tab.get]; simp [hz, this]
      · rw [Tab.get, Tab.get, ih h3]
        by_cases hz : y = z
        · subst hz; simp [hk]
        · simp [hz]

theorem Tab.wf_putAll {α : Type} [DecidableEq α] (d : α) (kvs : List (Nat × α)) {t : Tab α}
    (h : Tab.wf d t = true) : Tab.wf d (Tab.putAll d t kvs) = true := by
  induction kvs generalizing t with
  | nil => exact h
  | cons e l ih => exact ih (Tab.wf_put d e.2 h e.1)

end Sys2Proof.Machine
end

