-- ==== Sys2Proof/Laws/State.lean ====
section
/-! SUPPORT. What each update of the state leaves in each field, so that no later proof unfolds a record update. -/

namespace Sys2Proof.Machine

/-! ## State.setWave -/

@[simp] theorem State.setWave_clock (s : State) (w : Wave) : (s.setWave w).clock = s.clock := rfl
@[simp] theorem State.setWave_mhz (s : State) (w : Wave) : (s.setWave w).mhz = s.mhz := rfl
@[simp] theorem State.setWave_mem (s : State) (w : Wave) : (s.setWave w).mem = s.mem := rfl
@[simp] theorem State.setWave_poison (s : State) (w : Wave) : (s.setWave w).poison = s.poison := rfl
@[simp] theorem State.setWave_groups (s : State) (w : Wave) : (s.setWave w).groups = s.groups := rfl
@[simp] theorem State.setWave_cores (s : State) (w : Wave) : (s.setWave w).cores = s.cores := rfl
@[simp] theorem State.setWave_clusters (s : State) (w : Wave) : (s.setWave w).clusters = s.clusters := rfl
@[simp] theorem State.setWave_ctxs (s : State) (w : Wave) : (s.setWave w).ctxs = s.ctxs := rfl
@[simp] theorem State.setWave_launches (s : State) (w : Wave) : (s.setWave w).launches = s.launches := rfl
@[simp] theorem State.setWave_saved (s : State) (w : Wave) : (s.setWave w).saved = s.saved := rfl
@[simp] theorem State.setWave_nextLaunch (s : State) (w : Wave) : (s.setWave w).nextLaunch = s.nextLaunch := rfl
@[simp] theorem State.setWave_lastOf (s : State) (w : Wave) : (s.setWave w).lastOf = s.lastOf := rfl
@[simp] theorem State.setWave_dleft (s : State) (w : Wave) : (s.setWave w).dleft = s.dleft := rfl
@[simp] theorem State.setWave_slots (s : State) (w : Wave) : (s.setWave w).slots = s.slots := rfl
@[simp] theorem State.setWave_seqs (s : State) (w : Wave) : (s.setWave w).seqs = s.seqs := rfl
@[simp] theorem State.setWave_net (s : State) (w : Wave) : (s.setWave w).net = s.net := rfl
@[simp] theorem State.setWave_sends (s : State) (w : Wave) : (s.setWave w).sends = s.sends := rfl
@[simp] theorem State.setWave_cmds (s : State) (w : Wave) : (s.setWave w).cmds = s.cmds := rfl
@[simp] theorem State.setWave_routes (s : State) (w : Wave) : (s.setWave w).routes = s.routes := rfl
@[simp] theorem State.setWave_parts (s : State) (w : Wave) : (s.setWave w).parts = s.parts := rfl
@[simp] theorem State.setWave_partAsids (s : State) (w : Wave) : (s.setWave w).partAsids = s.partAsids := rfl
@[simp] theorem State.setWave_ways (s : State) (w : Wave) : (s.setWave w).ways = s.ways := rfl
@[simp] theorem State.setWave_locks (s : State) (w : Wave) : (s.setWave w).locks = s.locks := rfl
@[simp] theorem State.setWave_windows (s : State) (w : Wave) : (s.setWave w).windows = s.windows := rfl
@[simp] theorem State.setWave_tlbis (s : State) (w : Wave) : (s.setWave w).tlbis = s.tlbis := rfl
@[simp] theorem State.setWave_hostQs (s : State) (w : Wave) : (s.setWave w).hostQs = s.hostQs := rfl
@[simp] theorem State.setWave_hsc (s : State) (w : Wave) : (s.setWave w).hsc = s.hsc := rfl
@[simp] theorem State.setWave_heads (s : State) (w : Wave) : (s.setWave w).heads = s.heads := rfl
@[simp] theorem State.setWave_qbase (s : State) (w : Wave) : (s.setWave w).qbase = s.qbase := rfl
@[simp] theorem State.setWave_versions (s : State) (w : Wave) : (s.setWave w).versions = s.versions := rfl
@[simp] theorem State.setWave_temps (s : State) (w : Wave) : (s.setWave w).temps = s.temps := rfl
@[simp] theorem State.setWave_board (s : State) (w : Wave) : (s.setWave w).board = s.board := rfl
@[simp] theorem State.setWave_pmTime (s : State) (w : Wave) : (s.setWave w).pmTime = s.pmTime := rfl
@[simp] theorem State.setWave_pmStep (s : State) (w : Wave) : (s.setWave w).pmStep = s.pmStep := rfl
@[simp] theorem State.setWave_pmHeld (s : State) (w : Wave) : (s.setWave w).pmHeld = s.pmHeld := rfl
@[simp] theorem State.setWave_pmDroop (s : State) (w : Wave) : (s.setWave w).pmDroop = s.pmDroop := rfl
@[simp] theorem State.setWave_wall (s : State) (w : Wave) : (s.setWave w).wall = s.wall := rfl
@[simp] theorem State.setWave_stopped (s : State) (w : Wave) : (s.setWave w).stopped = s.stopped := rfl
@[simp] theorem State.setWave_recovery (s : State) (w : Wave) : (s.setWave w).recovery = s.recovery := rfl
@[simp] theorem State.setWave_booted (s : State) (w : Wave) : (s.setWave w).booted = s.booted := rfl
@[simp] theorem State.setWave_recov (s : State) (w : Wave) : (s.setWave w).recov = s.recov := rfl
@[simp] theorem State.setWave_hostFrozen (s : State) (w : Wave) : (s.setWave w).hostFrozen = s.hostFrozen := rfl
@[simp] theorem State.setWave_linkUp (s : State) (w : Wave) : (s.setWave w).linkUp = s.linkUp := rfl
@[simp] theorem State.setWave_peerId (s : State) (w : Wave) : (s.setWave w).peerId = s.peerId := rfl
@[simp] theorem State.setWave_linkLo (s : State) (w : Wave) : (s.setWave w).linkLo = s.linkLo := rfl
@[simp] theorem State.setWave_linkHi (s : State) (w : Wave) : (s.setWave w).linkHi = s.linkHi := rfl
@[simp] theorem State.setWave_access (s : State) (w : Wave) : (s.setWave w).access = s.access := rfl
@[simp] theorem State.setWave_hand (s : State) (w : Wave) : (s.setWave w).hand = s.hand := rfl
@[simp] theorem State.setWave_handOut (s : State) (w : Wave) : (s.setWave w).handOut = s.handOut := rfl
@[simp] theorem State.setWave_handSeq (s : State) (w : Wave) : (s.setWave w).handSeq = s.handSeq := rfl
@[simp] theorem State.setWave_fuses (s : State) (w : Wave) : (s.setWave w).fuses = s.fuses := rfl
@[simp] theorem State.setWave_revoked (s : State) (w : Wave) : (s.setWave w).revoked = s.revoked := rfl
@[simp] theorem State.setWave_counters (s : State) (w : Wave) : (s.setWave w).counters = s.counters := rfl
@[simp] theorem State.setWave_measure (s : State) (w : Wave) : (s.setWave w).measure = s.measure := rfl
@[simp] theorem State.setWave_spdmReady (s : State) (w : Wave) : (s.setWave w).spdmReady = s.spdmReady := rfl
@[simp] theorem State.setWave_out (s : State) (w : Wave) : (s.setWave w).out = s.out := rfl
@[simp] theorem State.setWave_nextId (s : State) (w : Wave) : (s.setWave w).nextId = s.nextId := rfl
@[simp] theorem State.setWave_freeCtr (s : State) (w : Wave) : (s.setWave w).freeCtr = s.freeCtr := rfl
@[simp] theorem State.setWave_agenda (s : State) (w : Wave) : (s.setWave w).agenda = s.agenda := rfl
@[simp] theorem State.setWave_selCore (s : State) (w : Wave) : (s.setWave w).selCore = s.selCore := rfl
@[simp] theorem State.setWave_selSlot (s : State) (w : Wave) : (s.setWave w).selSlot = s.selSlot := rfl

/-! ## State.setCore -/

@[simp] theorem State.setCore_clock (s : State) (c : Nat) (v : Core) : (s.setCore c v).clock = s.clock := rfl
@[simp] theorem State.setCore_mhz (s : State) (c : Nat) (v : Core) : (s.setCore c v).mhz = s.mhz := rfl
@[simp] theorem State.setCore_mem (s : State) (c : Nat) (v : Core) : (s.setCore c v).mem = s.mem := rfl
@[simp] theorem State.setCore_poison (s : State) (c : Nat) (v : Core) : (s.setCore c v).poison = s.poison := rfl
@[simp] theorem State.setCore_waves (s : State) (c : Nat) (v : Core) : (s.setCore c v).waves = s.waves := rfl
@[simp] theorem State.setCore_groups (s : State) (c : Nat) (v : Core) : (s.setCore c v).groups = s.groups := rfl
@[simp] theorem State.setCore_clusters (s : State) (c : Nat) (v : Core) : (s.setCore c v).clusters = s.clusters := rfl
@[simp] theorem State.setCore_ctxs (s : State) (c : Nat) (v : Core) : (s.setCore c v).ctxs = s.ctxs := rfl
@[simp] theorem State.setCore_launches (s : State) (c : Nat) (v : Core) : (s.setCore c v).launches = s.launches := rfl
@[simp] theorem State.setCore_saved (s : State) (c : Nat) (v : Core) : (s.setCore c v).saved = s.saved := rfl
@[simp] theorem State.setCore_nextLaunch (s : State) (c : Nat) (v : Core) :
    (s.setCore c v).nextLaunch = s.nextLaunch := rfl
@[simp] theorem State.setCore_lastOf (s : State) (c : Nat) (v : Core) :
    (s.setCore c v).lastOf = s.lastOf := rfl
@[simp] theorem State.setCore_dleft (s : State) (c : Nat) (v : Core) : (s.setCore c v).dleft = s.dleft := rfl
@[simp] theorem State.setCore_slots (s : State) (c : Nat) (v : Core) : (s.setCore c v).slots = s.slots := rfl
@[simp] theorem State.setCore_seqs (s : State) (c : Nat) (v : Core) : (s.setCore c v).seqs = s.seqs := rfl
@[simp] theorem State.setCore_net (s : State) (c : Nat) (v : Core) : (s.setCore c v).net = s.net := rfl
@[simp] theorem State.setCore_sends (s : State) (c : Nat) (v : Core) : (s.setCore c v).sends = s.sends := rfl
@[simp] theorem State.setCore_cmds (s : State) (c : Nat) (v : Core) : (s.setCore c v).cmds = s.cmds := rfl
@[simp] theorem State.setCore_routes (s : State) (c : Nat) (v : Core) : (s.setCore c v).routes = s.routes := rfl
@[simp] theorem State.setCore_parts (s : State) (c : Nat) (v : Core) : (s.setCore c v).parts = s.parts := rfl
@[simp] theorem State.setCore_partAsids (s : State) (c : Nat) (v : Core) :
    (s.setCore c v).partAsids = s.partAsids := rfl
@[simp] theorem State.setCore_ways (s : State) (c : Nat) (v : Core) : (s.setCore c v).ways = s.ways := rfl
@[simp] theorem State.setCore_locks (s : State) (c : Nat) (v : Core) : (s.setCore c v).locks = s.locks := rfl
@[simp] theorem State.setCore_windows (s : State) (c : Nat) (v : Core) : (s.setCore c v).windows = s.windows := rfl
@[simp] theorem State.setCore_tlbis (s : State) (c : Nat) (v : Core) : (s.setCore c v).tlbis = s.tlbis := rfl
@[simp] theorem State.setCore_hostQs (s : State) (c : Nat) (v : Core) : (s.setCore c v).hostQs = s.hostQs := rfl
@[simp] theorem State.setCore_hsc (s : State) (c : Nat) (v : Core) : (s.setCore c v).hsc = s.hsc := rfl
@[simp] theorem State.setCore_heads (s : State) (c : Nat) (v : Core) : (s.setCore c v).heads = s.heads := rfl
@[simp] theorem State.setCore_qbase (s : State) (c : Nat) (v : Core) : (s.setCore c v).qbase = s.qbase := rfl
@[simp] theorem State.setCore_versions (s : State) (c : Nat) (v : Core) : (s.setCore c v).versions = s.versions := rfl
@[simp] theorem State.setCore_temps (s : State) (c : Nat) (v : Core) : (s.setCore c v).temps = s.temps := rfl
@[simp] theorem State.setCore_board (s : State) (c : Nat) (v : Core) : (s.setCore c v).board = s.board := rfl
@[simp] theorem State.setCore_pmTime (s : State) (c : Nat) (v : Core) : (s.setCore c v).pmTime = s.pmTime := rfl
@[simp] theorem State.setCore_pmStep (s : State) (c : Nat) (v : Core) : (s.setCore c v).pmStep = s.pmStep := rfl
@[simp] theorem State.setCore_pmHeld (s : State) (c : Nat) (v : Core) : (s.setCore c v).pmHeld = s.pmHeld := rfl
@[simp] theorem State.setCore_pmDroop (s : State) (c : Nat) (v : Core) : (s.setCore c v).pmDroop = s.pmDroop := rfl
@[simp] theorem State.setCore_wall (s : State) (c : Nat) (v : Core) : (s.setCore c v).wall = s.wall := rfl
@[simp] theorem State.setCore_stopped (s : State) (c : Nat) (v : Core) : (s.setCore c v).stopped = s.stopped := rfl
@[simp] theorem State.setCore_recovery (s : State) (c : Nat) (v : Core) : (s.setCore c v).recovery = s.recovery := rfl
@[simp] theorem State.setCore_booted (s : State) (c : Nat) (v : Core) : (s.setCore c v).booted = s.booted := rfl
@[simp] theorem State.setCore_recov (s : State) (c : Nat) (v : Core) : (s.setCore c v).recov = s.recov := rfl
@[simp] theorem State.setCore_hostFrozen (s : State) (c : Nat) (v : Core) :
    (s.setCore c v).hostFrozen = s.hostFrozen := rfl
@[simp] theorem State.setCore_linkUp (s : State) (c : Nat) (v : Core) : (s.setCore c v).linkUp = s.linkUp := rfl
@[simp] theorem State.setCore_peerId (s : State) (c : Nat) (v : Core) : (s.setCore c v).peerId = s.peerId := rfl
@[simp] theorem State.setCore_linkLo (s : State) (c : Nat) (v : Core) : (s.setCore c v).linkLo = s.linkLo := rfl
@[simp] theorem State.setCore_linkHi (s : State) (c : Nat) (v : Core) : (s.setCore c v).linkHi = s.linkHi := rfl
@[simp] theorem State.setCore_access (s : State) (c : Nat) (v : Core) : (s.setCore c v).access = s.access := rfl
@[simp] theorem State.setCore_hand (s : State) (c : Nat) (v : Core) : (s.setCore c v).hand = s.hand := rfl
@[simp] theorem State.setCore_handOut (s : State) (c : Nat) (v : Core) : (s.setCore c v).handOut = s.handOut := rfl
@[simp] theorem State.setCore_handSeq (s : State) (c : Nat) (v : Core) : (s.setCore c v).handSeq = s.handSeq := rfl
@[simp] theorem State.setCore_fuses (s : State) (c : Nat) (v : Core) : (s.setCore c v).fuses = s.fuses := rfl
@[simp] theorem State.setCore_revoked (s : State) (c : Nat) (v : Core) : (s.setCore c v).revoked = s.revoked := rfl
@[simp] theorem State.setCore_counters (s : State) (c : Nat) (v : Core) : (s.setCore c v).counters = s.counters := rfl
@[simp] theorem State.setCore_measure (s : State) (c : Nat) (v : Core) : (s.setCore c v).measure = s.measure := rfl
@[simp] theorem State.setCore_spdmReady (s : State) (c : Nat) (v : Core) :
    (s.setCore c v).spdmReady = s.spdmReady := rfl
@[simp] theorem State.setCore_out (s : State) (c : Nat) (v : Core) : (s.setCore c v).out = s.out := rfl
@[simp] theorem State.setCore_nextId (s : State) (c : Nat) (v : Core) : (s.setCore c v).nextId = s.nextId := rfl
@[simp] theorem State.setCore_freeCtr (s : State) (c : Nat) (v : Core) : (s.setCore c v).freeCtr = s.freeCtr := rfl
@[simp] theorem State.setCore_agenda (s : State) (c : Nat) (v : Core) : (s.setCore c v).agenda = s.agenda := rfl
@[simp] theorem State.setCore_selCore (s : State) (c : Nat) (v : Core) : (s.setCore c v).selCore = s.selCore := rfl
@[simp] theorem State.setCore_selSlot (s : State) (c : Nat) (v : Core) : (s.setCore c v).selSlot = s.selSlot := rfl

/-! ## State.setCluster -/

@[simp] theorem State.setCluster_clock (s : State) (c : Nat) (v : Cluster) : (s.setCluster c v).clock = s.clock := rfl
@[simp] theorem State.setCluster_mhz (s : State) (c : Nat) (v : Cluster) : (s.setCluster c v).mhz = s.mhz := rfl
@[simp] theorem State.setCluster_mem (s : State) (c : Nat) (v : Cluster) : (s.setCluster c v).mem = s.mem := rfl
@[simp] theorem State.setCluster_poison (s : State) (c : Nat) (v : Cluster) :
    (s.setCluster c v).poison = s.poison := rfl
@[simp] theorem State.setCluster_waves (s : State) (c : Nat) (v : Cluster) : (s.setCluster c v).waves = s.waves := rfl
@[simp] theorem State.setCluster_groups (s : State) (c : Nat) (v : Cluster) :
    (s.setCluster c v).groups = s.groups := rfl
@[simp] theorem State.setCluster_cores (s : State) (c : Nat) (v : Cluster) : (s.setCluster c v).cores = s.cores := rfl
@[simp] theorem State.setCluster_ctxs (s : State) (c : Nat) (v : Cluster) : (s.setCluster c v).ctxs = s.ctxs := rfl
@[simp] theorem State.setCluster_launches (s : State) (c : Nat) (v : Cluster) :
    (s.setCluster c v).launches = s.launches := rfl
@[simp] theorem State.setCluster_saved (s : State) (c : Nat) (v : Cluster) : (s.setCluster c v).saved = s.saved := rfl
@[simp] theorem State.setCluster_nextLaunch (s : State) (c : Nat) (v : Cluster) :
    (s.setCluster c v).nextLaunch = s.nextLaunch := rfl
@[simp] theorem State.setCluster_lastOf (s : State) (c : Nat) (v : Cluster) :
    (s.setCluster c v).lastOf = s.lastOf := rfl
@[simp] theorem State.setCluster_dleft (s : State) (c : Nat) (v : Cluster) : (s.setCluster c v).dleft = s.dleft := rfl
@[simp] theorem State.setCluster_slots (s : State) (c : Nat) (v : Cluster) : (s.setCluster c v).slots = s.slots := rfl
@[simp] theorem State.setCluster_seqs (s : State) (c : Nat) (v : Cluster) : (s.setCluster c v).seqs = s.seqs := rfl
@[simp] theorem State.setCluster_net (s : State) (c : Nat) (v : Cluster) : (s.setCluster c v).net = s.net := rfl
@[simp] theorem State.setCluster_sends (s : State) (c : Nat) (v : Cluster) : (s.setCluster c v).sends = s.sends := rfl
@[simp] theorem State.setCluster_cmds (s : State) (c : Nat) (v : Cluster) : (s.setCluster c v).cmds = s.cmds := rfl
@[simp] theorem State.setCluster_routes (s : State) (c : Nat) (v : Cluster) :
    (s.setCluster c v).routes = s.routes := rfl
@[simp] theorem State.setCluster_parts (s : State) (c : Nat) (v : Cluster) : (s.setCluster c v).parts = s.parts := rfl
@[simp] theorem State.setCluster_partAsids (s : State) (c : Nat) (v : Cluster) :
    (s.setCluster c v).partAsids = s.partAsids := rfl
@[simp] theorem State.setCluster_ways (s : State) (c : Nat) (v : Cluster) : (s.setCluster c v).ways = s.ways := rfl
@[simp] theorem State.setCluster_locks (s : State) (c : Nat) (v : Cluster) : (s.setCluster c v).locks = s.locks := rfl
@[simp] theorem State.setCluster_windows (s : State) (c : Nat) (v : Cluster) :
    (s.setCluster c v).windows = s.windows := rfl
@[simp] theorem State.setCluster_tlbis (s : State) (c : Nat) (v : Cluster) : (s.setCluster c v).tlbis = s.tlbis := rfl
@[simp] theorem State.setCluster_hostQs (s : State) (c : Nat) (v : Cluster) :
    (s.setCluster c v).hostQs = s.hostQs := rfl
@[simp] theorem State.setCluster_hsc (s : State) (c : Nat) (v : Cluster) :
    (s.setCluster c v).hsc = s.hsc := rfl
@[simp] theorem State.setCluster_heads (s : State) (c : Nat) (v : Cluster) : (s.setCluster c v).heads = s.heads := rfl
@[simp] theorem State.setCluster_qbase (s : State) (c : Nat) (v : Cluster) : (s.setCluster c v).qbase = s.qbase := rfl
@[simp] theorem State.setCluster_versions (s : State) (c : Nat) (v : Cluster) :
    (s.setCluster c v).versions = s.versions := rfl
@[simp] theorem State.setCluster_temps (s : State) (c : Nat) (v : Cluster) : (s.setCluster c v).temps = s.temps := rfl
@[simp] theorem State.setCluster_board (s : State) (c : Nat) (v : Cluster) : (s.setCluster c v).board = s.board := rfl
@[simp] theorem State.setCluster_pmTime (s : State) (c : Nat) (v : Cluster) :
    (s.setCluster c v).pmTime = s.pmTime := rfl
@[simp] theorem State.setCluster_pmStep (s : State) (c : Nat) (v : Cluster) :
    (s.setCluster c v).pmStep = s.pmStep := rfl
@[simp] theorem State.setCluster_pmHeld (s : State) (c : Nat) (v : Cluster) :
    (s.setCluster c v).pmHeld = s.pmHeld := rfl
@[simp] theorem State.setCluster_pmDroop (s : State) (c : Nat) (v : Cluster) :
    (s.setCluster c v).pmDroop = s.pmDroop := rfl
@[simp] theorem State.setCluster_wall (s : State) (c : Nat) (v : Cluster) : (s.setCluster c v).wall = s.wall := rfl
@[simp] theorem State.setCluster_stopped (s : State) (c : Nat) (v : Cluster) :
    (s.setCluster c v).stopped = s.stopped := rfl
@[simp] theorem State.setCluster_recovery (s : State) (c : Nat) (v : Cluster) :
    (s.setCluster c v).recovery = s.recovery := rfl
@[simp] theorem State.setCluster_booted (s : State) (c : Nat) (v : Cluster) :
    (s.setCluster c v).booted = s.booted := rfl
@[simp] theorem State.setCluster_recov (s : State) (c : Nat) (v : Cluster) :
    (s.setCluster c v).recov = s.recov := rfl
@[simp] theorem State.setCluster_hostFrozen (s : State) (c : Nat) (v : Cluster) :
    (s.setCluster c v).hostFrozen = s.hostFrozen := rfl
@[simp] theorem State.setCluster_linkUp (s : State) (c : Nat) (v : Cluster) :
    (s.setCluster c v).linkUp = s.linkUp := rfl
@[simp] theorem State.setCluster_peerId (s : State) (c : Nat) (v : Cluster) :
    (s.setCluster c v).peerId = s.peerId := rfl
@[simp] theorem State.setCluster_linkLo (s : State) (c : Nat) (v : Cluster) :
    (s.setCluster c v).linkLo = s.linkLo := rfl
@[simp] theorem State.setCluster_linkHi (s : State) (c : Nat) (v : Cluster) :
    (s.setCluster c v).linkHi = s.linkHi := rfl
@[simp] theorem State.setCluster_access (s : State) (c : Nat) (v : Cluster) :
    (s.setCluster c v).access = s.access := rfl
@[simp] theorem State.setCluster_hand (s : State) (c : Nat) (v : Cluster) : (s.setCluster c v).hand = s.hand := rfl
@[simp] theorem State.setCluster_handOut (s : State) (c : Nat) (v : Cluster) :
    (s.setCluster c v).handOut = s.handOut := rfl
@[simp] theorem State.setCluster_handSeq (s : State) (c : Nat) (v : Cluster) :
    (s.setCluster c v).handSeq = s.handSeq := rfl
@[simp] theorem State.setCluster_fuses (s : State) (c : Nat) (v : Cluster) : (s.setCluster c v).fuses = s.fuses := rfl
@[simp] theorem State.setCluster_revoked (s : State) (c : Nat) (v : Cluster) :
    (s.setCluster c v).revoked = s.revoked := rfl
@[simp] theorem State.setCluster_counters (s : State) (c : Nat) (v : Cluster) :
    (s.setCluster c v).counters = s.counters := rfl
@[simp] theorem State.setCluster_measure (s : State) (c : Nat) (v : Cluster) :
    (s.setCluster c v).measure = s.measure := rfl
@[simp] theorem State.setCluster_spdmReady (s : State) (c : Nat) (v : Cluster) :
    (s.setCluster c v).spdmReady = s.spdmReady := rfl
@[simp] theorem State.setCluster_out (s : State) (c : Nat) (v : Cluster) : (s.setCluster c v).out = s.out := rfl
@[simp] theorem State.setCluster_nextId (s : State) (c : Nat) (v : Cluster) :
    (s.setCluster c v).nextId = s.nextId := rfl
@[simp] theorem State.setCluster_freeCtr (s : State) (c : Nat) (v : Cluster) :
    (s.setCluster c v).freeCtr = s.freeCtr := rfl
@[simp] theorem State.setCluster_agenda (s : State) (c : Nat) (v : Cluster) :
    (s.setCluster c v).agenda = s.agenda := rfl
@[simp] theorem State.setCluster_selCore (s : State) (c : Nat) (v : Cluster) :
    (s.setCluster c v).selCore = s.selCore := rfl
@[simp] theorem State.setCluster_selSlot (s : State) (c : Nat) (v : Cluster) :
    (s.setCluster c v).selSlot = s.selSlot := rfl

/-! ## State.setGroup -/

@[simp] theorem State.setGroup_clock (s : State) (g : Group) : (s.setGroup g).clock = s.clock := rfl
@[simp] theorem State.setGroup_mhz (s : State) (g : Group) : (s.setGroup g).mhz = s.mhz := rfl
@[simp] theorem State.setGroup_mem (s : State) (g : Group) : (s.setGroup g).mem = s.mem := rfl
@[simp] theorem State.setGroup_poison (s : State) (g : Group) : (s.setGroup g).poison = s.poison := rfl
@[simp] theorem State.setGroup_waves (s : State) (g : Group) : (s.setGroup g).waves = s.waves := rfl
@[simp] theorem State.setGroup_cores (s : State) (g : Group) : (s.setGroup g).cores = s.cores := rfl
@[simp] theorem State.setGroup_clusters (s : State) (g : Group) : (s.setGroup g).clusters = s.clusters := rfl
@[simp] theorem State.setGroup_ctxs (s : State) (g : Group) : (s.setGroup g).ctxs = s.ctxs := rfl
@[simp] theorem State.setGroup_launches (s : State) (g : Group) : (s.setGroup g).launches = s.launches := rfl
@[simp] theorem State.setGroup_saved (s : State) (g : Group) : (s.setGroup g).saved = s.saved := rfl
@[simp] theorem State.setGroup_nextLaunch (s : State) (g : Group) : (s.setGroup g).nextLaunch = s.nextLaunch := rfl
@[simp] theorem State.setGroup_lastOf (s : State) (g : Group) : (s.setGroup g).lastOf = s.lastOf := rfl
@[simp] theorem State.setGroup_dleft (s : State) (g : Group) : (s.setGroup g).dleft = s.dleft := rfl
@[simp] theorem State.setGroup_slots (s : State) (g : Group) : (s.setGroup g).slots = s.slots := rfl
@[simp] theorem State.setGroup_seqs (s : State) (g : Group) : (s.setGroup g).seqs = s.seqs := rfl
@[simp] theorem State.setGroup_net (s : State) (g : Group) : (s.setGroup g).net = s.net := rfl
@[simp] theorem State.setGroup_sends (s : State) (g : Group) : (s.setGroup g).sends = s.sends := rfl
@[simp] theorem State.setGroup_cmds (s : State) (g : Group) : (s.setGroup g).cmds = s.cmds := rfl
@[simp] theorem State.setGroup_routes (s : State) (g : Group) : (s.setGroup g).routes = s.routes := rfl
@[simp] theorem State.setGroup_parts (s : State) (g : Group) : (s.setGroup g).parts = s.parts := rfl
@[simp] theorem State.setGroup_partAsids (s : State) (g : Group) : (s.setGroup g).partAsids = s.partAsids := rfl
@[simp] theorem State.setGroup_ways (s : State) (g : Group) : (s.setGroup g).ways = s.ways := rfl
@[simp] theorem State.setGroup_locks (s : State) (g : Group) : (s.setGroup g).locks = s.locks := rfl
@[simp] theorem State.setGroup_windows (s : State) (g : Group) : (s.setGroup g).windows = s.windows := rfl
@[simp] theorem State.setGroup_tlbis (s : State) (g : Group) : (s.setGroup g).tlbis = s.tlbis := rfl
@[simp] theorem State.setGroup_hostQs (s : State) (g : Group) : (s.setGroup g).hostQs = s.hostQs := rfl
@[simp] theorem State.setGroup_hsc (s : State) (g : Group) : (s.setGroup g).hsc = s.hsc := rfl
@[simp] theorem State.setGroup_heads (s : State) (g : Group) : (s.setGroup g).heads = s.heads := rfl
@[simp] theorem State.setGroup_qbase (s : State) (g : Group) : (s.setGroup g).qbase = s.qbase := rfl
@[simp] theorem State.setGroup_versions (s : State) (g : Group) : (s.setGroup g).versions = s.versions := rfl
@[simp] theorem State.setGroup_temps (s : State) (g : Group) : (s.setGroup g).temps = s.temps := rfl
@[simp] theorem State.setGroup_board (s : State) (g : Group) : (s.setGroup g).board = s.board := rfl
@[simp] theorem State.setGroup_pmTime (s : State) (g : Group) : (s.setGroup g).pmTime = s.pmTime := rfl
@[simp] theorem State.setGroup_pmStep (s : State) (g : Group) : (s.setGroup g).pmStep = s.pmStep := rfl
@[simp] theorem State.setGroup_pmHeld (s : State) (g : Group) : (s.setGroup g).pmHeld = s.pmHeld := rfl
@[simp] theorem State.setGroup_pmDroop (s : State) (g : Group) : (s.setGroup g).pmDroop = s.pmDroop := rfl
@[simp] theorem State.setGroup_wall (s : State) (g : Group) : (s.setGroup g).wall = s.wall := rfl
@[simp] theorem State.setGroup_stopped (s : State) (g : Group) : (s.setGroup g).stopped = s.stopped := rfl
@[simp] theorem State.setGroup_recovery (s : State) (g : Group) : (s.setGroup g).recovery = s.recovery := rfl
@[simp] theorem State.setGroup_booted (s : State) (g : Group) : (s.setGroup g).booted = s.booted := rfl
@[simp] theorem State.setGroup_recov (s : State) (g : Group) : (s.setGroup g).recov = s.recov := rfl
@[simp] theorem State.setGroup_hostFrozen (s : State) (g : Group) : (s.setGroup g).hostFrozen = s.hostFrozen := rfl
@[simp] theorem State.setGroup_linkUp (s : State) (g : Group) : (s.setGroup g).linkUp = s.linkUp := rfl
@[simp] theorem State.setGroup_peerId (s : State) (g : Group) : (s.setGroup g).peerId = s.peerId := rfl
@[simp] theorem State.setGroup_linkLo (s : State) (g : Group) : (s.setGroup g).linkLo = s.linkLo := rfl
@[simp] theorem State.setGroup_linkHi (s : State) (g : Group) : (s.setGroup g).linkHi = s.linkHi := rfl
@[simp] theorem State.setGroup_access (s : State) (g : Group) : (s.setGroup g).access = s.access := rfl
@[simp] theorem State.setGroup_hand (s : State) (g : Group) : (s.setGroup g).hand = s.hand := rfl
@[simp] theorem State.setGroup_handOut (s : State) (g : Group) : (s.setGroup g).handOut = s.handOut := rfl
@[simp] theorem State.setGroup_handSeq (s : State) (g : Group) : (s.setGroup g).handSeq = s.handSeq := rfl
@[simp] theorem State.setGroup_fuses (s : State) (g : Group) : (s.setGroup g).fuses = s.fuses := rfl
@[simp] theorem State.setGroup_revoked (s : State) (g : Group) : (s.setGroup g).revoked = s.revoked := rfl
@[simp] theorem State.setGroup_counters (s : State) (g : Group) : (s.setGroup g).counters = s.counters := rfl
@[simp] theorem State.setGroup_measure (s : State) (g : Group) : (s.setGroup g).measure = s.measure := rfl
@[simp] theorem State.setGroup_spdmReady (s : State) (g : Group) : (s.setGroup g).spdmReady = s.spdmReady := rfl
@[simp] theorem State.setGroup_out (s : State) (g : Group) : (s.setGroup g).out = s.out := rfl
@[simp] theorem State.setGroup_nextId (s : State) (g : Group) : (s.setGroup g).nextId = s.nextId := rfl
@[simp] theorem State.setGroup_freeCtr (s : State) (g : Group) : (s.setGroup g).freeCtr = s.freeCtr := rfl
@[simp] theorem State.setGroup_agenda (s : State) (g : Group) : (s.setGroup g).agenda = s.agenda := rfl
@[simp] theorem State.setGroup_selCore (s : State) (g : Group) : (s.setGroup g).selCore = s.selCore := rfl
@[simp] theorem State.setGroup_selSlot (s : State) (g : Group) : (s.setGroup g).selSlot = s.selSlot := rfl

/-! ## State.setCtx -/

@[simp] theorem State.setCtx_clock (s : State) (x : Ctx) : (s.setCtx x).clock = s.clock := rfl
@[simp] theorem State.setCtx_mhz (s : State) (x : Ctx) : (s.setCtx x).mhz = s.mhz := rfl
@[simp] theorem State.setCtx_mem (s : State) (x : Ctx) : (s.setCtx x).mem = s.mem := rfl
@[simp] theorem State.setCtx_poison (s : State) (x : Ctx) : (s.setCtx x).poison = s.poison := rfl
@[simp] theorem State.setCtx_waves (s : State) (x : Ctx) : (s.setCtx x).waves = s.waves := rfl
@[simp] theorem State.setCtx_groups (s : State) (x : Ctx) : (s.setCtx x).groups = s.groups := rfl
@[simp] theorem State.setCtx_cores (s : State) (x : Ctx) : (s.setCtx x).cores = s.cores := rfl
@[simp] theorem State.setCtx_clusters (s : State) (x : Ctx) : (s.setCtx x).clusters = s.clusters := rfl
@[simp] theorem State.setCtx_launches (s : State) (x : Ctx) : (s.setCtx x).launches = s.launches := rfl
@[simp] theorem State.setCtx_saved (s : State) (x : Ctx) : (s.setCtx x).saved = s.saved := rfl
@[simp] theorem State.setCtx_nextLaunch (s : State) (x : Ctx) : (s.setCtx x).nextLaunch = s.nextLaunch := rfl
@[simp] theorem State.setCtx_lastOf (s : State) (x : Ctx) : (s.setCtx x).lastOf = s.lastOf := rfl
@[simp] theorem State.setCtx_dleft (s : State) (x : Ctx) : (s.setCtx x).dleft = s.dleft := rfl
@[simp] theorem State.setCtx_slots (s : State) (x : Ctx) : (s.setCtx x).slots = s.slots := rfl
@[simp] theorem State.setCtx_seqs (s : State) (x : Ctx) : (s.setCtx x).seqs = s.seqs := rfl
@[simp] theorem State.setCtx_net (s : State) (x : Ctx) : (s.setCtx x).net = s.net := rfl
@[simp] theorem State.setCtx_sends (s : State) (x : Ctx) : (s.setCtx x).sends = s.sends := rfl
@[simp] theorem State.setCtx_cmds (s : State) (x : Ctx) : (s.setCtx x).cmds = s.cmds := rfl
@[simp] theorem State.setCtx_routes (s : State) (x : Ctx) : (s.setCtx x).routes = s.routes := rfl
@[simp] theorem State.setCtx_parts (s : State) (x : Ctx) : (s.setCtx x).parts = s.parts := rfl
@[simp] theorem State.setCtx_partAsids (s : State) (x : Ctx) : (s.setCtx x).partAsids = s.partAsids := rfl
@[simp] theorem State.setCtx_ways (s : State) (x : Ctx) : (s.setCtx x).ways = s.ways := rfl
@[simp] theorem State.setCtx_locks (s : State) (x : Ctx) : (s.setCtx x).locks = s.locks := rfl
@[simp] theorem State.setCtx_windows (s : State) (x : Ctx) : (s.setCtx x).windows = s.windows := rfl
@[simp] theorem State.setCtx_tlbis (s : State) (x : Ctx) : (s.setCtx x).tlbis = s.tlbis := rfl
@[simp] theorem State.setCtx_hostQs (s : State) (x : Ctx) : (s.setCtx x).hostQs = s.hostQs := rfl
@[simp] theorem State.setCtx_hsc (s : State) (x : Ctx) : (s.setCtx x).hsc = s.hsc := rfl
@[simp] theorem State.setCtx_heads (s : State) (x : Ctx) : (s.setCtx x).heads = s.heads := rfl
@[simp] theorem State.setCtx_qbase (s : State) (x : Ctx) : (s.setCtx x).qbase = s.qbase := rfl
@[simp] theorem State.setCtx_versions (s : State) (x : Ctx) : (s.setCtx x).versions = s.versions := rfl
@[simp] theorem State.setCtx_temps (s : State) (x : Ctx) : (s.setCtx x).temps = s.temps := rfl
@[simp] theorem State.setCtx_board (s : State) (x : Ctx) : (s.setCtx x).board = s.board := rfl
@[simp] theorem State.setCtx_pmTime (s : State) (x : Ctx) : (s.setCtx x).pmTime = s.pmTime := rfl
@[simp] theorem State.setCtx_pmStep (s : State) (x : Ctx) : (s.setCtx x).pmStep = s.pmStep := rfl
@[simp] theorem State.setCtx_pmHeld (s : State) (x : Ctx) : (s.setCtx x).pmHeld = s.pmHeld := rfl
@[simp] theorem State.setCtx_pmDroop (s : State) (x : Ctx) : (s.setCtx x).pmDroop = s.pmDroop := rfl
@[simp] theorem State.setCtx_wall (s : State) (x : Ctx) : (s.setCtx x).wall = s.wall := rfl
@[simp] theorem State.setCtx_stopped (s : State) (x : Ctx) : (s.setCtx x).stopped = s.stopped := rfl
@[simp] theorem State.setCtx_recovery (s : State) (x : Ctx) : (s.setCtx x).recovery = s.recovery := rfl
@[simp] theorem State.setCtx_booted (s : State) (x : Ctx) : (s.setCtx x).booted = s.booted := rfl
@[simp] theorem State.setCtx_recov (s : State) (x : Ctx) : (s.setCtx x).recov = s.recov := rfl
@[simp] theorem State.setCtx_hostFrozen (s : State) (x : Ctx) : (s.setCtx x).hostFrozen = s.hostFrozen := rfl
@[simp] theorem State.setCtx_linkUp (s : State) (x : Ctx) : (s.setCtx x).linkUp = s.linkUp := rfl
@[simp] theorem State.setCtx_peerId (s : State) (x : Ctx) : (s.setCtx x).peerId = s.peerId := rfl
@[simp] theorem State.setCtx_linkLo (s : State) (x : Ctx) : (s.setCtx x).linkLo = s.linkLo := rfl
@[simp] theorem State.setCtx_linkHi (s : State) (x : Ctx) : (s.setCtx x).linkHi = s.linkHi := rfl
@[simp] theorem State.setCtx_access (s : State) (x : Ctx) : (s.setCtx x).access = s.access := rfl
@[simp] theorem State.setCtx_hand (s : State) (x : Ctx) : (s.setCtx x).hand = s.hand := rfl
@[simp] theorem State.setCtx_handOut (s : State) (x : Ctx) : (s.setCtx x).handOut = s.handOut := rfl
@[simp] theorem State.setCtx_handSeq (s : State) (x : Ctx) : (s.setCtx x).handSeq = s.handSeq := rfl
@[simp] theorem State.setCtx_fuses (s : State) (x : Ctx) : (s.setCtx x).fuses = s.fuses := rfl
@[simp] theorem State.setCtx_revoked (s : State) (x : Ctx) : (s.setCtx x).revoked = s.revoked := rfl
@[simp] theorem State.setCtx_counters (s : State) (x : Ctx) : (s.setCtx x).counters = s.counters := rfl
@[simp] theorem State.setCtx_measure (s : State) (x : Ctx) : (s.setCtx x).measure = s.measure := rfl
@[simp] theorem State.setCtx_spdmReady (s : State) (x : Ctx) : (s.setCtx x).spdmReady = s.spdmReady := rfl
@[simp] theorem State.setCtx_out (s : State) (x : Ctx) : (s.setCtx x).out = s.out := rfl
@[simp] theorem State.setCtx_nextId (s : State) (x : Ctx) : (s.setCtx x).nextId = s.nextId := rfl
@[simp] theorem State.setCtx_freeCtr (s : State) (x : Ctx) : (s.setCtx x).freeCtr = s.freeCtr := rfl
@[simp] theorem State.setCtx_agenda (s : State) (x : Ctx) : (s.setCtx x).agenda = s.agenda := rfl
@[simp] theorem State.setCtx_selCore (s : State) (x : Ctx) : (s.setCtx x).selCore = s.selCore := rfl
@[simp] theorem State.setCtx_selSlot (s : State) (x : Ctx) : (s.setCtx x).selSlot = s.selSlot := rfl

/-! ## State.modLaunch -/

@[simp] theorem State.modLaunch_clock (s : State) (lid : Nat) (f : Launch → Launch) :
    (s.modLaunch lid f).clock = s.clock := rfl
@[simp] theorem State.modLaunch_mhz (s : State) (lid : Nat) (f : Launch → Launch) :
    (s.modLaunch lid f).mhz = s.mhz := rfl
@[simp] theorem State.modLaunch_mem (s : State) (lid : Nat) (f : Launch → Launch) :
    (s.modLaunch lid f).mem = s.mem := rfl
@[simp] theorem State.modLaunch_poison (s : State) (lid : Nat) (f : Launch → Launch) :
    (s.modLaunch lid f).poison = s.poison := rfl
@[simp] theorem State.modLaunch_waves (s : State) (lid : Nat) (f : Launch → Launch) :
    (s.modLaunch lid f).waves = s.waves := rfl
@[simp] theorem State.modLaunch_groups (s : State) (lid : Nat) (f : Launch → Launch) :
    (s.modLaunch lid f).groups = s.groups := rfl
@[simp] theorem State.modLaunch_cores (s : State) (lid : Nat) (f : Launch → Launch) :
    (s.modLaunch lid f).cores = s.cores := rfl
@[simp] theorem State.modLaunch_clusters (s : State) (lid : Nat) (f : Launch → Launch) :
    (s.modLaunch lid f).clusters = s.clusters := rfl
@[simp] theorem State.modLaunch_ctxs (s : State) (lid : Nat) (f : Launch → Launch) :
    (s.modLaunch lid f).ctxs = s.ctxs := rfl
@[simp] theorem State.modLaunch_saved (s : State) (lid : Nat) (f : Launch → Launch) :
    (s.modLaunch lid f).saved = s.saved := rfl
@[simp] theorem State.modLaunch_nextLaunch (s : State) (lid : Nat) (f : Launch → Launch) :
    (s.modLaunch lid f).nextLaunch = s.nextLaunch := rfl
@[simp] theorem State.modLaunch_lastOf (s : State) (lid : Nat) (f : Launch → Launch) :
    (s.modLaunch lid f).lastOf = s.lastOf := rfl
@[simp] theorem State.modLaunch_dleft (s : State) (lid : Nat) (f : Launch → Launch) :
    (s.modLaunch lid f).dleft = s.dleft := rfl
@[simp] theorem State.modLaunch_slots (s : State) (lid : Nat) (f : Launch → Launch) :
    (s.modLaunch lid f).slots = s.slots := rfl
@[simp] theorem State.modLaunch_seqs (s : State) (lid : Nat) (f : Launch → Launch) :
    (s.modLaunch lid f).seqs = s.seqs := rfl
@[simp] theorem State.modLaunch_net (s : State) (lid : Nat) (f : Launch → Launch) :
    (s.modLaunch lid f).net = s.net := rfl
@[simp] theorem State.modLaunch_sends (s : State) (lid : Nat) (f : Launch → Launch) :
    (s.modLaunch lid f).sends = s.sends := rfl
@[simp] theorem State.modLaunch_cmds (s : State) (lid : Nat) (f : Launch → Launch) :
    (s.modLaunch lid f).cmds = s.cmds := rfl
@[simp] theorem State.modLaunch_routes (s : State) (lid : Nat) (f : Launch → Launch) :
    (s.modLaunch lid f).routes = s.routes := rfl
@[simp] theorem State.modLaunch_parts (s : State) (lid : Nat) (f : Launch → Launch) :
    (s.modLaunch lid f).parts = s.parts := rfl
@[simp] theorem State.modLaunch_partAsids (s : State) (lid : Nat) (f : Launch → Launch) :
    (s.modLaunch lid f).partAsids = s.partAsids := rfl
@[simp] theorem State.modLaunch_ways (s : State) (lid : Nat) (f : Launch → Launch) :
    (s.modLaunch lid f).ways = s.ways := rfl
@[simp] theorem State.modLaunch_locks (s : State) (lid : Nat) (f : Launch → Launch) :
    (s.modLaunch lid f).locks = s.locks := rfl
@[simp] theorem State.modLaunch_windows (s : State) (lid : Nat) (f : Launch → Launch) :
    (s.modLaunch lid f).windows = s.windows := rfl
@[simp] theorem State.modLaunch_tlbis (s : State) (lid : Nat) (f : Launch → Launch) :
    (s.modLaunch lid f).tlbis = s.tlbis := rfl
@[simp] theorem State.modLaunch_hostQs (s : State) (lid : Nat) (f : Launch → Launch) :
    (s.modLaunch lid f).hostQs = s.hostQs := rfl
@[simp] theorem State.modLaunch_hsc (s : State) (lid : Nat) (f : Launch → Launch) :
    (s.modLaunch lid f).hsc = s.hsc := rfl
@[simp] theorem State.modLaunch_heads (s : State) (lid : Nat) (f : Launch → Launch) :
    (s.modLaunch lid f).heads = s.heads := rfl
@[simp] theorem State.modLaunch_qbase (s : State) (lid : Nat) (f : Launch → Launch) :
    (s.modLaunch lid f).qbase = s.qbase := rfl
@[simp] theorem State.modLaunch_versions (s : State) (lid : Nat) (f : Launch → Launch) :
    (s.modLaunch lid f).versions = s.versions := rfl
@[simp] theorem State.modLaunch_temps (s : State) (lid : Nat) (f : Launch → Launch) :
    (s.modLaunch lid f).temps = s.temps := rfl
@[simp] theorem State.modLaunch_board (s : State) (lid : Nat) (f : Launch → Launch) :
    (s.modLaunch lid f).board = s.board := rfl
@[simp] theorem State.modLaunch_pmTime (s : State) (lid : Nat) (f : Launch → Launch) :
    (s.modLaunch lid f).pmTime = s.pmTime := rfl
@[simp] theorem State.modLaunch_pmStep (s : State) (lid : Nat) (f : Launch → Launch) :
    (s.modLaunch lid f).pmStep = s.pmStep := rfl
@[simp] theorem State.modLaunch_pmHeld (s : State) (lid : Nat) (f : Launch → Launch) :
    (s.modLaunch lid f).pmHeld = s.pmHeld := rfl
@[simp] theorem State.modLaunch_pmDroop (s : State) (lid : Nat) (f : Launch → Launch) :
    (s.modLaunch lid f).pmDroop = s.pmDroop := rfl
@[simp] theorem State.modLaunch_wall (s : State) (lid : Nat) (f : Launch → Launch) :
    (s.modLaunch lid f).wall = s.wall := rfl
@[simp] theorem State.modLaunch_stopped (s : State) (lid : Nat) (f : Launch → Launch) :
    (s.modLaunch lid f).stopped = s.stopped := rfl
@[simp] theorem State.modLaunch_recovery (s : State) (lid : Nat) (f : Launch → Launch) :
    (s.modLaunch lid f).recovery = s.recovery := rfl
@[simp] theorem State.modLaunch_booted (s : State) (lid : Nat) (f : Launch → Launch) :
    (s.modLaunch lid f).booted = s.booted := rfl
@[simp] theorem State.modLaunch_recov (s : State) (lid : Nat) (f : Launch → Launch) :
    (s.modLaunch lid f).recov = s.recov := rfl
@[simp] theorem State.modLaunch_hostFrozen (s : State) (lid : Nat) (f : Launch → Launch) :
    (s.modLaunch lid f).hostFrozen = s.hostFrozen := rfl
@[simp] theorem State.modLaunch_linkUp (s : State) (lid : Nat) (f : Launch → Launch) :
    (s.modLaunch lid f).linkUp = s.linkUp := rfl
@[simp] theorem State.modLaunch_peerId (s : State) (lid : Nat) (f : Launch → Launch) :
    (s.modLaunch lid f).peerId = s.peerId := rfl
@[simp] theorem State.modLaunch_linkLo (s : State) (lid : Nat) (f : Launch → Launch) :
    (s.modLaunch lid f).linkLo = s.linkLo := rfl
@[simp] theorem State.modLaunch_linkHi (s : State) (lid : Nat) (f : Launch → Launch) :
    (s.modLaunch lid f).linkHi = s.linkHi := rfl
@[simp] theorem State.modLaunch_access (s : State) (lid : Nat) (f : Launch → Launch) :
    (s.modLaunch lid f).access = s.access := rfl
@[simp] theorem State.modLaunch_hand (s : State) (lid : Nat) (f : Launch → Launch) :
    (s.modLaunch lid f).hand = s.hand := rfl
@[simp] theorem State.modLaunch_handOut (s : State) (lid : Nat) (f : Launch → Launch) :
    (s.modLaunch lid f).handOut = s.handOut := rfl
@[simp] theorem State.modLaunch_handSeq (s : State) (lid : Nat) (f : Launch → Launch) :
    (s.modLaunch lid f).handSeq = s.handSeq := rfl
@[simp] theorem State.modLaunch_fuses (s : State) (lid : Nat) (f : Launch → Launch) :
    (s.modLaunch lid f).fuses = s.fuses := rfl
@[simp] theorem State.modLaunch_revoked (s : State) (lid : Nat) (f : Launch → Launch) :
    (s.modLaunch lid f).revoked = s.revoked := rfl
@[simp] theorem State.modLaunch_counters (s : State) (lid : Nat) (f : Launch → Launch) :
    (s.modLaunch lid f).counters = s.counters := rfl
@[simp] theorem State.modLaunch_measure (s : State) (lid : Nat) (f : Launch → Launch) :
    (s.modLaunch lid f).measure = s.measure := rfl
@[simp] theorem State.modLaunch_spdmReady (s : State) (lid : Nat) (f : Launch → Launch) :
    (s.modLaunch lid f).spdmReady = s.spdmReady := rfl
@[simp] theorem State.modLaunch_out (s : State) (lid : Nat) (f : Launch → Launch) :
    (s.modLaunch lid f).out = s.out := rfl
@[simp] theorem State.modLaunch_nextId (s : State) (lid : Nat) (f : Launch → Launch) :
    (s.modLaunch lid f).nextId = s.nextId := rfl
@[simp] theorem State.modLaunch_freeCtr (s : State) (lid : Nat) (f : Launch → Launch) :
    (s.modLaunch lid f).freeCtr = s.freeCtr := rfl
@[simp] theorem State.modLaunch_agenda (s : State) (lid : Nat) (f : Launch → Launch) :
    (s.modLaunch lid f).agenda = s.agenda := rfl
@[simp] theorem State.modLaunch_selCore (s : State) (lid : Nat) (f : Launch → Launch) :
    (s.modLaunch lid f).selCore = s.selCore := rfl
@[simp] theorem State.modLaunch_selSlot (s : State) (lid : Nat) (f : Launch → Launch) :
    (s.modLaunch lid f).selSlot = s.selSlot := rfl

/-! ## The changed fields -/

@[simp] theorem State.setWave_waves (s : State) (w : Wave) :
    (s.setWave w).waves = s.waves.map fun v => if v.at w.core w.slot then w else v := rfl
@[simp] theorem State.setCore_cores (s : State) (c : Nat) (v : Core) :
    (s.setCore c v).cores = Tab.put {} s.cores c v := rfl
@[simp] theorem State.setCluster_clusters (s : State) (c : Nat) (v : Cluster) :
    (s.setCluster c v).clusters = Tab.put {} s.clusters c v := rfl
@[simp] theorem State.setGroup_groups (s : State) (g : Group) :
    (s.setGroup g).groups = s.groups.map fun v => if v.at g.core g.gslot then g else v := rfl
@[simp] theorem State.setCtx_ctxs (s : State) (x : Ctx) :
    (s.setCtx x).ctxs = s.ctxs.map fun v => if v.asid == x.asid then x else v := rfl
@[simp] theorem State.modLaunch_launches (s : State) (lid : Nat) (f : Launch → Launch) :
    (s.modLaunch lid f).launches = s.launches.map fun l => if l.lid == lid then f l else l := rfl

/-! ## The named reads -/

@[simp] theorem State.setWave_core (s : State) (w : Wave) (k : Nat) :
    (s.setWave w).core k = s.core k := rfl
@[simp] theorem State.setWave_cluster (s : State) (w : Wave) (k : Nat) :
    (s.setWave w).cluster k = s.cluster k := rfl
@[simp] theorem State.setWave_group? (s : State) (w : Wave) (k n : Nat) :
    (s.setWave w).group? k n = s.group? k n := rfl
@[simp] theorem State.setWave_ctx? (s : State) (w : Wave) (a : Nat) :
    (s.setWave w).ctx? a = s.ctx? a := rfl
@[simp] theorem State.setWave_launch? (s : State) (w : Wave) (n : Nat) :
    (s.setWave w).launch? n = s.launch? n := rfl
@[simp] theorem State.setCore_cluster (s : State) (c : Nat) (v : Core) (k : Nat) :
    (s.setCore c v).cluster k = s.cluster k := rfl
@[simp] theorem State.setCore_wave? (s : State) (c : Nat) (v : Core) (k n : Nat) :
    (s.setCore c v).wave? k n = s.wave? k n := rfl
@[simp] theorem State.setCore_group? (s : State) (c : Nat) (v : Core) (k n : Nat) :
    (s.setCore c v).group? k n = s.group? k n := rfl
@[simp] theorem State.setCore_ctx? (s : State) (c : Nat) (v : Core) (a : Nat) :
    (s.setCore c v).ctx? a = s.ctx? a := rfl
@[simp] theorem State.setCore_launch? (s : State) (c : Nat) (v : Core) (n : Nat) :
    (s.setCore c v).launch? n = s.launch? n := rfl
@[simp] theorem State.setCluster_core (s : State) (c : Nat) (v : Cluster) (k : Nat) :
    (s.setCluster c v).core k = s.core k := rfl
@[simp] theorem State.setCluster_wave? (s : State) (c : Nat) (v : Cluster) (k n : Nat) :
    (s.setCluster c v).wave? k n = s.wave? k n := rfl
@[simp] theorem State.setCluster_group? (s : State) (c : Nat) (v : Cluster) (k n : Nat) :
    (s.setCluster c v).group? k n = s.group? k n := rfl
@[simp] theorem State.setCluster_ctx? (s : State) (c : Nat) (v : Cluster) (a : Nat) :
    (s.setCluster c v).ctx? a = s.ctx? a := rfl
@[simp] theorem State.setCluster_launch? (s : State) (c : Nat) (v : Cluster) (n : Nat) :
    (s.setCluster c v).launch? n = s.launch? n := rfl
@[simp] theorem State.setGroup_core (s : State) (g : Group) (k : Nat) :
    (s.setGroup g).core k = s.core k := rfl
@[simp] theorem State.setGroup_cluster (s : State) (g : Group) (k : Nat) :
    (s.setGroup g).cluster k = s.cluster k := rfl
@[simp] theorem State.setGroup_wave? (s : State) (g : Group) (k n : Nat) :
    (s.setGroup g).wave? k n = s.wave? k n := rfl
@[simp] theorem State.setGroup_ctx? (s : State) (g : Group) (a : Nat) :
    (s.setGroup g).ctx? a = s.ctx? a := rfl
@[simp] theorem State.setGroup_launch? (s : State) (g : Group) (n : Nat) :
    (s.setGroup g).launch? n = s.launch? n := rfl
@[simp] theorem State.setCtx_core (s : State) (x : Ctx) (k : Nat) :
    (s.setCtx x).core k = s.core k := rfl
@[simp] theorem State.setCtx_cluster (s : State) (x : Ctx) (k : Nat) :
    (s.setCtx x).cluster k = s.cluster k := rfl
@[simp] theorem State.setCtx_wave? (s : State) (x : Ctx) (k n : Nat) :
    (s.setCtx x).wave? k n = s.wave? k n := rfl
@[simp] theorem State.setCtx_group? (s : State) (x : Ctx) (k n : Nat) :
    (s.setCtx x).group? k n = s.group? k n := rfl
@[simp] theorem State.setCtx_launch? (s : State) (x : Ctx) (n : Nat) :
    (s.setCtx x).launch? n = s.launch? n := rfl
@[simp] theorem State.modLaunch_core (s : State) (lid : Nat) (f : Launch → Launch) (k : Nat) :
    (s.modLaunch lid f).core k = s.core k := rfl
@[simp] theorem State.modLaunch_cluster (s : State) (lid : Nat) (f : Launch → Launch) (k : Nat) :
    (s.modLaunch lid f).cluster k = s.cluster k := rfl
@[simp] theorem State.modLaunch_wave? (s : State) (lid : Nat) (f : Launch → Launch) (k n : Nat) :
    (s.modLaunch lid f).wave? k n = s.wave? k n := rfl
@[simp] theorem State.modLaunch_group? (s : State) (lid : Nat) (f : Launch → Launch) (k n : Nat) :
    (s.modLaunch lid f).group? k n = s.group? k n := rfl
@[simp] theorem State.modLaunch_ctx? (s : State) (lid : Nat) (f : Launch → Launch) (a : Nat) :
    (s.modLaunch lid f).ctx? a = s.ctx? a := rfl

@[simp] theorem State.core_setCore {s : State} (h : Tab.wf ({} : Core) s.cores = true) (c k : Nat) (v : Core) :
    (s.setCore c v).core k = if k = c then v else s.core k := Tab.get_put _ _ h _ _
@[simp] theorem State.cluster_setCluster {s : State} (h : Tab.wf ({} : Cluster) s.clusters = true) (c k : Nat) (v : Cluster) :
    (s.setCluster c v).cluster k = if k = c then v else s.cluster k := Tab.get_put _ _ h _ _

/-! ## The counters of the model -/

@[simp] theorem State.fresh_fst (s : State) : s.fresh.1 = s.nextId := rfl
@[simp] theorem State.fresh_snd (s : State) : s.fresh.2 = { s with nextId := s.nextId + 1 } := rfl
@[simp] theorem State.freshFree_fst (s : State) : s.freshFree.1 = s.freeCtr := rfl
@[simp] theorem State.freshFree_snd (s : State) : s.freshFree.2 = { s with freeCtr := s.freeCtr + 1 } := rfl

end Sys2Proof.Machine
end

