-- ==== Sys2Proof/Laws/Memory.lean ====
section
/-! SUPPORT. Bytes of memory: a read after a write, and the canonical form, which every memory operation keeps. -/

namespace Sys2Proof.Machine

theorem Memory.wf_write (bs : List Byte) {m : Memory} (h : Memory.wf m = true) (a : Nat) :
    Memory.wf (m.write a bs) = true := by
  induction bs generalizing m a with
  | nil => exact h
  | cons b t ih => exact ih (Tab.wf_put 0 b h a) (a + 1)

/-- A byte after a write of bytes. -/
theorem Memory.get_write (bs : List Byte) {m : Memory} (h : Memory.wf m = true) (a x : Nat) :
    Tab.get 0 (m.write a bs) x = if a ≤ x ∧ x < a + bs.length then bs.getD (x - a) 0 else Tab.get 0 m x := by
  induction bs generalizing m a with
  | nil => simp [Memory.write] <;> omega
  | cons b t ih =>
    rw [Memory.write, ih (Tab.wf_put 0 b h a), Tab.get_put 0 b h]
    simp only [List.length_cons]
    by_cases hx : x = a
    · subst hx
      rw [if_neg (by omega), if_pos rfl, if_pos (by omega)]
      simp
    · by_cases h1 : a + 1 ≤ x ∧ x < a + 1 + t.length
      · have h2 : a ≤ x ∧ x < a + (t.length + 1) := by omega
        have h3 : x - a = x - (a + 1) + 1 := by omega
        simp [h1, h2, h3]
      · have h2 : ¬ (a ≤ x ∧ x < a + (t.length + 1)) := by omega
        rw [if_neg h1, if_neg hx, if_neg h2]

/-- Bytes read where bytes were written. -/
theorem Memory.read_write (bs : List Byte) {m : Memory} (h : Memory.wf m = true) (a : Nat) :
    (m.write a bs).read a bs.length = bs := by
  apply List.ext_getElem?
  intro i
  by_cases hi : i < bs.length
  · have hg := Memory.get_write bs h a (a + i)
    rw [if_pos (by omega), show a + i - a = i by omega] at hg
    simp [Memory.read, hi]
    simpa [hi] using hg
  · simp [Memory.read, hi]

/-- Bytes that are not written read as before. -/
theorem Memory.read_write_apart (bs : List Byte) {m : Memory} (h : Memory.wf m = true) {a b n : Nat}
    (ha : b + n ≤ a ∨ a + bs.length ≤ b) : (m.write a bs).read b n = m.read b n := by
  unfold Memory.read
  apply List.map_congr_left
  intro i hi
  have hi := List.mem_range.1 hi
  rw [Memory.get_write bs h, if_neg (by omega)]

theorem Tab.above_filter {α : Type} [DecidableEq α] (d : α) (p : Nat × α → Bool) {t : Tab α} (h : Tab.wf d t = true)
    {k : Nat} (ha : Tab.above k t) : Tab.above k (t.filter p) := by
  induction t with
  | nil => exact ha
  | cons e t ih =>
    obtain ⟨x, v⟩ := e
    obtain ⟨-, h2, h3⟩ := (Tab.wf_cons d v x t).1 h
    simp only [Tab.above] at ha
    cases hp : p (x, v)
    · rw [List.filter_cons_of_neg (by simp [hp])]
      apply ih h3
      cases t with
      | nil => trivial
      | cons e t => simp only [Tab.above] at h2 ⊢; omega
    · rw [List.filter_cons_of_pos hp]; exact ha

/-- Entries may leave a table. -/
theorem Tab.wf_filter {α : Type} [DecidableEq α] (d : α) (p : Nat × α → Bool) {t : Tab α} (h : Tab.wf d t = true) :
    Tab.wf d (t.filter p) = true := by
  induction t with
  | nil => rfl
  | cons e t ih =>
    obtain ⟨x, v⟩ := e
    obtain ⟨h1, h2, h3⟩ := (Tab.wf_cons d v x t).1 h
    cases hp : p (x, v)
    · rw [List.filter_cons_of_neg (by simp [hp])]; exact ih h3
    · rw [List.filter_cons_of_pos hp]
      exact (Tab.wf_cons d v x _).2 ⟨h1, Tab.above_filter d p h3 h2, ih h3⟩

/-! ## The operations of the state -/

/-- The memory of one of two states. -/
theorem State.ite_mem (c : Prop) [Decidable c] (a b : State) : (if c then a else b).mem = if c then a.mem else b.mem :=
  apply_ite State.mem c a b

/-- One of two memories in canonical form. -/
theorem ite_wf {c : Prop} [Decidable c] {a b : Memory} (ha : Memory.wf a = true) (hb : Memory.wf b = true) :
    Memory.wf (if c then a else b) = true := by
  split
  · exact ha
  · exact hb

/-- A fold keeps what each of its steps keeps. -/
theorem foldl_keeps {α β : Type} (P : β → Prop) (f : β → α → β) (hf : ∀ b a, P b → P (f b a)) (l : List α) {b : β}
    (h : P b) : P (l.foldl f b) := by
  induction l generalizing b with
  | nil => exact h
  | cons a t ih => exact ih (hf b a h)

theorem State.mirrorSlot_wf {s : State} (h : Memory.wf s.mem = true) (key : Nat) :
    Memory.wf (s.mirrorSlot key).mem = true := by
  unfold State.mirrorSlot
  rw [State.ite_mem]
  refine ite_wf h ?_
  cases s.ctx? (key / 256) with
  | none => exact h
  | some c =>
    dsimp only
    exact Memory.wf_write _ h _

theorem State.putSlot_wf {s : State} (h : Memory.wf s.mem = true) (key : Nat) (d : DSlot) :
    Memory.wf (s.putSlot key d).mem = true := by
  unfold State.putSlot
  generalize hu : ({ s with slots := Tab.put {} s.slots key d } : State) = u
  refine State.mirrorSlot_wf ?_ key
  subst hu
  exact h

theorem State.invalidate_wf {s : State} (h : Memory.wf s.mem = true) (sel : Nat × Nat → Bool) :
    Memory.wf (s.invalidate sel).mem = true := by
  unfold State.invalidate
  refine foldl_keeps (fun t : State => Memory.wf t.mem = true) _ (fun t e ht => ?_) _ h
  dsimp only
  rw [State.ite_mem]
  exact ite_wf ht (State.putSlot_wf ht _ _)

theorem State.touchLine_mem (s : State) (pa n : Nat) (write : Bool) : (s.touchLine pa n write).mem = s.mem := by
  unfold State.touchLine
  simp only [State.ite_mem, State.setCluster_mem, ite_self]

theorem State.touch_mem (s : State) (pa n : Nat) (write : Bool) : (s.touch pa n write).mem = s.mem := by
  unfold State.touch
  rw [State.ite_mem]
  split
  · refine foldl_keeps (fun t : State => t.mem = s.mem) _ (fun t i ht => ?_) _ rfl
    rw [State.touchLine_mem, ht]
  · rfl

theorem State.modGroup_mem (s : State) (c g : Nat) (f : Group → Group) : (s.modGroup c g f).mem = s.mem := by
  unfold State.modGroup
  cases s.group? c g <;> rfl

/-- A write that is performed keeps the canonical form of memory. -/
theorem State.rawWrite_wf {s : State} (h : Memory.wf s.mem = true) (pa : Nat) (bytes : List Byte) :
    Memory.wf (s.rawWrite pa bytes).mem = true := by
  unfold State.rawWrite
  simp only [State.ite_mem, State.modGroup_mem, State.touch_mem]
  refine ite_wf h (ite_wf ?_ h)
  have hw := Memory.wf_write bytes (ite_wf (c := s.slots.isEmpty = true) h (State.invalidate_wf h fun r =>
    overlaps pa bytes.length r.1 r.2)) pa
  exact ite_wf hw hw

theorem State.modCtx_mem (s : State) (a : Nat) (f : Ctx → Ctx) : (s.modCtx a f).mem = s.mem := by
  unfold State.modCtx
  cases s.ctx? a <;> rfl

theorem State.noteAsync_mem (s : State) (a : Async) (r : Bool) : (s.noteAsync a r).mem = s.mem := by
  unfold State.noteAsync
  rw [State.ite_mem, ite_self]

theorem State.putRecord_wf {s : State} (h : Memory.wf s.mem = true) (c : Ctx) (pa : Nat) (body : List Byte) :
    Memory.wf (s.putRecord c pa body).mem = true := by
  unfold State.putRecord
  dsimp only
  rw [State.setCtx_mem]
  exact State.rawWrite_wf h _ _

/-- An asynchronous record keeps it. -/
theorem State.postAsync_wf {s : State} (h : Memory.wf s.mem = true) (a : Async) :
    Memory.wf (s.postAsync a).mem = true := by
  unfold State.postAsync
  dsimp only
  generalize s.groups.any a.from_ = r
  have hu := State.noteAsync_mem s a r
  generalize s.noteAsync a r = u at hu
  have hm : Memory.wf u.mem = true := by rw [hu]; exact h
  cases u.ctx? a.asid with
  | none => exact hm
  | some c =>
    have hl : Memory.wf (u.setCtx { c with lost := (c.lost + 1) % 2 ^ 32 }).mem = true := by
      rw [State.setCtx_mem]; exact hm
    dsimp only
    rw [State.ite_mem]
    refine ite_wf hl ?_
    cases u.walkTo a.asid 3 (c.afqbase + BitVec.ofNat 64 (128 * (c.prod % 2 ^ c.afqlog))) with
    | none => exact hl
    | some pa => exact State.putRecord_wf hm _ _ _

theorem State.orePoison_wf {s : State} (h : Memory.wf s.mem = true) (pa : Nat) (c : Cause) :
    Memory.wf (s.orePoison pa c).mem = true := by
  unfold State.orePoison State.modCluster
  rw [State.setCluster_mem]
  exact State.rawWrite_wf h _ _

theorem State.oreReport_wf {s : State} (h : Memory.wf s.mem = true) (asid : Nat) (c : Cause) (va : DWord)
    (core slot gslot i op : Nat) : Memory.wf (s.oreReport asid c va core slot gslot i op).mem = true :=
  State.postAsync_wf h _

/-- A write at a home bank keeps it too, with the objects that it poisons. -/
theorem State.bankWrite_wf {s : State} (h : Memory.wf s.mem = true) (pa : Nat) (bytes : List Byte) :
    Memory.wf (s.bankWrite pa bytes).mem = true := by
  unfold State.bankWrite
  have h1 := State.rawWrite_wf h pa bytes
  dsimp only
  generalize s.rawWrite pa bytes = u at h1
  rw [State.ite_mem]
  refine ite_wf ?_ h1
  refine foldl_keeps (fun t : State => Memory.wf t.mem = true) _ (fun t o ht => ?_) _ h1
  exact State.oreReport_wf (State.orePoison_wf ht _ _) _ _ _ _ _ _ _ _

theorem State.engineWrite_wf {s : State} (h : Memory.wf s.mem = true) (core path pa : Nat) (bytes : List Byte) :
    Memory.wf (s.engineWrite core path pa bytes).mem = true := by
  unfold State.engineWrite State.modCore
  rw [State.setCore_mem]
  exact State.bankWrite_wf h pa bytes

theorem State.consume_mem (s : State) (asid pa n : Nat) : (s.consume asid pa n).mem = s.mem := by
  unfold State.consume
  rw [State.ite_mem, State.modCtx_mem, ite_self]

theorem State.place_mem (s : State) (pa n : Nat) : (s.place pa n).2.mem = s.mem := by
  unfold State.place
  split
  · dsimp only
    cases s.group? (localOf pa).1 (localOf pa).2.1 <;> rfl
  · split <;> rfl

/-- A read changes no byte. -/
theorem State.bankRead_mem (s : State) (asid pa n : Nat) : (s.bankRead asid pa n).2.mem = s.mem := by
  unfold State.bankRead
  rw [State.place_mem, State.touch_mem, State.consume_mem]

/-- A way whose bytes become zero leaves the canonical form. -/
theorem State.clearWay_wf {s : State} (h : Memory.wf s.mem = true) (way : Nat) :
    Memory.wf (s.clearWay way).mem = true := by
  unfold State.clearWay
  exact Tab.wf_filter 0 _ (State.invalidate_wf h _)

end Sys2Proof.Machine
end

