-- ==== Sys2Proof/Laws/Wave.lean ====
section
/-! SUPPORT. The registers of a wave: what a read gives after a write (R22), and that a write changes no other part of
the wave. -/

namespace Sys2Proof.Machine

/-- The value that a destination keeps of a written one: a predicate is 0 or 1. -/
def Dst.norm (d : Dst) (v : Word) : Word :=
  match d with
  | .p _ _ => if v != 0 then 1 else 0
  | _ => v

theorem Wave.wf_iff (w : Wave) :
    w.wf = true ↔ Tab.wf (0 : Word) w.g = true ∧ Tab.wf (0 : Word) w.w = true ∧ Tab.wf false w.p = true ∧
      Tab.wf (0 : DWord) w.cd = true ∧ Tab.wf (0 : DWord) w.sd = true ∧ Tab.wf 0 w.arrived = true ∧
      (w.streams.map fun e => e.1).Nodup ∧ ∀ e ∈ w.streams, e.1 < 4 := by
  simp [Wave.wf, and_assoc]

theorem Wave.wf_writeDst {w : Wave} (h : w.wf = true) (d : Dst) (v : Word) : (w.writeDst d v).wf = true := by
  rw [Wave.wf_iff] at h ⊢
  obtain ⟨hg, hw, hp, hr⟩ := h
  cases d <;> simp only [Wave.writeDst] <;> (try split) <;>
    first
    | exact ⟨hg, hw, hp, hr⟩
    | exact ⟨Tab.wf_put _ _ hg _, hw, hp, hr⟩
    | exact ⟨hg, Tab.wf_put _ _ hw _, hp, hr⟩
    | exact ⟨hg, hw, Tab.wf_put _ _ hp _, hr⟩

/-- The key of a register lane names it alone. -/
theorem key_inj {n : Nat} {r r' : BitVec n} {l l' : Nat} (h : l < 32) (h' : l' < 32) :
    32 * r.toNat + l = 32 * r'.toNat + l' ↔ r = r' ∧ l = l' := by
  constructor
  · intro e
    have : r.toNat = r'.toNat := by omega
    exact ⟨BitVec.eq_of_toNat_eq this, by omega⟩
  · rintro ⟨rfl, rfl⟩; rfl

/-- A read after a write: the register written, unless the write is discarded, has the new value, and no other register
has changed (R22). -/
theorem Wave.readDst_writeDst {w : Wave} (h : w.wf = true) {d e : Dst} (hd : d.isReg = true) (he : e.isReg = true)
    (v : Word) :
    (w.writeDst d v).readDst e = if e = d ∧ d.isNull = false then d.norm v else w.readDst e := by
  obtain ⟨hg, hw, hp, -⟩ := (Wave.wf_iff w).1 h
  cases d <;> cases e <;> simp only [Dst.isReg, Bool.false_eq_true, Nat.blt_eq] at hd he <;>
    simp only [Wave.writeDst, Wave.readDst, Wave.readG, Wave.readW, Wave.readP, Dst.isNull, Dst.norm, Dst.g.injEq,
      Dst.w.injEq, Dst.p.injEq, reduceCtorEq, false_and, if_false]
  case g.g r' l' r l =>
    by_cases h0 : r' = 0
    · simp [h0]
    · have h1 : (r' == 0) = false := by simpa using h0
      by_cases hr : r = 0
      · simp [hr]
        exact fun e => absurd e.symm h0
      · have hr' : (r == 0) = false := by simpa using hr
        simp only [h1, hr', Bool.false_eq_true, if_false, Tab.get_put _ _ hg, key_inj he hd, and_true]
  case w.w r' r =>
    by_cases h0 : r' = 0
    · simp [h0]
    · have h1 : (r' == 0) = false := by simpa using h0
      by_cases hr : r = 0
      · simp [hr]
        exact fun e => absurd e.symm h0
      · have hr' : (r == 0) = false := by simpa using hr
        simp only [h1, hr', Bool.false_eq_true, if_false, Tab.get_put _ _ hw, BitVec.toNat_inj, and_true]
  case p.p r' l' r l =>
    by_cases h0 : r' = 7
    · simp [h0]
    · have h1 : (r' == 7) = false := by simpa using h0
      by_cases hr : r = 7
      · simp [hr]
        exact fun e => absurd e.symm h0
      · have hr' : (r == 7) = false := by simpa using hr
        simp only [h1, hr', Bool.false_eq_true, if_false, Tab.get_put _ _ hp, key_inj he hd, and_true]
        split <;> rfl
  all_goals (repeat' split) <;> simp_all

/-- A write of a register changes the register tables alone. -/
theorem Wave.writeDst_rest {d : Dst} (hd : d.isReg = true) (w : Wave) (v : Word) :
    w.writeDst d v = { w with
      g := (w.writeDst d v).g, w := (w.writeDst d v).w, p := (w.writeDst d v).p } := by
  cases d <;> simp only [Dst.isReg, Bool.false_eq_true] at hd <;> simp only [Wave.writeDst] <;> split <;> rfl

/-- Whether one of some writes, all made to a wave, changes the value of a register. -/
def Wave.differs (w : Wave) (ws : List (Dst × Word)) : Bool :=
  ws.any fun x => !x.1.isNull && w.readDst x.1 != x.2

/-- The paths after a write in program order. -/
theorem Wave.readDst_touch (w : Wave) (d : Dst) : w.touch.readDst d = w.readDst d := by
  cases d <;> rfl

theorem Wave.wf_touch (w : Wave) : w.touch.wf = w.wf := rfl

/-- One write in program order. -/
theorem Wave.writeNow_eq {d : Dst} (hd : d.isReg = true) (w : Wave) (v : Word) :
    w.writeNow (d, v) =
      if !d.isNull && w.readDst d != v then (w.writeDst d v).touch
      else if d.isNull then w else w.writeDst d v := by
  have hf : (d == .fpsr) = false := by cases d <;> simp_all [Dst.isReg]
  simp only [Wave.writeNow, hf, Bool.false_or]
  cases d.isNull <;> by_cases hv : w.readDst d = v <;> simp [hv]

theorem Wave.wf_writeNow {w : Wave} (h : w.wf = true) (x : Dst × Word) : (w.writeNow x).wf = true := by
  simp only [Wave.writeNow]
  split
  · exact h
  · split
    · exact Wave.wf_writeDst h _ _
    · exact Wave.wf_writeDst h _ _

/-- Writing the value that a register holds, or to a register that discards it, changes no value. -/
theorem Wave.readDst_writeNow {w : Wave} (h : w.wf = true) {d e : Dst} (hd : d.isReg = true) (he : e.isReg = true)
    {v : Word} (hv : d.norm v = v) :
    (w.writeNow (d, v)).readDst e = if e = d ∧ d.isNull = false then v else w.readDst e := by
  rw [Wave.writeNow_eq hd]
  have key := Wave.readDst_writeDst h hd he v
  rw [hv] at key
  cases hn : d.isNull
  · by_cases hr : w.readDst d = v
    · simp only [hn, hr, Bool.not_false, bne_self_eq_false, Bool.and_false, Bool.false_eq_true, if_false] at key ⊢
      exact key
    · have : (w.readDst d != v) = true := by simpa using hr
      simp only [hn, this, Bool.not_false, Bool.and_self, if_true, Wave.readDst_touch] at key ⊢
      exact key
  · simp

/-- The state of a wave after writes in program order: its register tables, and CHANGED of the current path. -/
def Wave.Written (w w' : Wave) (ch : Bool) : Prop :=
  w' = { w with
    g := w'.g, w := w'.w, p := w'.p
    paths := if ch then w.paths.map fun q => if q.made == w.cur then q.touch else q else w.paths }

theorem Wave.writeNow_rest {d : Dst} (hd : d.isReg = true) (w : Wave) (v : Word) :
    w.Written (w.writeNow (d, v)) (!d.isNull && w.readDst d != v) := by
  rw [Wave.writeNow_eq hd, Wave.Written]
  have key := Wave.writeDst_rest hd w v
  split
  · simp only [Wave.touch, Wave.modCur, Wave.modPath]
    rw [key]
  · split
    · rfl
    · exact key

theorem touch_twice (q : Path) : q.touch.touch = q.touch := rfl

theorem touch_made (q : Path) : q.touch.made = q.made := rfl

/-- Two series of writes, one after the other. -/
theorem Wave.Written.trans {a b c : Wave} {x y : Bool} (h : a.Written b x) (k : b.Written c y) :
    a.Written c (x || y) := by
  have hc : b.cur = a.cur := by rw [h]
  have hp : b.paths = if x then a.paths.map fun q => if q.made == a.cur then q.touch else q else a.paths := by
    rw [h]
  unfold Wave.Written at *
  rw [k, hc, hp]
  cases x <;> cases y <;> simp only [Bool.or_false, Bool.or_self, Bool.or_true, if_true, Bool.false_eq_true, if_false]
  case true.true =>
    rw [h]
    congr 1
    simp only [List.map_map]
    congr 1
    funext q
    simp only [Function.comp]
    by_cases hq : (q.made == a.cur) = true
    · simp [hq, touch_made, touch_twice]
    · simp [hq]
  all_goals rw [h]

/-- Writes in program order to registers that differ: each register written has its new value, no other has changed, and
CHANGED is set if a value differs (R22, R134, R150). -/
theorem Wave.writeAll_spec {w : Wave} (h : w.wf = true) (ws : List (Dst × Word))
    (hr : ∀ x ∈ ws, x.1.isReg = true ∧ x.1.norm x.2 = x.2) (hn : (ws.map fun x => x.1).Nodup) :
    (w.writeAll ws).wf = true ∧ w.Written (w.writeAll ws) (w.differs ws) ∧
    ∀ d : Dst, d.isReg = true →
      (w.writeAll ws).readDst d = if d.isNull then w.readDst d else (ws.lookup d).getD (w.readDst d) := by
  induction ws generalizing w with
  | nil => exact ⟨h, by simp [Wave.Written, Wave.differs, Wave.writeAll], by simp [Wave.writeAll]⟩
  | cons x t ih =>
    obtain ⟨d, v⟩ := x
    obtain ⟨hd, hv⟩ := hr (d, v) (List.mem_cons_self ..)
    simp only at hd hv
    obtain ⟨hx, hn'⟩ := List.nodup_cons.1 hn
    have ht := ih (Wave.wf_writeNow h (d, v)) (fun y hy => hr y (List.mem_cons_of_mem _ hy)) hn'
    have hsame : ∀ y ∈ t, (w.writeNow (d, v)).readDst y.1 = w.readDst y.1 := by
      intro y hy
      rw [Wave.readDst_writeNow h hd (hr y (List.mem_cons_of_mem _ hy)).1 hv]
      have : y.1 ≠ d := fun e => hx (List.mem_map.2 ⟨y, hy, e⟩)
      simp [this]
    have hdiff : (w.writeNow (d, v)).differs t = w.differs t := by
      rw [Bool.eq_iff_iff]
      simp only [Wave.differs, List.any_eq_true]
      exact ⟨fun ⟨y, hy, e⟩ => ⟨y, hy, by rwa [hsame y hy] at e⟩,
        fun ⟨y, hy, e⟩ => ⟨y, hy, by rwa [hsame y hy]⟩⟩
    refine ⟨ht.1, ?_, ?_⟩
    · have := (Wave.writeNow_rest hd w v).trans ht.2.1
      rw [hdiff] at this
      exact this
    · intro e he
      have := ht.2.2 e he
      show ((w.writeNow (d, v)).writeAll t).readDst e = _
      rw [this, Wave.readDst_writeNow h hd he hv]
      by_cases hed : e = d
      · subst hed
        have hno : t.lookup e = none := by
          rw [List.lookup_eq_none_iff]
          intro y hy
          have : y.1 ≠ e := fun c => hx (List.mem_map.2 ⟨y, hy, c⟩)
          simpa using Ne.symm this
        simp only [hno, Option.getD_none, List.lookup_cons, beq_self_eq_true, true_and, Option.getD_some]
        cases e.isNull <;> simp
      · have : (e == d) = false := by simpa using hed
        simp only [List.lookup_cons, this, hed, false_and, if_false]

end Sys2Proof.Machine
end

