-- ==== Sys2Proof/Laws/Operands.lean ====
section
/-! SUPPORT. What the shared forms of an instruction do when nothing stands in its way: one lemma for each. -/

namespace Sys2Proof.Machine

/-! ## Waves in the state -/

theorem Wave.at_iff (w : Wave) (c k : Nat) : w.at c k = true ↔ w.core = c ∧ w.slot = k := by
  simp [Wave.at]

/-- The wave found in a slot stands in that slot. -/
theorem State.wave?_at {s : State} {c k : Nat} {w : Wave} (h : s.wave? c k = some w) : w.core = c ∧ w.slot = k :=
  (Wave.at_iff w c k).1 (by simpa using List.find?_some h)

theorem find_map_at {l : List Wave} {c k : Nat} {w : Wave} (h : l.find? (fun v => v.at c k) = some w) (w' : Wave)
    (hc : w'.core = c) (hk : w'.slot = k) :
    (l.map fun v => if v.at c k then w' else v).find? (fun v => v.at c k) = some w' := by
  induction l with
  | nil => simp at h
  | cons a t ih =>
    rw [List.find?_cons] at h
    rw [List.map_cons, List.find?_cons]
    cases ha : a.at c k with
    | true =>
      have : w'.at c k = true := (Wave.at_iff _ _ _).2 ⟨hc, hk⟩
      simp [this]
    | false =>
      rw [ha] at h
      simp only [Bool.false_eq_true, if_false, ha]
      exact ih h

/-- A wave put back stands in its slot. -/
theorem State.wave?_setWave {s : State} {w w' : Wave} (h : s.wave? w.core w.slot = some w)
    (hc : w'.core = w.core) (hk : w'.slot = w.slot) : (s.setWave w').wave? w'.core w'.slot = some w' := by
  unfold State.wave? State.setWave at *
  rw [hc, hk]
  exact find_map_at h w' hc hk

theorem map_at_map_at (l : List Wave) (c k : Nat) (a b : Wave) (hc : a.core = c) (hk : a.slot = k) :
    ((l.map fun v => if v.at c k then a else v).map fun v => if v.at c k then b else v) =
      l.map fun v => if v.at c k then b else v := by
  rw [List.map_map]
  congr 1
  funext v
  simp only [Function.comp]
  split
  · have : a.at c k = true := (Wave.at_iff _ _ _).2 ⟨hc, hk⟩
    simp [this]
  · rfl

/-- The last of two puts of a wave counts. -/
theorem State.setWave_setWave (s : State) {a b : Wave} (hc : a.core = b.core) (hk : a.slot = b.slot) :
    (s.setWave a).setWave b = s.setWave b := by
  unfold State.setWave
  simp only [hc, hk, map_at_map_at _ _ _ a b hc hk]

/-! ## Issue -/

theorem maskOf_true : maskOf (fun _ => true) = BitVec.allOnes 32 := by decide

/-- A wave without poisoned registers consumes nothing. -/
theorem State.soak_sound (s : State) {w : Wave} (h : w.poison = []) (u : Use) (m : Lanes) : s.soak w u m = (w, s) := by
  simp [State.soak, h]

/-- An instruction that names no bound stream and no pending register goes on at once. -/
theorem State.ready_clear {w : Wave} {u : Use} (h : Clear w u) (hp : w.poison = []) (s : State) (p : Path) (m : Lanes) :
    s.ready w p u m = .go s w w m := by
  have hn : w.named u = [] := by
    rw [Wave.named, List.filter_eq_nil_iff]
    intro e he
    have := h.streams e he
    simp only [List.any_eq_true, not_exists, not_and, Bool.not_eq_true]
    exact this
  have hb : w.badUse u = false := by
    rw [Wave.badUse, List.any_eq_false]
    intro e he
    have := h.streams e he
    simp only [Bool.or_eq_true, List.any_eq_true, Bool.and_eq_true, not_or, not_exists, not_and, Bool.not_eq_true]
    refine ⟨fun r hr hc => ?_, fun r hr hc => ?_⟩
    · rw [this r (List.mem_append_left _ hr)] at hc; exact absurd hc (by decide)
    · rw [this r (List.mem_append_right _ hr)] at hc; exact absurd hc (by decide)
  have ht : w.notTail u = BitVec.allOnes 32 := by
    rw [Wave.notTail, hn, ← maskOf_true]; rfl
  simp only [State.ready, hb, Bool.false_eq_true, if_false, hn, List.any_nil, ht, BitVec.and_allOnes, h.hazards,
    List.isEmpty_nil, if_true, State.soak_sound s hp]

/-- A register that is no bound stream takes its result itself. -/
theorem Wave.pushOf_none {w : Wave} {d : Dst} (h : ∀ r l, d = .g r l → ∀ e ∈ w.streams, r.toNat ≠ 60 + e.1)
    (grp : Nat) (pc : DWord) : w.pushOf grp pc d = none := by
  cases d with
  | g r l =>
    have h := h r l rfl
    simp only [Wave.pushOf]
    split
    · rfl
    · rename_i hr
      rw [Nat.blt_eq] at hr
      have : assoc w.streams (r.toNat - 60) = none := by
        revert h
        generalize w.streams = l
        intro h
        induction l with
        | nil => rfl
        | cons e t ih =>
          obtain ⟨k, x⟩ := e
          have hk := h (k, x) (List.mem_cons_self ..)
          have : (k == r.toNat - 60) = false := by simp only [beq_eq_false_iff_ne]; omega
          simp only [assoc, this, Bool.false_eq_true, if_false]
          exact ih fun e he => h e (List.mem_cons_of_mem _ he)
      rw [this]
  | _ => rfl

/-- The destinations of a list of results are no bound streams. -/
def Wave.Unstreamed {α : Type} (w : Wave) (rs : List (Dst × α)) : Prop :=
  ∀ x ∈ rs, ∀ r l, x.1 = .g r l → ∀ e ∈ w.streams, r.toNat ≠ 60 + e.1

theorem Wave.routed_eq {α : Type} {w : Wave} {rs : List (Dst × α)} (h : w.Unstreamed rs) (grp : Nat) (pc : DWord) :
    w.routed grp pc rs = rs := by
  unfold Wave.routed
  induction rs with
  | nil => rfl
  | cons x t ih =>
    have hx := Wave.pushOf_none (d := x.1) (h x (List.mem_cons_self ..)) grp pc
    rw [List.filterMap_cons, hx]
    simp only
    rw [ih fun y hy => h y (List.mem_cons_of_mem _ hy)]

theorem Wave.bump_eq {w : Wave} {u : Use} (h : Clear w u) : w.bump u = w := by
  have hn : w.named u = [] := by
    rw [Wave.named, List.filter_eq_nil_iff]
    intro e he
    have := h.streams e he
    simp only [List.any_eq_true, not_exists, not_and, Bool.not_eq_true]
    exact this
  simp [Wave.bump, hn]

/-! ## Completion -/

theorem mem_of_lookup {rs : List (Dst × Word)} {d : Dst} {v : Word} (h : rs.lookup d = some v) : (d, v) ∈ rs := by
  induction rs with
  | nil => simp at h
  | cons x t ih =>
    obtain ⟨e, y⟩ := x
    rw [List.lookup_cons] at h
    by_cases hd : d = e
    · subst hd; simp only [beq_self_eq_true] at h; cases h; exact List.mem_cons_self ..
    · have : (d == e) = false := by simpa using hd
      rw [this] at h
      exact List.mem_cons_of_mem _ (ih h)

theorem lookup_of_nodup {rs : List (Dst × Word)} (hn : (rs.map fun x => x.1).Nodup) {x : Dst × Word} (hx : x ∈ rs) :
    rs.lookup x.1 = some x.2 := by
  induction rs with
  | nil => simp at hx
  | cons y t ih =>
    obtain ⟨h1, h2⟩ := List.nodup_cons.1 hn
    rw [List.lookup_cons]
    rcases List.mem_cons.1 hx with rfl | hx
    · simp
    · have : x.1 ≠ y.1 := fun e => h1 (List.mem_map.2 ⟨x, hx, e⟩)
      have : (x.1 == y.1) = false := by simpa using this
      rw [this]
      exact ih h2 hx

/-- No flag of some lanes is enabled to trap (R95). -/
theorem fpExc_none {fpcr : Word} {fl : List (Nat × Flags)} (h : enabledFlags fpcr (allFlags fl) = 0) (b : Bool)
    (pc : DWord) : fpExc fpcr fl b pc = none := by
  have : (List.range 6).find? (fun k => (enabledFlags fpcr (allFlags fl)).getLsbD k) = none := by
    rw [h, List.find?_eq_none]; simp
  simp only [fpExc, this]

/-- A wave that meets no exception goes back as it stands. -/
theorem State.settle_calm {s : State} {w : Wave} {sw : Bool} (hs : w.stat = if sw then .switch else .run)
    (hc : sw = true → w.excs = [] ∨ w.pend ≠ []) : s.settle w = s.setWave w := by
  unfold State.settle
  cases sw with
  | false => simp only [Bool.false_eq_true, if_false] at hs; simp [hs, WStat.atSwitch]
  | true =>
    simp only [if_true] at hs
    rw [hs]
    have : (WStat.switch.atSwitch && w.pend.isEmpty && !w.excs.isEmpty) = false := by
      rcases hc rfl with h | h
      · simp [h]
      · cases hp : w.pend with
        | nil => exact absurd hp h
        | cons a t => simp
    simp [this]

theorem push?_none_of_isReg {d : Dst} (h : d.isReg = true) : d.push? = none := by
  cases d <;> simp_all [Dst.isReg, Dst.push?]

/-- An A-class instruction that meets nothing in its way: its results stand in its registers, and nothing else has
changed. -/
theorem State.finishA_spec {s : State} {sw : Bool} {w : Wave} {p : Path} {u : Use} (h : Plain s sw w p)
    (hu : Clear w u) (rs : List (Dst × Word)) (fl : List (Nat × Flags)) (hs : w.Unstreamed rs)
    (hr : ∀ x ∈ rs, x.1.isReg = true ∧ x.1.norm x.2 = x.2) (hn : (rs.map fun x => x.1).Nodup)
    (hf : enabledFlags w.fpcr (allFlags (fl.filter fun x => !w.helper.getLsbD x.1)) = 0) :
    Retires s (s.finishA w p u sw rs fl) w sw (fun d => rs.lookup d)
      (allFlags (fl.filter fun x => !w.helper.getLsbD x.1)) := by
  obtain ⟨-, hw, hread⟩ := Wave.writeAll_spec h.wf rs hr hn
  have hnull : (rs.filter fun r => r.1.push?.isNone) = rs := by
    rw [List.filter_eq_self]
    intro x hx
    simp [push?_none_of_isReg (hr x hx).1]
  have hl : ∀ (s' : State), ∀ x ∈ rs, s'.latePush w x.1 = false := by
    intro s' x hx
    simp [State.latePush, push?_none_of_isReg (hr x hx).1]
  have hlate : ∀ s' : State, (rs.filter fun r => s'.latePush w r.1) = [] := by
    intro s'
    rw [List.filter_eq_nil_iff]
    intro x hx
    simp [hl s' x hx]
  have hnot : ∀ s' : State, (rs.filter fun r => !s'.latePush w r.1) = rs := by
    intro s'
    rw [List.filter_eq_self]
    intro x hx
    simp [hl s' x hx]
  have hacc : pushAccs rs = [] := by
    unfold pushAccs
    rw [List.filterMap_eq_nil_iff]
    intro x hx
    have := (hr x hx).1
    cases hd : x.1 <;> simp_all [Dst.isReg]
  unfold State.finishA
  simp only [State.fresh, Wave.routed_eq hs, Wave.bump_eq hu, hnull, hlate, List.foldl_nil, hnot, hacc,
    List.map_nil, List.isEmpty_nil, if_true]
  generalize hv : w.writeAll rs = v at hw hread
  generalize hflags : allFlags (fl.filter fun x => !w.helper.getLsbD x.1) = F at hf
  have hvs : v.stat = .run := by rw [hw]; exact h.run
  have hcore : v.core = w.core ∧ v.slot = w.slot := by rw [hw]; exact ⟨rfl, rfl⟩
  have hat := State.wave?_at h.wave
  have hsome : State.wave? s w.core w.slot = some w := by rw [hat.1, hat.2]; exact h.wave
  have hstat : ({ v with fpsr := v.fpsr ||| F.setWidth 32 } : Wave).retire sw =
      { v with
        fpsr := v.fpsr ||| F.setWidth 32
        paths := w.pathsOn (w.differs rs)
        count := w.count + 1
        stat := if sw then .switch else .run } := by
    have hc : v.cur = w.cur := by rw [hw]
    have hcount : v.count = w.count := by rw [hw]
    have hpaths : (v.paths.map fun q => if q.made == v.cur then { q with pc := q.pc + 4 } else q) =
        w.pathsOn (w.differs rs) := by
      rw [hc, hw]
      unfold Wave.pathsOn
      cases w.differs rs with
      | false => rfl
      | true =>
        simp only [if_true, List.map_map]
        congr 1
        funext q
        simp only [Function.comp]
        by_cases hq : (q.made == w.cur) = true
        · simp only [hq, if_true, touch_made]; rfl
        · simp [hq]
    simp only [Wave.retire, Wave.modCur, Wave.modPath, hpaths, hcount, hvs]
    cases sw <;> simp
  rw [hstat]
  generalize hz : ({ v with
        fpsr := v.fpsr ||| F.setWidth 32
        paths := w.pathsOn (w.differs rs)
        count := w.count + 1
        stat := if sw then .switch else .run } : Wave) = z
  have hzc : z.core = w.core ∧ z.slot = w.slot := by subst hz; exact hcore
  have hget : (State.setWave { s with nextId := s.nextId + 1 } z).wave? z.core z.slot = some z :=
    State.wave?_setWave (s := { s with nextId := s.nextId + 1 }) hsome hzc.1 hzc.2
  have hfp : z.fpcr = w.fpcr := by subst hz; rw [hw]
  have hpc : fpExc z.fpcr (fl.filter fun x => !w.helper.getLsbD x.1) false p.pc = none :=
    fpExc_none (by rw [hfp, hflags]; exact hf) _ _
  simp only [hget, hpc]
  rw [State.settle_calm (sw := sw) (by subst hz; rfl)
      (by subst hz; intro e; rw [hw]; exact h.calm e), State.setWave_setWave _ rfl rfl]
  refine ⟨z, w.differs rs, ⟨s.nextId + 1, rfl⟩, ?_, ?_, ?_⟩
  · intro d hd
    have : z.readDst d = v.readDst d := by subst hz; cases d <;> first | rfl | simp [Dst.isReg] at hd
    rw [this, hread d hd]
  · simp only [Wave.differs, List.any_eq_true, Bool.and_eq_true, Bool.not_eq_true', bne_iff_ne, ne_eq]
    constructor
    · rintro ⟨x, hx, h1, h2⟩
      refine ⟨x.1, x.2, (hr x hx).1, h1, ?_, fun e => h2 e.symm⟩
      exact lookup_of_nodup hn hx
    · rintro ⟨d, y, -, h1, h2, h3⟩
      exact ⟨(d, y), mem_of_lookup h2, h1, fun e => h3 e.symm⟩
  · subst hz
    rw [hw]
    rfl

/-! ## Results per lane -/

theorem mem_lanesOf {m : Lanes} {l : Nat} : l ∈ lanesOf m ↔ m.getLsbD l = true := by
  simp only [lanesOf, List.mem_filter, List.mem_range, and_iff_right_iff_imp]
  exact fun h => BitVec.lt_of_getLsbD h

theorem lanesOf_nodup (m : Lanes) : (lanesOf m).Nodup := List.nodup_range.filter _

theorem Retires.congr {s t : State} {w : Wave} {sw : Bool} {new new' : Dst → Option Word} {fl : Flags}
    (h : Retires s t w sw new fl) (hn : ∀ d : Dst, d.isReg = true → new d = new' d) : Retires s t w sw new' fl := by
  obtain ⟨w', ch, h1, h2, h3, h4⟩ := h
  refine ⟨w', ch, h1, fun d hd => by rw [← hn d hd]; exact h2 d hd, ?_, h4⟩
  rw [h3]
  exact ⟨fun ⟨d, v, a, b, c, e⟩ => ⟨d, v, a, b, hn d a ▸ c, e⟩,
    fun ⟨d, v, a, b, c, e⟩ => ⟨d, v, a, b, (hn d a).symm ▸ c, e⟩⟩

theorem lookup_none {rs : List (Dst × Word)} {d : Dst} (h : ∀ x ∈ rs, x.1 ≠ d) : rs.lookup d = none := by
  rw [List.lookup_eq_none_iff]
  intro x hx
  simpa using (h x hx).symm

/-- The results of some lanes, all together: those of a lane are found with the destinations of that lane. -/
theorem lookup_lanes (ls : List Nat) (res : Nat → List (Dst × Word)) (hn : ls.Nodup)
    (hl : ∀ l, ∀ x ∈ res l, x.1.lane? = some l) (d : Dst) :
    ((ls.map res).flatten).lookup d = match d.lane? with
      | some l => if l ∈ ls then (res l).lookup d else none
      | none => none := by
  induction ls with
  | nil => cases d.lane? <;> simp
  | cons a t ih =>
    obtain ⟨ha, ht⟩ := List.nodup_cons.1 hn
    rw [List.map_cons, List.flatten_cons, List.lookup_append, ih ht]
    cases hd : d.lane? with
    | none =>
      have : (res a).lookup d = none := lookup_none fun x hx e => by
        have := hl a x hx; rw [e, hd] at this; exact absurd this (by simp)
      simp [this]
    | some l =>
      by_cases hla : l = a
      · subst hla; simp [ha]
      · have : (res a).lookup d = none := lookup_none fun x hx e => by
          have := hl a x hx; rw [e, hd] at this; exact hla (Option.some.inj this)
        simp [this, hla]

theorem nodup_lanes (ls : List Nat) (res : Nat → List (Dst × Word)) (hn : ls.Nodup)
    (hl : ∀ l, ∀ x ∈ res l, x.1.lane? = some l) (hr : ∀ l, ((res l).map fun x => x.1).Nodup) :
    (((ls.map res).flatten).map fun x => x.1).Nodup := by
  induction ls with
  | nil => simp
  | cons a t ih =>
    obtain ⟨ha, ht⟩ := List.nodup_cons.1 hn
    rw [List.map_cons, List.flatten_cons, List.map_append, List.nodup_append]
    refine ⟨hr a, ih ht, ?_⟩
    intro d hd e he hde
    obtain ⟨x, hx, rfl⟩ := List.mem_map.1 hd
    obtain ⟨y, hy, rfl⟩ := List.mem_map.1 he
    obtain ⟨l, hl', hy'⟩ := List.mem_flatten.1 hy
    obtain ⟨b, hb, rfl⟩ := List.mem_map.1 hl'
    have h1 := hl a x hx
    have h2 := hl b y hy'
    rw [hde, h2] at h1
    exact ha (Option.some.inj h1 ▸ hb)

/-- What results of a lane must be for the lemmas below: registers of that lane, each once, none a bound stream, and
predicates 0 or 1. -/
structure LaneRes (w : Wave) (l : Nat) (rs : List (Dst × Word)) : Prop where
  reg : ∀ x ∈ rs, x.1.isReg = true ∧ x.1.norm x.2 = x.2 ∧ x.1.lane? = some l
  nodup : (rs.map fun x => x.1).Nodup
  plain : w.Unstreamed rs

/-- An instruction that acts per lane and meets nothing in its way writes the results of its lanes. -/
theorem laneOp_spec {s : State} {sw : Bool} {g : BitVec 3} {u : Use} {w : Wave} {p : Path} (h : Plain s sw w p)
    (hu : Clear w u) (f : Wave → Lanes → Nat → List (Dst × Word) × Flags)
    (hr : ∀ l, l < 32 → LaneRes w l (f w (w.acting g p) l).1)
    (hf : enabledFlags w.fpcr (allFlags (((lanesOf (w.acting g p)).map fun l => (l, (f w (w.acting g p) l).2)).filter
      fun x => !w.helper.getLsbD x.1)) = 0) :
    ∃ t, laneOp s sw g u false f = .next t ∧
      Retires s t w sw (laneNew (w.acting g p) fun l => (f w (w.acting g p) l).1)
        (allFlags (((lanesOf (w.acting g p)).map fun l => (l, (f w (w.acting g p) l).2)).filter
          fun x => !w.helper.getLsbD x.1)) := by
  refine ⟨s.finishA w p u sw
    (((lanesOf (w.acting g p)).map fun l => (l, f w (w.acting g p) l)).map fun r => r.2.1).flatten
    (((lanesOf (w.acting g p)).map fun l => (l, f w (w.acting g p) l)).map fun r => (r.1, r.2.2)), ?_, ?_⟩
  · simp only [laneOp, withWave, h.wave, h.path, State.ready_clear hu h.sound, Bool.false_eq_true, if_false, Wave.acting]
  generalize hact : w.acting g p = act at *
  let res : Nat → List (Dst × Word) := fun l => if act.getLsbD l then (f w act l).1 else []
  have hlt : ∀ l, act.getLsbD l = true → l < 32 := fun l hl => BitVec.lt_of_getLsbD hl
  have hres : (((lanesOf act).map fun l => (l, f w act l)).map fun r => r.2.1) = (lanesOf act).map res := by
    rw [List.map_map]
    apply List.map_congr_left
    intro l hl
    simp only [Function.comp, res, mem_lanesOf.1 hl, if_true]
  have hfl : (((lanesOf act).map fun l => (l, f w act l)).map fun r => (r.1, r.2.2)) =
      (lanesOf act).map fun l => (l, (f w act l).2) := by
    rw [List.map_map]; rfl
  rw [hres, hfl]
  have hlane : ∀ l, ∀ x ∈ res l, x.1.lane? = some l := by
    intro l x hx
    by_cases ha : act.getLsbD l = true
    · simp only [res, ha, if_true] at hx
      exact ((hr l (hlt l ha)).reg x hx).2.2
    · simp only [res, ha, if_false, Bool.false_eq_true] at hx; simp at hx
  have hmem : ∀ x ∈ ((lanesOf act).map res).flatten, ∃ l, l < 32 ∧ x ∈ (f w act l).1 := by
    intro x hx
    obtain ⟨q, hq, hxq⟩ := List.mem_flatten.1 hx
    obtain ⟨l, hl, rfl⟩ := List.mem_map.1 hq
    simp only [res, mem_lanesOf.1 hl, if_true] at hxq
    exact ⟨l, hlt l (mem_lanesOf.1 hl), hxq⟩
  refine (State.finishA_spec h hu _ _ ?_ ?_ ?_ hf).congr ?_
  · intro x hx r k e
    obtain ⟨l, hl, hxl⟩ := hmem x hx
    exact (hr l hl).plain x hxl r k e
  · intro x hx
    obtain ⟨l, hl, hxl⟩ := hmem x hx
    exact ⟨((hr l hl).reg x hxl).1, ((hr l hl).reg x hxl).2.1⟩
  · apply nodup_lanes _ _ (lanesOf_nodup act) hlane
    intro l
    by_cases ha : act.getLsbD l = true
    · simp only [res, ha, if_true]; exact (hr l (hlt l ha)).nodup
    · simp [res, ha]
  · intro d hd
    rw [lookup_lanes _ _ (lanesOf_nodup act) hlane, laneNew]
    cases d.lane? with
    | none => rfl
    | some l =>
      by_cases ha : act.getLsbD l = true <;> simp [mem_lanesOf, res, ha]

/-! ## L-class results -/

theorem addPend_fold (checked : Bool) (rs : List (Dst × Src)) (w : Wave) :
    rs.foldl (fun w r => w.addPend checked r.1 r.2) w = w.queued checked rs 0 := by
  induction rs generalizing w with
  | nil => cases checked <;> simp [Wave.queued]
  | cons x t ih =>
    rw [List.foldl_cons, ih]
    have hx : (!x.1.isNull || x.2.isHeld) = !(x.1.isNull && !x.2.isHeld) := by
      cases x.1.isNull <;> cases x.2.isHeld <;> rfl
    by_cases hd : (x.1.isNull && !x.2.isHeld) = true
    · have : (!x.1.isNull || x.2.isHeld) = false := by rw [hx, hd]; rfl
      simp only [Wave.addPend, hd, if_true, Wave.queued, List.filter_cons, this, Bool.false_eq_true, if_false]
    · have hd' : (x.1.isNull && !x.2.isHeld) = false := by simpa using hd
      have : (!x.1.isNull || x.2.isHeld) = true := by rw [hx, hd']; rfl
      simp only [Wave.addPend, hd', Wave.queued, List.filter_cons, this, Bool.false_eq_true, if_false, if_true]
      cases checked <;> simp

/-- An L-class instruction that meets nothing in its way: its results are outstanding, and nothing else has changed. -/
theorem State.finishL_spec {s : State} {sw : Bool} {w : Wave} {p : Path} {u : Use} (h : Plain s sw w p)
    (hu : Clear w u) (rs : List (Dst × Src)) (fl : List (Nat × Flags)) (hs : w.Unstreamed rs)
    (hf : enabledFlags w.fpcr (allFlags (fl.filter fun x => !w.helper.getLsbD x.1)) = 0) :
    Posts s (s.finishL w p u sw rs fl) w sw rs (allFlags (fl.filter fun x => !w.helper.getLsbD x.1)) := by
  unfold State.finishL
  simp only [State.fresh, Wave.routed_eq hs, Wave.bump_eq hu, addPend_fold]
  generalize hflags : allFlags (fl.filter fun x => !w.helper.getLsbD x.1) = F at hf
  have hq : (if (F == 0) = true then w.queued (s.checkedOf w) rs 0
      else (w.queued (s.checkedOf w) rs 0).addPend false .fpsr (.val (F.setWidth 32))) =
      w.queued (s.checkedOf w) rs F := by
    cases hF : F == 0 with
    | true => simp [Wave.queued, beq_iff_eq.1 hF]
    | false =>
      simp only [Wave.queued, Wave.addPend, Dst.isNull, hF, Bool.false_eq_true, if_false, Bool.false_and,
        beq_self_eq_true, if_true, List.append_nil]
  rw [hq]
  have hpc : fpExc (w.queued (s.checkedOf w) rs F).fpcr (fl.filter fun x => !w.helper.getLsbD x.1) true p.pc = none :=
    fpExc_none (by rw [hflags]; exact hf) _ _
  simp only [hpc]
  have hret : (w.queued (s.checkedOf w) rs F).retire sw =
      { w.queued (s.checkedOf w) rs F with
        paths := w.pathsOn false, count := w.count + 1, stat := if sw then .switch else .run } := by
    have hst : (w.queued (s.checkedOf w) rs F).stat = .run := h.run
    simp only [Wave.retire, Wave.modCur, Wave.modPath, hst]
    cases sw <;> simp [Wave.queued, Wave.pathsOn]
  rw [hret, State.settle_calm (sw := sw) rfl ?_]
  · exact ⟨s.nextId + 1, rfl⟩
  · intro e
    rcases h.calm e with h1 | h1
    · exact .inl h1
    · right
      simp only [Wave.queued]
      intro e2
      rw [List.append_eq_nil_iff, List.append_eq_nil_iff] at e2
      exact h1 e2.1.1

/-- The results of an L-class instruction in the lanes of a mask, as they become outstanding. -/
theorem laneOp_posts {s : State} {sw : Bool} {g : BitVec 3} {u : Use} {w : Wave} {p : Path} (h : Plain s sw w p)
    (hu : Clear w u) (f : Wave → Lanes → Nat → List (Dst × Word) × Flags)
    (hr : ∀ l, l < 32 → w.Unstreamed (f w (w.acting g p) l).1)
    (hf : enabledFlags w.fpcr (allFlags (((lanesOf (w.acting g p)).map fun l => (l, (f w (w.acting g p) l).2)).filter
      fun x => !w.helper.getLsbD x.1)) = 0) :
    ∃ t, laneOp s sw g u true f = .next t ∧
      Posts s t w sw
        (((lanesOf (w.acting g p)).map fun l => (f w (w.acting g p) l).1).flatten.map fun x => (x.1, Src.val x.2))
        (allFlags (((lanesOf (w.acting g p)).map fun l => (l, (f w (w.acting g p) l).2)).filter
          fun x => !w.helper.getLsbD x.1)) := by
  refine ⟨s.finishL w p u sw
    ((((lanesOf (w.acting g p)).map fun l => (l, f w (w.acting g p) l)).map fun r => r.2.1).flatten.map
      fun x => (x.1, Src.val x.2))
    (((lanesOf (w.acting g p)).map fun l => (l, f w (w.acting g p) l)).map fun r => (r.1, r.2.2)), ?_, ?_⟩
  · simp only [laneOp, withWave, h.wave, h.path, State.ready_clear hu h.sound, if_true, Wave.acting]
  · generalize hact : w.acting g p = act at *
    have h1 : (((lanesOf act).map fun l => (l, f w act l)).map fun r => r.2.1) =
        (lanesOf act).map fun l => (f w act l).1 := by rw [List.map_map]; rfl
    have h2 : (((lanesOf act).map fun l => (l, f w act l)).map fun r => (r.1, r.2.2)) =
        (lanesOf act).map fun l => (l, (f w act l).2) := by rw [List.map_map]; rfl
    rw [h1, h2]
    refine State.finishL_spec h hu _ _ ?_ hf
    intro x hx r k e
    obtain ⟨y, hy, rfl⟩ := List.mem_map.1 hx
    obtain ⟨q, hq, hyq⟩ := List.mem_flatten.1 hy
    obtain ⟨l, hl, rfl⟩ := List.mem_map.1 hq
    exact hr l (BitVec.lt_of_getLsbD (mem_lanesOf.1 hl)) y hyq r k e

/-! ## Once per wave -/

/-- An instruction that acts once per wave and meets nothing in its way: it acts in its lane, or only goes on. -/
theorem waveOp_spec {s : State} {sw : Bool} {g : BitVec 3} {srcs dsts wsrcs wdsts : List (Reg × Nat)}
    {ps pds : List (BitVec 3)} {w : Wave} {p : Path} (h : Plain s sw w p)
    (hu : Clear w (waveUse w g srcs dsts wsrcs wdsts ps pds))
    (f : State → Wave → Wave → Path → Use → Nat → Lanes → State) :
    waveOp s sw g srcs dsts wsrcs wdsts ps pds f = .next (match w.actsIn g (w.lanesOfPath p) with
      | none => s.passBy w (waveUse w g srcs dsts wsrcs wdsts ps pds) sw
      | some l => f s w w p (waveUse w g srcs dsts wsrcs wdsts ps pds) l (w.lanesOfPath p)) := by
  simp only [waveOp, withWave, h.wave, h.path, State.ready_clear hu h.sound] <;>
    cases w.actsIn g (w.lanesOfPath p) <;> rfl

theorem State.settle_retire {s : State} {sw : Bool} {w v : Wave} {p : Path} (h : Plain s sw w p)
    (hv : v.stat = w.stat) (he : v.excs = w.excs) (hp : v.pend ≠ [] ∨ v.pend = w.pend) :
    s.settle (v.retire sw) = s.setWave (v.retire sw) := by
  apply State.settle_calm (sw := sw)
  · simp only [Wave.retire, Wave.modCur, Wave.modPath, hv, h.run]
    cases sw <;> simp
  · intro e
    simp only [Wave.retire, Wave.modCur, Wave.modPath, he]
    rcases hp with hp | hp
    · exact .inr hp
    · rw [hp]; exact h.calm e

theorem Wave.retire_run {w : Wave} (h : w.stat = .run) (sw : Bool) :
    w.retire sw = w.gone sw false := by
  simp only [Wave.retire, Wave.modCur, Wave.modPath, h, Wave.gone, Wave.pathsOn]
  cases sw <;> simp

/-- An instruction that has no effect but its place in the run. -/
theorem State.passBy_spec {s : State} {sw : Bool} {w : Wave} {p : Path} {u : Use} (h : Plain s sw w p)
    (hu : Clear w u) : Retires s (s.passBy w u sw) w sw (fun _ => none) 0 := by
  unfold State.passBy
  rw [Wave.bump_eq hu, State.settle_retire h rfl rfl (.inr rfl), Wave.retire_run h.run]
  refine ⟨w.gone sw false, false, ⟨s.nextId, rfl⟩, ?_, by simp, ?_⟩
  · intro d hd
    have : (w.gone sw false).readDst d = w.readDst d := by cases d <;> rfl
    simp [this]
  · simp [Wave.gone]

/-- An A-class instruction that acts once per wave and meets nothing in its way. -/
theorem waveResult_spec {s : State} {sw : Bool} {g : BitVec 3} {srcs dsts wsrcs wdsts : List (Reg × Nat)}
    {ps pds : List (BitVec 3)} {w : Wave} {p : Path} (h : Plain s sw w p)
    (hu : Clear w (waveUse w g srcs dsts wsrcs wdsts ps pds)) (f : Wave → Nat → Lanes → List (Dst × Word))
    (hr : ∀ l, l < 32 → let rs := f w l (w.lanesOfPath p)
      w.Unstreamed rs ∧ (∀ x ∈ rs, x.1.isReg = true ∧ x.1.norm x.2 = x.2) ∧ (rs.map fun x => x.1).Nodup) :
    ∃ t, waveResult s sw g srcs dsts wsrcs wdsts ps pds f = .next t ∧
      Retires s t w sw (fun d => match w.actsIn g (w.lanesOfPath p) with
        | none => none
        | some l => (f w l (w.lanesOfPath p)).lookup d) 0 := by
  refine ⟨_, waveOp_spec h hu _, ?_⟩
  cases ha : w.actsIn g (w.lanesOfPath p) with
  | none => exact State.passBy_spec h hu
  | some l =>
    have hl : l < 32 := by
      simp only [Wave.actsIn] at ha
      split at ha
      · rename_i k hk
        split at ha
        · cases ha
          have := List.mem_of_find?_eq_some hk
          exact List.mem_range.1 this
        · simp at ha
      · simp at ha
    obtain ⟨h1, h2, h3⟩ := hr l hl
    exact State.finishA_spec h hu _ [] h1 h2 h3 (by simp [allFlags, enabledFlags])

/-! ## Destinations that are no bound stream -/

theorem Clear.dst {w : Wave} {u : Use} (h : Clear w u) {r : Reg × Nat} (hr : r ∈ u.dsts) :
    ∀ e ∈ w.streams, ¬(r.1.toNat ≤ 60 + e.1 ∧ 60 + e.1 < r.1.toNat + r.2) := by
  intro e he
  have := h.streams e he r (List.mem_append_right _ hr)
  rw [Bool.eq_false_iff] at this
  simp only [covers, ne_eq, Bool.and_eq_true, Nat.ble_eq, Nat.blt_eq] at this
  exact this

/-- A single destination. -/
theorem Clear.dst1 {w : Wave} {u : Use} (h : Clear w u) {d : Reg} (hd : (d, 1) ∈ u.dsts) :
    ∀ e ∈ w.streams, d.toNat ≠ 60 + e.1 := by
  intro e he
  have := h.dst hd e he
  simp only at this
  omega

/-- The second register of a pair. -/
theorem Clear.dst2 {w : Wave} {u : Use} (h : Clear w u) {d : Reg} (hd : (d, 2) ∈ u.dsts) :
    ∀ e ∈ w.streams, d.toNat ≠ 60 + e.1 ∧ (d + 1).toNat ≠ 60 + e.1 := by
  intro e he
  have := h.dst hd e he
  simp only at this
  have h1 : (d + 1).toNat = (d.toNat + 1) % 64 := by simp [BitVec.toNat_add]
  omega

/-- The result of a lane in one g register. -/
theorem LaneRes.g1 {w : Wave} {l : Nat} (hl : l < 32) {d : Reg} (hd : ∀ e ∈ w.streams, d.toNat ≠ 60 + e.1) (v : Word) :
    LaneRes w l [(.g d l, v)] := by
  refine ⟨?_, by simp, ?_⟩
  · intro x hx
    simp only [List.mem_singleton] at hx; subst hx
    exact ⟨by simpa [Dst.isReg] using hl, rfl, rfl⟩
  · intro x hx r k e
    simp only [List.mem_singleton] at hx; subst hx
    cases e
    exact hd

/-- The result of a lane in a pair of g registers. -/
theorem LaneRes.pair {w : Wave} {l : Nat} (hl : l < 32) {d : Reg}
    (hd : ∀ e ∈ w.streams, d.toNat ≠ 60 + e.1 ∧ (d + 1).toNat ≠ 60 + e.1) (v : DWord) :
    LaneRes w l (pairOf d l v) := by
  refine ⟨?_, ?_, ?_⟩
  · intro x hx
    simp only [pairOf, List.mem_cons, List.not_mem_nil, or_false] at hx
    rcases hx with rfl | rfl <;> exact ⟨by simpa [Dst.isReg] using hl, rfl, rfl⟩
  · simp [pairOf]
  · intro x hx r k e
    simp only [pairOf, List.mem_cons, List.not_mem_nil, or_false] at hx
    rcases hx with rfl | rfl <;> cases e
    · exact fun e he => (hd e he).1
    · exact fun e he => (hd e he).2

/-- The result of a lane in a predicate. -/
theorem LaneRes.p1 {w : Wave} {l : Nat} (hl : l < 32) (d : BitVec 3) (b : Bool) :
    LaneRes w l [(.p d l, if b then 1 else 0)] := by
  refine ⟨?_, by simp, ?_⟩
  · intro x hx
    simp only [List.mem_singleton] at hx; subst hx
    exact ⟨by simpa [Dst.isReg] using hl, by cases b <;> rfl, rfl⟩
  · intro x hx r k e
    simp only [List.mem_singleton] at hx; subst hx
    cases e

end Sys2Proof.Machine
end

