-- ==== Sys2Proof/Laws/Shapes.lean ====
section
/-! SUPPORT. The shapes of the instructions that act per lane or once per wave: one lemma for each shared form. -/

namespace Sys2Proof.Machine

/-- A function of lanes that is A-class, with the conditions on its results. -/
theorem laneOp_writes {i : Instr} {c : Ctl} {u : Use} {f : Wave → Lanes → Nat → List (Dst × Word) × Flags}
    (hi : ∀ s, exec i s = laneOp s c.s c.p u false f)
    (hr : ∀ w act l, Clear w u → l < 32 → LaneRes w l (f w act l).1) : WritesPerLane i c u f := by
  intro s w p hp hu hf
  rw [hi]
  exact laneOp_spec hp hu f (fun l hl => hr w _ l hu hl) hf

/-- A lane writes one g register. -/
theorem laneG_writes {i : Instr} {c : Ctl} {d : Reg} {srcs : List (Reg × Nat)} {f : Wave → Nat → Word}
    (hi : ∀ s, exec i s = laneG c d srcs f s) :
    WritesPerLane i c (laneUse c.p srcs [(d, 1)] [] []) fun w _ l => ([(.g d l, f w l)], 0) :=
  laneOp_writes hi fun _ _ _ hu hl => LaneRes.g1 hl (hu.dst1 (List.mem_singleton.2 rfl)) _

/-- A lane writes a pair. -/
theorem laneG2_writes {i : Instr} {c : Ctl} {d : Reg} {srcs : List (Reg × Nat)} {f : Wave → Nat → DWord}
    (hi : ∀ s, exec i s = laneG2 c d srcs f s) :
    WritesPerLane i c (laneUse c.p srcs [(d, 2)] [] []) fun w _ l => (pairOf d l (f w l), 0) :=
  laneOp_writes hi fun _ _ _ hu hl => LaneRes.pair hl (hu.dst2 (List.mem_singleton.2 rfl)) _

/-- A lane writes a predicate. -/
theorem laneP_writes {i : Instr} {c : Ctl} {pd : BitVec 3} {srcs : List (Reg × Nat)} {ps : List (BitVec 3)}
    {f : Wave → Nat → Bool} (hi : ∀ s, exec i s = laneP c pd srcs ps f s) :
    WritesPerLane i c (laneUse c.p srcs [] ps [pd]) fun w _ l => ([(.p pd l, if f w l then 1 else 0)], 0) :=
  laneOp_writes hi fun _ _ _ _ hl => LaneRes.p1 hl _ _

/-- The shape of an instruction depends on the values of its results alone. -/
theorem WritesPerLane.congr {i : Instr} {c : Ctl} {u : Use}
    {f g : Wave → Lanes → Nat → List (Dst × Word) × Flags} (h : WritesPerLane i c u f)
    (e : ∀ w act l, f w act l = g w act l) : WritesPerLane i c u g := by
  have : f = g := funext fun w => funext fun act => funext fun l => e w act l
  exact this ▸ h

/-- A function of two g registers. -/
theorem alu_writes {i : Instr} {c : Ctl} {d a b : Reg} {f g : Word → Word → Word}
    (hi : ∀ s, exec i s = alu c d a b f s) (e : ∀ x y, f x y = g x y) :
    WritesPerLane i c (laneUse c.p [(a, 1), (b, 1)] [(d, 1)] [] [])
      fun w _ l => ([(.g d l, g (w.readG a l) (w.readG b l))], 0) :=
  (laneG_writes hi).congr fun w _ l => by rw [e]

/-- A function of one g register. -/
theorem alu1_writes {i : Instr} {c : Ctl} {d a : Reg} {f g : Word → Word}
    (hi : ∀ s, exec i s = alu1 c d a f s) (e : ∀ x, f x = g x) :
    WritesPerLane i c (laneUse c.p [(a, 1)] [(d, 1)] [] []) fun w _ l => ([(.g d l, g (w.readG a l))], 0) :=
  (laneG_writes hi).congr fun w _ l => by rw [e]

/-- A function of two w registers. -/
theorem walu_writes {i : Instr} {c : Ctl} {d a b : Reg} {f g : Word → Word → Word}
    (hi : ∀ s, exec i s = walu c d a b f s) (e : ∀ x y, f x y = g x y) :
    WritesPerWave i c [] [] [(a, 1), (b, 1)] [(d, 1)] [] [] fun w _ _ => [(.w d, g (w.readW a) (w.readW b))] := by
  intro s w p hp hu
  rw [hi]
  have : (fun x y => g x y) = f := funext fun x => funext fun y => (e x y).symm
  change ∃ t, walu c d a b f s = _ ∧ Retires s t w c.s (fun dst => match w.actsIn c.p (w.lanesOfPath p) with
    | none => none
    | some l => [(Dst.w d, (fun x y => g x y) (w.readW a) (w.readW b))].lookup dst) 0
  rw [this]
  refine waveResult_spec hp hu _ fun l _ => ⟨?_, ?_, by simp⟩
  · intro x hx r k e
    simp only [List.mem_singleton] at hx; subst hx; cases e
  · intro x hx
    simp only [List.mem_singleton] at hx; subst hx
    exact ⟨rfl, rfl⟩

end Sys2Proof.Machine
end

