-- ==== Sys2Proof/Tests/Slice0.lean ====
section
/-! SUPPORT. Tests: words decode to their instructions, ill-formed terms are refused, single steps, and for every statement
with hypotheses a state and operands that meet them. -/

namespace Sys2Proof.Tests

set_option Elab.async false

open Sys2Proof Sys2Proof.Machine Sys2Proof.Claims

/-! ## Decoding

Each word is written out from its row of the encoding tables (Tables 2-1, 2-3 to 2-5, 16-4), field by field: S = 1 and guard p5
where the form has them, and different numbers in different operands. -/

noncomputable def wordsSystem : List (Word × Instr) :=
  [(0b1_000000_101_0000000000000000000000#32, .nop ⟨true, 5⟩),
   (0b1_000000_101_0000000000000000000001#32, .exit ⟨true, 5⟩),
   (0b1_000000_101_0000000000000000000010#32, .yield ⟨true, 5⟩),
   (0b1_000000_101_000000_100000001011_0011#32, .trap ⟨true, 5⟩ 2059),
   (0b1_000000_101_001100_000000010000_0100#32, .rdsr ⟨true, 5⟩ 12 16),
   (0b1_000000_101_001100_000000010000_0101#32, .wrsr ⟨true, 5⟩ 12 16),
   (0b1_000000_101_001100_100100_111000_0110#32, .eret ⟨true, 5⟩ 12 36 56),
   (0b1_000000_101_000000_100100_0000000111#32, .halt ⟨true, 5⟩ 36),
   (0b1_000000_101_000000_100100_111000_1000#32, .tlbw ⟨true, 5⟩ 36 56),
   (0b1_000000_101_000000_100100_111000_1001#32, .tlbi ⟨true, 5⟩ 36 56),
   (0b1_000000_101_0000000000000000001010#32, .tlbsync ⟨true, 5⟩),
   (0b1_000000_101_000000_100100_0000001011#32, .cacheL1inv ⟨true, 5⟩ 36),
   (0b1_000000_101_0000010000000000001011#32, .cacheL1all ⟨true, 5⟩),
   (0b1_000000_101_000010_100100_0000001011#32, .cacheWb ⟨true, 5⟩ 36),
   (0b1_000000_101_000011_100100_0000001011#32, .cacheWbinv ⟨true, 5⟩ 36),
   (0b1_000000_101_000100_100100_0000001011#32, .cacheLock ⟨true, 5⟩ 36),
   (0b1_000000_101_000101_100100_0000001011#32, .cacheUnlock ⟨true, 5⟩ 36),
   (0b1_000000_101_001100_100100_111000_1100#32, .svcall ⟨true, 5⟩ 12 36 56),
   (0b1_000000_101_000000_100000001011_1101#32, .bkpt ⟨true, 5⟩ 2059)]
theorem test_decode_System :
    wordsSystem.map (fun e => (decodeWave true e.1, encode e.2)) = wordsSystem.map fun e => (.ok e.2, some e.1) := by rfl

noncomputable def wordsIntegerArithmetic : List (Word × Instr) :=
  [(0b1_000001_101_001100_100100_111000_0000#32, .addR ⟨true, 5⟩ 12 36 56),
   (0b1_000001_101_001100_100100_111000_0001#32, .subR ⟨true, 5⟩ 12 36 56),
   (0b1_000001_101_001100_100100_111000_0010#32, .andR ⟨true, 5⟩ 12 36 56),
   (0b1_000001_101_001100_100100_111000_0011#32, .orR ⟨true, 5⟩ 12 36 56),
   (0b1_000001_101_001100_100100_111000_0100#32, .xorR ⟨true, 5⟩ 12 36 56),
   (0b1_000001_101_001100_100100_111000_0101#32, .andn ⟨true, 5⟩ 12 36 56),
   (0b1_000001_101_001100_100100_111000_0110#32, .shl ⟨true, 5⟩ 12 36 56),
   (0b1_000001_101_001100_100100_111000_0111#32, .shr ⟨true, 5⟩ 12 36 56),
   (0b1_000001_101_001100_100100_111000_1000#32, .sra ⟨true, 5⟩ 12 36 56),
   (0b1_000001_101_001100_100100_111000_1001#32, .minR ⟨true, 5⟩ 12 36 56),
   (0b1_000001_101_001100_100100_111000_1010#32, .maxR ⟨true, 5⟩ 12 36 56),
   (0b1_000001_101_001100_100100_111000_1011#32, .minu ⟨true, 5⟩ 12 36 56),
   (0b1_000001_101_001100_100100_111000_1100#32, .maxu ⟨true, 5⟩ 12 36 56),
   (0b1_000001_101_001100_100100_111000_1101#32, .mulR ⟨true, 5⟩ 12 36 56),
   (0b1_000001_101_001100_100100_111000_1110#32, .mulh ⟨true, 5⟩ 12 36 56),
   (0b1_000001_101_001100_100100_111000_1111#32, .mulhu ⟨true, 5⟩ 12 36 56)]
theorem test_decode_IntegerArithmetic :
    wordsIntegerArithmetic.map (fun e => (decodeWave true e.1, encode e.2)) = wordsIntegerArithmetic.map fun e => (.ok e.2, some e.1) := by rfl

noncomputable def wordsBitFunctions : List (Word × Instr) :=
  [(0b1_000010_101_001100_100100_0000000000#32, .clz ⟨true, 5⟩ 12 36),
   (0b1_000010_101_001100_100100_0000000001#32, .popc ⟨true, 5⟩ 12 36),
   (0b1_000010_101_001100_100100_0000000010#32, .brev ⟨true, 5⟩ 12 36),
   (0b1_000010_101_001100_100100_111000_0011#32, .bfx ⟨true, 5⟩ 12 36 56),
   (0b1_000010_101_001100_100100_111000_0100#32, .bfxu ⟨true, 5⟩ 12 36 56),
   (0b1_000010_101_001100_100100_111000_0101#32, .bfi ⟨true, 5⟩ 12 36 56),
   (0b1_000010_101_001100_100100_111000_0110#32, .absd ⟨true, 5⟩ 12 36 56),
   (0b1_000010_101_001100_100100_111000_0111#32, .addc ⟨true, 5⟩ 12 36 56),
   (0b1_000010_101_001100_100100_111000_1000#32, .subb ⟨true, 5⟩ 12 36 56),
   (0b1_000010_101_001100_100100_111000_1001#32, .lea ⟨true, 5⟩ 12 36 56),
   (0b1_000010_101_001100_100100_111000_1010#32, .lea2 ⟨true, 5⟩ 12 36 56),
   (0b1_000010_101_001100_100100_111000_1011#32, .lea4 ⟨true, 5⟩ 12 36 56),
   (0b1_000010_101_001100_100100_111000_1100#32, .lea8 ⟨true, 5⟩ 12 36 56)]
theorem test_decode_BitFunctions :
    wordsBitFunctions.map (fun e => (decodeWave true e.1, encode e.2)) = wordsBitFunctions.map fun e => (.ok e.2, some e.1) := by rfl

noncomputable def wordsPairs : List (Word × Instr) :=
  [(0b1_000011_101_001100_100100_111000_0000#32, .add64 ⟨true, 5⟩ 12 36 56),
   (0b1_000011_101_001100_100100_111000_0001#32, .sub64 ⟨true, 5⟩ 12 36 56),
   (0b1_000011_101_001100_100100_111000_0010#32, .shl64 ⟨true, 5⟩ 12 36 56),
   (0b1_000011_101_001100_100100_111000_0011#32, .shr64 ⟨true, 5⟩ 12 36 56),
   (0b1_000011_101_001100_100100_111000_0100#32, .sra64 ⟨true, 5⟩ 12 36 56),
   (0b1_000011_101_001100_100100_111000_0101#32, .mul32w ⟨true, 5⟩ 12 36 56),
   (0b1_000011_101_001100_100100_111000_0110#32, .minu64 ⟨true, 5⟩ 12 36 56),
   (0b1_000011_101_001100_100100_111000_0111#32, .maxu64 ⟨true, 5⟩ 12 36 56)]
theorem test_decode_Pairs :
    wordsPairs.map (fun e => (decodeWave true e.1, encode e.2)) = wordsPairs.map fun e => (.ok e.2, some e.1) := by rfl

noncomputable def wordsImmediates : List (Word × Instr) :=
  [(0b1_000100_101_001100_100100_1000000101#32, .addi ⟨true, 5⟩ 12 36 517),
   (0b1_000101_101_001100_100100_1000000101#32, .andi ⟨true, 5⟩ 12 36 517),
   (0b1_000110_101_001100_100100_1000000101#32, .ori ⟨true, 5⟩ 12 36 517),
   (0b1_000111_101_001100_100100_1000000101#32, .xori ⟨true, 5⟩ 12 36 517),
   (0b1_001000_101_001100_100100_00000_10011#32, .shli ⟨true, 5⟩ 12 36 19),
   (0b1_001000_101_001100_100100_00001_10011#32, .shri ⟨true, 5⟩ 12 36 19),
   (0b1_001000_101_001100_100100_00010_10011#32, .srai ⟨true, 5⟩ 12 36 19),
   (0b1_001000_101_001100_100100_00011_10011#32, .roli ⟨true, 5⟩ 12 36 19),
   (0b1_001001_101_001100_100100_1000000101#32, .muli ⟨true, 5⟩ 12 36 517),
   (0b1_001010_101_001100_1000000000001001#32, .movi ⟨true, 5⟩ 12 32777),
   (0b1_001011_101_001100_1000000000001001#32, .movhi ⟨true, 5⟩ 12 32777)]
theorem test_decode_Immediates :
    wordsImmediates.map (fun e => (decodeWave true e.1, encode e.2)) = wordsImmediates.map fun e => (.ok e.2, some e.1) := by rfl

noncomputable def wordsComparesPredicates : List (Word × Instr) :=
  [(0b1_001100_101_101_0100_100100_111000_010#32, .icmp ⟨true, 5⟩ 5 .gt 36 56 .or),
   (0b1_001101_101_101_0100_100100_100101_010#32, .icmpi ⟨true, 5⟩ 5 .gt 36 37 .or),
   (0b1_001110_101_000_101_000_011_000_110_0000#32, .pand ⟨true, 5⟩ 5 3 6),
   (0b1_001110_101_000_101_000_011_000_110_0001#32, .por ⟨true, 5⟩ 5 3 6),
   (0b1_001110_101_000_101_000_011_000_110_0010#32, .pxor ⟨true, 5⟩ 5 3 6),
   (0b1_001110_101_000_101_000_011_0000000011#32, .pnot ⟨true, 5⟩ 5 3),
   (0b1_001110_101_001100_000_011_0000000100#32, .p2g ⟨true, 5⟩ 12 3),
   (0b1_001110_101_000_101_100100_0000000101#32, .g2p ⟨true, 5⟩ 5 36),
   (0b1_001111_101_001100_100100_111000_0000#32, .sel true 5 12 36 56)]
theorem test_decode_ComparesPredicates :
    wordsComparesPredicates.map (fun e => (decodeWave true e.1, encode e.2)) = wordsComparesPredicates.map fun e => (.ok e.2, some e.1) := by rfl

noncomputable def wordsFloatSingle : List (Word × Instr) :=
  [(0b1_010000_101_001100_100100_111000_0000#32, .fadd ⟨true, 5⟩ 12 36 56),
   (0b1_010000_101_001100_100100_111000_0001#32, .fsub ⟨true, 5⟩ 12 36 56),
   (0b1_010000_101_001100_100100_111000_0010#32, .fmul ⟨true, 5⟩ 12 36 56),
   (0b1_010000_101_001100_100100_111000_0011#32, .fmin ⟨true, 5⟩ 12 36 56),
   (0b1_010000_101_001100_100100_111000_0100#32, .fmax ⟨true, 5⟩ 12 36 56),
   (0b1_010000_101_001100_100100_0000000101#32, .fabs ⟨true, 5⟩ 12 36),
   (0b1_010000_101_001100_100100_0000000110#32, .fneg ⟨true, 5⟩ 12 36),
   (0b1_010000_101_001100_100100_111000_0111#32, .fcopysign ⟨true, 5⟩ 12 36 56),
   (0b1_010001_101_001100_100100_111000_0000#32, .ffma ⟨true, 5⟩ 12 36 56),
   (0b1_010001_101_001100_100100_111000_0001#32, .ffms ⟨true, 5⟩ 12 36 56),
   (0b1_010001_101_001100_100100_111000_0010#32, .fnma ⟨true, 5⟩ 12 36 56),
   (0b1_010001_101_001100_100100_111000_0011#32, .fnms ⟨true, 5⟩ 12 36 56),
   (0b1_010010_101_101_0100_100100_111000_010#32, .fcmp ⟨true, 5⟩ 5 .gt 36 56 .or),
   (0b1_010011_101_001100_100100_000_011_0000#32, .fcvtFf ⟨true, 5⟩ 12 36 0 3),
   (0b1_010011_101_001100_100100_101_011_0001#32, .fcvtFi ⟨true, 5⟩ 12 36 5 3),
   (0b1_010011_101_001100_100100_101_011_0010#32, .fcvtIf ⟨true, 5⟩ 12 36 5 3),
   (0b1_010011_101_001100_100100_001_0000011#32, .fcvtFx ⟨true, 5⟩ 12 36 1),
   (0b1_010011_101_001100_100100_001_0000100#32, .fcvtXf ⟨true, 5⟩ 12 36 1),
   (0b1_010011_101_001100_100100_001_011_0101#32, .fcvtRi ⟨true, 5⟩ 12 36 1 3)]
theorem test_decode_FloatSingle :
    wordsFloatSingle.map (fun e => (decodeWave true e.1, encode e.2)) = wordsFloatSingle.map fun e => (.ok e.2, some e.1) := by rfl

noncomputable def wordsHalves : List (Word × Instr) :=
  [(0b1_010100_101_001100_100100_111000_0000#32, .hadd2 ⟨true, 5⟩ 12 36 56),
   (0b1_010100_101_001100_100100_111000_0001#32, .hsub2 ⟨true, 5⟩ 12 36 56),
   (0b1_010100_101_001100_100100_111000_0010#32, .hmul2 ⟨true, 5⟩ 12 36 56),
   (0b1_010100_101_001100_100100_111000_0011#32, .hfma2 ⟨true, 5⟩ 12 36 56),
   (0b1_010100_101_001100_100100_111000_0100#32, .hmin2 ⟨true, 5⟩ 12 36 56),
   (0b1_010100_101_001100_100100_111000_0101#32, .hmax2 ⟨true, 5⟩ 12 36 56),
   (0b1_010100_101_001100_100100_111000_1000#32, .hadd2Bf ⟨true, 5⟩ 12 36 56),
   (0b1_010100_101_001100_100100_111000_1001#32, .hsub2Bf ⟨true, 5⟩ 12 36 56),
   (0b1_010100_101_001100_100100_111000_1010#32, .hmul2Bf ⟨true, 5⟩ 12 36 56),
   (0b1_010100_101_001100_100100_111000_1011#32, .hfma2Bf ⟨true, 5⟩ 12 36 56),
   (0b1_010100_101_001100_100100_111000_1100#32, .hmin2Bf ⟨true, 5⟩ 12 36 56),
   (0b1_010100_101_001100_100100_111000_1101#32, .hmax2Bf ⟨true, 5⟩ 12 36 56)]
theorem test_decode_Halves :
    wordsHalves.map (fun e => (decodeWave true e.1, encode e.2)) = wordsHalves.map fun e => (.ok e.2, some e.1) := by rfl

noncomputable def wordsDoubles : List (Word × Instr) :=
  [(0b1_010101_101_001100_100100_111000_0000#32, .dadd ⟨true, 5⟩ 12 36 56),
   (0b1_010101_101_001100_100100_111000_0001#32, .dsub ⟨true, 5⟩ 12 36 56),
   (0b1_010101_101_001100_100100_111000_0010#32, .dmul ⟨true, 5⟩ 12 36 56),
   (0b1_010101_101_001100_100100_111000_0011#32, .dfma ⟨true, 5⟩ 12 36 56),
   (0b1_010101_101_001100_100100_111000_0100#32, .dmin ⟨true, 5⟩ 12 36 56),
   (0b1_010101_101_001100_100100_111000_0101#32, .dmax ⟨true, 5⟩ 12 36 56),
   (0b1_010101_101_100_101_100100_111000_0110#32, .dcmp ⟨true, 5⟩ 5 .gt 36 56)]
theorem test_decode_Doubles :
    wordsDoubles.map (fun e => (decodeWave true e.1, encode e.2)) = wordsDoubles.map fun e => (.ok e.2, some e.1) := by rfl

noncomputable def wordsSpecialDots : List (Word × Instr) :=
  [(0b1_010110_101_001100_100100_0000000000#32, .rcp ⟨true, 5⟩ 12 36),
   (0b1_010110_101_001100_100100_0000000001#32, .rsq ⟨true, 5⟩ 12 36),
   (0b1_010110_101_001100_100100_0000000010#32, .sqrt ⟨true, 5⟩ 12 36),
   (0b1_010110_101_001100_100100_0000000011#32, .ex2 ⟨true, 5⟩ 12 36),
   (0b1_010110_101_001100_100100_0000000100#32, .lg2 ⟨true, 5⟩ 12 36),
   (0b1_010110_101_001100_100100_0000000101#32, .sin ⟨true, 5⟩ 12 36),
   (0b1_010110_101_001100_100100_0000000110#32, .cos ⟨true, 5⟩ 12 36),
   (0b1_010110_101_001100_100100_0000000111#32, .tanh ⟨true, 5⟩ 12 36),
   (0b1_010111_101_001100_100100_111000_0000#32, .idot4 ⟨true, 5⟩ 12 36 56),
   (0b1_010111_101_001100_100100_111000_0001#32, .idot4u ⟨true, 5⟩ 12 36 56),
   (0b1_010111_101_001100_100100_111000_0010#32, .hdot2 ⟨true, 5⟩ 12 36 56),
   (0b1_010111_101_001100_100100_111000_0011#32, .bdot2 ⟨true, 5⟩ 12 36 56),
   (0b1_010111_101_001100_100100_111000_0100#32, .idot8 ⟨true, 5⟩ 12 36 56),
   (0b1_010111_101_001100_100100_111000_0101#32, .idot8u ⟨true, 5⟩ 12 36 56)]
theorem test_decode_SpecialDots :
    wordsSpecialDots.map (fun e => (decodeWave true e.1, encode e.2)) = wordsSpecialDots.map fun e => (.ok e.2, some e.1) := by rfl

noncomputable def wordsExchanges : List (Word × Instr) :=
  [(0b1_011000_101_001100_100100_0000000000#32, .qswpx ⟨true, 5⟩ 12 36),
   (0b1_011000_101_001100_100100_0000000001#32, .qswpy ⟨true, 5⟩ 12 36),
   (0b1_011000_101_001100_100100_0000000010#32, .qswpd ⟨true, 5⟩ 12 36),
   (0b1_011000_101_001100_100100_0000_10_0011#32, .qbcast ⟨true, 5⟩ 12 36 2),
   (0b1_011000_101_001100_100100_111000_0100#32, .shfli ⟨true, 5⟩ 12 36 56),
   (0b1_011000_101_001100_100100_0_10011_0101#32, .shflu ⟨true, 5⟩ 12 36 19),
   (0b1_011000_101_001100_100100_0_10011_0110#32, .shfld ⟨true, 5⟩ 12 36 19),
   (0b1_011000_101_001100_100100_0_10011_0111#32, .shflx ⟨true, 5⟩ 12 36 19)]
theorem test_decode_Exchanges :
    wordsExchanges.map (fun e => (decodeWave true e.1, encode e.2)) = wordsExchanges.map fun e => (.ok e.2, some e.1) := by rfl

noncomputable def wordsVotesStreams : List (Word × Instr) :=
  [(0b1_011001_101_000_101_000_011_0000000000#32, .voteany ⟨true, 5⟩ 5 3),
   (0b1_011001_101_000_101_000_011_0000000001#32, .voteall ⟨true, 5⟩ 5 3),
   (0b1_011001_101_001100_000_011_0000000010#32, .ballot ⟨true, 5⟩ 12 3),
   (0b1_011001_101_001100_100100_0000000011#32, .matchI ⟨true, 5⟩ 12 36),
   (0b1_011001_101_001100_100100_0000000100#32, .reduxadd ⟨true, 5⟩ 12 36),
   (0b1_011001_101_001100_100100_00000_1_0101#32, .reduxmin ⟨true, 5⟩ 12 36 true),
   (0b1_011001_101_001100_100100_00000_1_0110#32, .reduxmax ⟨true, 5⟩ 12 36 true),
   (0b1_011001_101_001100_100100_0000_10_0111#32, .fredux ⟨true, 5⟩ 12 36 .max),
   (0b1_011001_101_001100_000_011_0000001000#32, .popm ⟨true, 5⟩ 12 3),
   (0b1_011010_101_001100_0000_10_0000000000#32, .scnt ⟨true, 5⟩ 12 2),
   (0b1_011010_101_001100_0000_10_0000000001#32, .sendS ⟨true, 5⟩ 12 2),
   (0b1_011010_101_0000000000_10_0000000010#32, .srew ⟨true, 5⟩ 2),
   (0b1_011010_101_0000000000_10_100101_0011#32, .sskip ⟨true, 5⟩ 2 37)]
theorem test_decode_VotesStreams :
    wordsVotesStreams.map (fun e => (decodeWave true e.1, encode e.2)) = wordsVotesStreams.map fun e => (.ok e.2, some e.1) := by rfl

noncomputable def wordsUniform : List (Word × Instr) :=
  [(0b1_011100_101_001100_100100_111000_0000#32, .wadd ⟨true, 5⟩ 12 36 56),
   (0b1_011100_101_001100_100100_111000_0001#32, .wsub ⟨true, 5⟩ 12 36 56),
   (0b1_011100_101_001100_100100_111000_0010#32, .wand ⟨true, 5⟩ 12 36 56),
   (0b1_011100_101_001100_100100_111000_0011#32, .wor ⟨true, 5⟩ 12 36 56),
   (0b1_011100_101_001100_100100_111000_0100#32, .wxor ⟨true, 5⟩ 12 36 56),
   (0b1_011100_101_001100_100100_111000_0101#32, .wandn ⟨true, 5⟩ 12 36 56),
   (0b1_011100_101_001100_100100_111000_0110#32, .wshl ⟨true, 5⟩ 12 36 56),
   (0b1_011100_101_001100_100100_111000_0111#32, .wshr ⟨true, 5⟩ 12 36 56),
   (0b1_011100_101_001100_100100_111000_1000#32, .wsra ⟨true, 5⟩ 12 36 56),
   (0b1_011100_101_001100_100100_111000_1001#32, .wmin ⟨true, 5⟩ 12 36 56),
   (0b1_011100_101_001100_100100_111000_1010#32, .wmax ⟨true, 5⟩ 12 36 56),
   (0b1_011100_101_001100_100100_111000_1011#32, .wminu ⟨true, 5⟩ 12 36 56),
   (0b1_011100_101_001100_100100_111000_1100#32, .wmaxu ⟨true, 5⟩ 12 36 56),
   (0b1_011100_101_001100_100100_111000_1101#32, .wmul ⟨true, 5⟩ 12 36 56),
   (0b1_011100_101_001100_100100_111000_1110#32, .wmulh ⟨true, 5⟩ 12 36 56),
   (0b1_011100_101_001100_100100_111000_1111#32, .wmulhu ⟨true, 5⟩ 12 36 56),
   (0b1_011101_101_001100_100100_1000000101#32, .waddi ⟨true, 5⟩ 12 36 517),
   (0b1_011110_101_001100_100100_0000000000#32, .g2w ⟨true, 5⟩ 12 36),
   (0b1_011110_101_001100_100100_0000000001#32, .w2g ⟨true, 5⟩ 12 36),
   (0b1_011110_101_100_101_100100_111000_0010#32, .wcmp ⟨true, 5⟩ 5 .ltu 36 56),
   (0b1_011111_101_001100_1000000000001001#32, .wmovi ⟨true, 5⟩ 12 32777)]
theorem test_decode_Uniform :
    wordsUniform.map (fun e => (decodeWave true e.1, encode e.2)) = wordsUniform.map fun e => (.ok e.2, some e.1) := by rfl

noncomputable def wordsLoadsStores : List (Word × Instr) :=
  [(0b1_100000_101_001100_100100_100_1000011#32, .ldg ⟨true, 5⟩ 12 36 .w 67),
   (0b1_100001_101_001100_100100_100_1000011#32, .stg ⟨true, 5⟩ 12 36 .w 67),
   (0b1_100010_101_001100_100100_100_1000011#32, .ldl ⟨true, 5⟩ 12 36 .w 67),
   (0b1_100011_101_001100_100100_100_1000011#32, .stl ⟨true, 5⟩ 12 36 .w 67),
   (0b1_100100_101_001100_100100_0000_01_0011#32, .ldacq ⟨true, 5⟩ 12 36 true .device),
   (0b1_100101_101_0000_01_100100_111000_0011#32, .strel ⟨true, 5⟩ 36 56 true .device),
   (0b1_100110_101_001100_100100_100_1000011#32, .ldwg ⟨true, 5⟩ 12 36 .w 67),
   (0b1_100111_101_001100_100100_100_1000011#32, .ldwl ⟨true, 5⟩ 12 36 .w 67)]
theorem test_decode_LoadsStores :
    wordsLoadsStores.map (fun e => (decodeWave true e.1, encode e.2)) = wordsLoadsStores.map fun e => (.ok e.2, some e.1) := by rfl

noncomputable def wordsAtom : List (Word × Instr) :=
  [(0b1_101000_101_001100_100100_111000_0000#32, .atomAddSi32 ⟨true, 5⟩ 12 36 56),
   (0b1_101000_101_001100_100100_111000_0001#32, .atomAddF32 ⟨true, 5⟩ 12 36 56),
   (0b1_101000_101_001100_100100_111000_0010#32, .atomAddBf16x2 ⟨true, 5⟩ 12 36 56),
   (0b1_101000_101_001100_100100_111000_0011#32, .atomAddF16x2 ⟨true, 5⟩ 12 36 56),
   (0b1_101000_101_001100_100100_111000_0100#32, .atomMinSi32 ⟨true, 5⟩ 12 36 56),
   (0b1_101000_101_001100_100100_111000_0101#32, .atomMaxSi32 ⟨true, 5⟩ 12 36 56),
   (0b1_101000_101_001100_100100_111000_0110#32, .atomMinUi32 ⟨true, 5⟩ 12 36 56),
   (0b1_101000_101_001100_100100_111000_0111#32, .atomMaxUi32 ⟨true, 5⟩ 12 36 56),
   (0b1_101000_101_001100_100100_111000_1000#32, .atomMinF32 ⟨true, 5⟩ 12 36 56),
   (0b1_101000_101_001100_100100_111000_1001#32, .atomMaxF32 ⟨true, 5⟩ 12 36 56),
   (0b1_101000_101_001100_100100_111000_1010#32, .atomAnd ⟨true, 5⟩ 12 36 56),
   (0b1_101000_101_001100_100100_111000_1011#32, .atomOr ⟨true, 5⟩ 12 36 56),
   (0b1_101000_101_001100_100100_111000_1100#32, .atomXor ⟨true, 5⟩ 12 36 56),
   (0b1_101000_101_001100_100100_111000_1101#32, .atomExch ⟨true, 5⟩ 12 36 56),
   (0b1_101000_101_001100_100100_111000_1110#32, .atomCas ⟨true, 5⟩ 12 36 56),
   (0b1_101000_101_001100_100100_111000_1111#32, .atomAddSi64 ⟨true, 5⟩ 12 36 56)]
theorem test_decode_Atom :
    wordsAtom.map (fun e => (decodeWave true e.1, encode e.2)) = wordsAtom.map fun e => (.ok e.2, some e.1) := by rfl

noncomputable def wordsAtoma : List (Word × Instr) :=
  [(0b1_101001_101_001100_100100_111000_0000#32, .atomaAddSi32 ⟨true, 5⟩ 12 36 56),
   (0b1_101001_101_001100_100100_111000_0001#32, .atomaAddF32 ⟨true, 5⟩ 12 36 56),
   (0b1_101001_101_001100_100100_111000_0010#32, .atomaAddBf16x2 ⟨true, 5⟩ 12 36 56),
   (0b1_101001_101_001100_100100_111000_0011#32, .atomaAddF16x2 ⟨true, 5⟩ 12 36 56),
   (0b1_101001_101_001100_100100_111000_0100#32, .atomaMinSi32 ⟨true, 5⟩ 12 36 56),
   (0b1_101001_101_001100_100100_111000_0101#32, .atomaMaxSi32 ⟨true, 5⟩ 12 36 56),
   (0b1_101001_101_001100_100100_111000_0110#32, .atomaMinUi32 ⟨true, 5⟩ 12 36 56),
   (0b1_101001_101_001100_100100_111000_0111#32, .atomaMaxUi32 ⟨true, 5⟩ 12 36 56),
   (0b1_101001_101_001100_100100_111000_1000#32, .atomaMinF32 ⟨true, 5⟩ 12 36 56),
   (0b1_101001_101_001100_100100_111000_1001#32, .atomaMaxF32 ⟨true, 5⟩ 12 36 56),
   (0b1_101001_101_001100_100100_111000_1010#32, .atomaAnd ⟨true, 5⟩ 12 36 56),
   (0b1_101001_101_001100_100100_111000_1011#32, .atomaOr ⟨true, 5⟩ 12 36 56),
   (0b1_101001_101_001100_100100_111000_1100#32, .atomaXor ⟨true, 5⟩ 12 36 56),
   (0b1_101001_101_001100_100100_111000_1101#32, .atomaExch ⟨true, 5⟩ 12 36 56),
   (0b1_101001_101_001100_100100_111000_1110#32, .atomaCas ⟨true, 5⟩ 12 36 56),
   (0b1_101001_101_001100_100100_111000_1111#32, .atomaAddSi64 ⟨true, 5⟩ 12 36 56)]
theorem test_decode_Atoma :
    wordsAtoma.map (fun e => (decodeWave true e.1, encode e.2)) = wordsAtoma.map fun e => (.ok e.2, some e.1) := by rfl

noncomputable def wordsRed : List (Word × Instr) :=
  [(0b1_101010_101_000000_100100_111000_0000#32, .redAddSi32 ⟨true, 5⟩ 36 56),
   (0b1_101010_101_000000_100100_111000_0001#32, .redAddF32 ⟨true, 5⟩ 36 56),
   (0b1_101010_101_000000_100100_111000_0010#32, .redAddBf16x2 ⟨true, 5⟩ 36 56),
   (0b1_101010_101_000000_100100_111000_0011#32, .redAddF16x2 ⟨true, 5⟩ 36 56),
   (0b1_101010_101_000000_100100_111000_0100#32, .redMinSi32 ⟨true, 5⟩ 36 56),
   (0b1_101010_101_000000_100100_111000_0101#32, .redMaxSi32 ⟨true, 5⟩ 36 56),
   (0b1_101010_101_000000_100100_111000_0110#32, .redMinUi32 ⟨true, 5⟩ 36 56),
   (0b1_101010_101_000000_100100_111000_0111#32, .redMaxUi32 ⟨true, 5⟩ 36 56),
   (0b1_101010_101_000000_100100_111000_1000#32, .redMinF32 ⟨true, 5⟩ 36 56),
   (0b1_101010_101_000000_100100_111000_1001#32, .redMaxF32 ⟨true, 5⟩ 36 56),
   (0b1_101010_101_000000_100100_111000_1010#32, .redAnd ⟨true, 5⟩ 36 56),
   (0b1_101010_101_000000_100100_111000_1011#32, .redOr ⟨true, 5⟩ 36 56),
   (0b1_101010_101_000000_100100_111000_1100#32, .redXor ⟨true, 5⟩ 36 56),
   (0b1_101010_101_000000_100100_111000_1101#32, .redExch ⟨true, 5⟩ 36 56),
   (0b1_101010_101_001100_100100_111000_1110#32, .redCas ⟨true, 5⟩ 12 36 56),
   (0b1_101010_101_000000_100100_111000_1111#32, .redAddSi64 ⟨true, 5⟩ 36 56)]
theorem test_decode_Red :
    wordsRed.map (fun e => (decodeWave true e.1, encode e.2)) = wordsRed.map fun e => (.ok e.2, some e.1) := by rfl

noncomputable def wordsAtomlOred : List (Word × Instr) :=
  [(0b1_101100_101_001100_100100_111000_0000#32, .atomlAddSi32 ⟨true, 5⟩ 12 36 56),
   (0b1_101100_101_001100_100100_111000_0001#32, .atomlAddF32 ⟨true, 5⟩ 12 36 56),
   (0b1_101100_101_001100_100100_111000_0010#32, .atomlAddBf16x2 ⟨true, 5⟩ 12 36 56),
   (0b1_101100_101_001100_100100_111000_0011#32, .atomlAddF16x2 ⟨true, 5⟩ 12 36 56),
   (0b1_101100_101_001100_100100_111000_0100#32, .atomlMinSi32 ⟨true, 5⟩ 12 36 56),
   (0b1_101100_101_001100_100100_111000_0101#32, .atomlMaxSi32 ⟨true, 5⟩ 12 36 56),
   (0b1_101100_101_001100_100100_111000_0110#32, .atomlMinUi32 ⟨true, 5⟩ 12 36 56),
   (0b1_101100_101_001100_100100_111000_0111#32, .atomlMaxUi32 ⟨true, 5⟩ 12 36 56),
   (0b1_101100_101_001100_100100_111000_1000#32, .atomlMinF32 ⟨true, 5⟩ 12 36 56),
   (0b1_101100_101_001100_100100_111000_1001#32, .atomlMaxF32 ⟨true, 5⟩ 12 36 56),
   (0b1_101100_101_001100_100100_111000_1010#32, .atomlAnd ⟨true, 5⟩ 12 36 56),
   (0b1_101100_101_001100_100100_111000_1011#32, .atomlOr ⟨true, 5⟩ 12 36 56),
   (0b1_101100_101_001100_100100_111000_1100#32, .atomlXor ⟨true, 5⟩ 12 36 56),
   (0b1_101100_101_001100_100100_111000_1101#32, .atomlExch ⟨true, 5⟩ 12 36 56),
   (0b1_101100_101_001100_100100_111000_1110#32, .atomlCas ⟨true, 5⟩ 12 36 56),
   (0b1_101011_101_001100_100100_111000_0000#32, .oredF32 ⟨true, 5⟩ 12 36 56),
   (0b1_101011_101_001100_100100_111000_0001#32, .oredBf16x2 ⟨true, 5⟩ 12 36 56),
   (0b1_101011_101_001100_100100_111000_0010#32, .oredF64 ⟨true, 5⟩ 12 36 56)]
theorem test_decode_AtomlOred :
    wordsAtomlOred.map (fun e => (decodeWave true e.1, encode e.2)) = wordsAtomlOred.map fun e => (.ok e.2, some e.1) := by rfl

noncomputable def wordsFences : List (Word × Instr) :=
  [(0b1_101101_101_000000000000000000_0011#32, .fenceFull ⟨true, 5⟩ .device),
   (0b1_101101_101_000001000000000000_0011#32, .fenceAcq ⟨true, 5⟩ .device),
   (0b1_101101_101_000010000000000000_0011#32, .fenceRel ⟨true, 5⟩ .device),
   (0b1_101110_101_000000000000_000011_0000#32, .tfence ⟨true, 5⟩ .device),
   (0b1_101110_101_000000000000_000011_0001#32, .cfence ⟨true, 5⟩ .device),
   (0b1_101111_101_0000000000000000000000#32, .drainCpl ⟨true, 5⟩),
   (0b1_101111_101_0000000000000000000001#32, .drainCpg ⟨true, 5⟩),
   (0b1_101111_101_0000000000000000000010#32, .drainSlice ⟨true, 5⟩),
   (0b1_101111_101_0000000000000000000011#32, .drainMsg ⟨true, 5⟩),
   (0b1_101111_101_0000000000000000000100#32, .drainMx ⟨true, 5⟩),
   (0b1_101111_101_0000000000000000000101#32, .drainTrav ⟨true, 5⟩),
   (0b1_101111_101_0000000000000000000110#32, .drainWalk ⟨true, 5⟩),
   (0b1_101111_101_0000000000000000000111#32, .drainAll ⟨true, 5⟩)]
theorem test_decode_Fences :
    wordsFences.map (fun e => (decodeWave true e.1, encode e.2)) = wordsFences.map fun e => (.ok e.2, some e.1) := by rfl

noncomputable def wordsControl : List (Word × Instr) :=
  [(0b1_110000_101_1000000000000000000101#32, .bra ⟨true, 5⟩ 2097157),
   (0b1_110001_111_1000000000000000000101#32, .jpt true 2097157),
   (0b1_110010_101_1000000000000000000101#32, .call ⟨true, 5⟩ 2097157),
   (0b1_110011_101_000000_100100_0000000000#32, .brx ⟨true, 5⟩ 36),
   (0b1_110011_101_001100_100100_0000000001#32, .callx ⟨true, 5⟩ 12 36),
   (0b1_110011_101_000000_100100_0000000010#32, .ret ⟨true, 5⟩ 36),
   (0b1_110101_101_001011_0000000000000000#32, .barSync ⟨true, 5⟩ 11),
   (0b1_110101_101_001011_0000000000000001#32, .barArrive ⟨true, 5⟩ 11),
   (0b1_110101_101_001011_0000000000000010#32, .barWait ⟨true, 5⟩ 11),
   (0b1_110101_101_001011_000000_111000_0011#32, .barxExpect ⟨true, 5⟩ 11 56),
   (0b1_110101_101_001011_0000000000000100#32, .barxWait ⟨true, 5⟩ 11),
   (0b1_110101_101_000000_100100_0000001000#32, .joinw ⟨true, 5⟩ 36)]
theorem test_decode_Control :
    wordsControl.map (fun e => (decodeWave true e.1, encode e.2)) = wordsControl.map fun e => (.ok e.2, some e.1) := by rfl

noncomputable def wordsCopy : List (Word × Instr) :=
  [(0b1_111000_0000000_001100_000000_111000#32, .cpLd true 12 56),
   (0b1_111000_0000001_001100_000000_111000#32, .cpSt true 12 56),
   (0b1_111000_0000010_001100_000000_111000#32, .cpLdz true 12 56),
   (0b1_111000_0000011_001100_000000_111000#32, .cpFill true 12 56),
   (0b1_111000_0000100_001100_000000_111000#32, .cpCpy true 12 56),
   (0b1_111000_0000101_001100_000000_111000#32, .cpSlw true 12 56),
   (0b1_111000_0001000_001100_000000_111000#32, .cpGather true 12 56),
   (0b1_111000_0001001_001100_000000_111000#32, .cpScatter true 12 56),
   (0b1_111000_0010000_001100_000000_111000#32, .cpStatus true 12 56)]
theorem test_decode_Copy :
    wordsCopy.map (fun e => (decodeWave true e.1, encode e.2)) = wordsCopy.map fun e => (.ok e.2, some e.1) := by rfl

noncomputable def wordsMatrix : List (Word × Instr) :=
  [(0b1_111001_0000000_001100_000000000000#32, .mxCtx true 12),
   (0b1_111001_0000001_001100_100100_111000#32, .mxLda true 12 36 56),
   (0b1_111001_0000010_001100_100100_000000#32, .mxLdb true 12 36),
   (0b1_111001_0000011_001100_100100_111000#32, .mxMma true 12 36 56),
   (0b1_111001_0000100_001100_100100_111000#32, .mxMmaR true 12 36 56),
   (0b1_111001_0000101_001100_100100_111000#32, .mxMmas true 12 36 56),
   (0b1_111001_0000110_001100_100100_111000#32, .mxMmasR true 12 36 56),
   (0b1_111001_0001000_001100_100100_000000#32, .mxZero true 12 36),
   (0b1_111001_0001001_001100_100100_111000#32, .mxStacc true 12 36 56),
   (0b1_111001_0001010_001100_100100_111000#32, .mxLdacc true 12 36 56),
   (0b1_111001_0001011_001100_100100_111000#32, .mxScale true 12 36 56),
   (0b1_111001_0001100_001100_100100_111000#32, .mxSmax true 12 36 56),
   (0b1_111001_0001101_001100_100100_000000#32, .mxSnorm true 12 36),
   (0b1_111001_0001110_001100_000000000000#32, .mxFence true 12),
   (0b1_111001_0001111_001100_000000000000#32, .mxWait true 12),
   (0b1_111001_0010000_001100_100100_000000#32, .mxRel true 12 36)]
theorem test_decode_Matrix :
    wordsMatrix.map (fun e => (decodeWave true e.1, encode e.2)) = wordsMatrix.map fun e => (.ok e.2, some e.1) := by rfl

noncomputable def wordsDelta : List (Word × Instr) :=
  [(0b1_111010_0000000_001100_100100_111000#32, .dlBind true 12 36 56),
   (0b1_111010_0000001_001100_100100_111000#32, .dlRun true 12 36 56),
   (0b1_111010_0000010_001100_100100_111000#32, .dlFull true 12 36 56),
   (0b1_111010_0000011_001100_000000_111000#32, .dlInv true 12 56),
   (0b1_111010_0000100_001100_100100_111000#32, .dlQry true 12 36 56),
   (0b1_111010_0000101_001100_100100_111000#32, .dlCfg true 12 36 56),
   (0b1_111010_0001000_001100_000000_111000#32, .dlDropall true 12 56)]
theorem test_decode_Delta :
    wordsDelta.map (fun e => (decodeWave true e.1, encode e.2)) = wordsDelta.map fun e => (.ok e.2, some e.1) := by rfl

noncomputable def wordsTrav : List (Word × Instr) :=
  [(0b1_111011_0000000_001100_100100_111000#32, .trLaunch true 12 36 56),
   (0b1_111011_0000001_001100_100100_111000#32, .trResume true 12 36 56),
   (0b1_111011_0000010_001100_100100_111000#32, .trCqcfg true 12 36 56),
   (0b1_111011_0000100_001100_100100_111000#32, .trDtab true 12 36 56),
   (0b1_111011_0000101_001100_100100_111000#32, .trProg true 12 36 56),
   (0b1_111011_0001000_001100_100100_111000#32, .pfArm true 12 36 56),
   (0b1_111011_0001001_001100_000000_111000#32, .pfDisarm true 12 56)]
theorem test_decode_Trav :
    wordsTrav.map (fun e => (decodeWave true e.1, encode e.2)) = wordsTrav.map fun e => (.ok e.2, some e.1) := by rfl

noncomputable def wordsMessages : List (Word × Instr) :=
  [(0b1_111100_0000000_001100_010000_111000#32, .msgSend true 12 16 56),
   (0b1_111100_0000001_001100_100100_111000#32, .msgSendl true 12 36 56),
   (0b1_111100_0000010_001100_010000_111000#32, .msgMcast true 12 16 56),
   (0b1_111100_0000011_001100_010000_111000#32, .msgWake true 12 16 56),
   (0b1_111100_0000100_001100_000000_111000#32, .msgMask true 12 56),
   (0b1_111100_0000101_001100_000000_111000#32, .msgUnmask true 12 56),
   (0b1_111100_0000110_001100_000000000000#32, .msgPend true 12),
   (0b1_111100_0001000_001100_100100_111000#32, .msgHbind true 12 36 56)]
theorem test_decode_Messages :
    wordsMessages.map (fun e => (decodeWave true e.1, encode e.2)) = wordsMessages.map fun e => (.ok e.2, some e.1) := by rfl

noncomputable def wordsCapsules : List (Word × Instr) :=
  [(0b1_111101_0000000_001100_100100_111000#32, .capNew true 12 36 56),
   (0b1_111101_0000001_001100_000000_111000#32, .capFwd true 12 56),
   (0b1_111101_0000010_001100_100100_111000#32, .capIns true 12 36 56),
   (0b1_111101_0000011_001100_000000_111000#32, .capDel true 12 56),
   (0b1_111101_0000100_001100_100100_111000#32, .capSet true 12 36 56),
   (0b1_111101_0000101_001100_000000_111000#32, .capRet true 12 56),
   (0b1_111101_0000110_001100_000000_111000#32, .capPark true 12 56),
   (0b1_111101_0000111_001100_100100_111000#32, .capLoad true 12 36 56)]
theorem test_decode_Capsules :
    wordsCapsules.map (fun e => (decodeWave true e.1, encode e.2)) = wordsCapsules.map fun e => (.ok e.2, some e.1) := by rfl

noncomputable def wordsWork : List (Word × Instr) :=
  [(0b1_111110_0000000_001100_100100_000000#32, .launch true 12 36),
   (0b1_111110_0000001_001100_100100_111000#32, .forkL true 12 36 56),
   (0b1_111110_0000010_001100_100100_111000#32, .forkG true 12 36 56),
   (0b1_111110_0000100_001100_100100_111000#32, .engw true 12 36 56),
   (0b1_111110_0000101_001100_000000_111000#32, .engr true 12 56),
   (0b1_111110_0000110_001100_100100_111000#32, .strcfg true 12 36 56),
   (0b1_111110_0000111_001100_000000_111000#32, .prio true 12 56)]
theorem test_decode_Work :
    wordsWork.map (fun e => (decodeWave true e.1, encode e.2)) = wordsWork.map fun e => (.ok e.2, some e.1) := by rfl

noncomputable def wordsTravAlu : List (Word × Instr) :=
  [(0b000000_00000000000000000000000000#32, .tnop),
   (0b000001_1100_0110_1010_00000000000000#32, .tadd 12 6 10),
   (0b000001_1100_0110_1010_00000000000001#32, .tsub 12 6 10),
   (0b000001_1100_0110_1010_00000000000010#32, .tand 12 6 10),
   (0b000001_1100_0110_1010_00000000000011#32, .tor 12 6 10),
   (0b000001_1100_0110_1010_00000000000100#32, .txor 12 6 10),
   (0b000001_1100_0110_1010_00000000000101#32, .tshl 12 6 10),
   (0b000001_1100_0110_1010_00000000000110#32, .tshr 12 6 10),
   (0b000001_1100_0110_1010_00000000000111#32, .tsra 12 6 10),
   (0b000001_1100_0110_1010_00000000001000#32, .tmin 12 6 10),
   (0b000001_1100_0110_1010_00000000001001#32, .tmax 12 6 10),
   (0b000001_1100_0110_1010_00000000001010#32, .tminu 12 6 10),
   (0b000001_1100_0110_1010_00000000001011#32, .tmaxu 12 6 10),
   (0b000001_1100_0110_1010_00000000001100#32, .tmul 12 6 10),
   (0b000010_1100_0110_1010_00000000000000#32, .tfadd 12 6 10),
   (0b000010_1100_0110_1010_00000000000001#32, .tfsub 12 6 10),
   (0b000010_1100_0110_1010_00000000000010#32, .tfmul 12 6 10),
   (0b000010_1100_0110_1010_00000000000011#32, .tfmin 12 6 10),
   (0b000010_1100_0110_1010_00000000000100#32, .tfmax 12 6 10),
   (0b000011_1100_0110_0000_10000000000011#32, .taddi 12 6 8195),
   (0b000100_1100_0110_0000_10000000000011#32, .tandi 12 6 8195),
   (0b000101_1100_0110_0000_10000000000011#32, .tori 12 6 8195),
   (0b000110_1100_0110_0000000000000_10011#32, .tshli 12 6 19),
   (0b000110_1100_0110_0000000000001_10011#32, .tshri 12 6 19),
   (0b000110_1100_0110_0000000000010_10011#32, .tsrai 12 6 19),
   (0b000110_1100_0110_0000000000011_10011#32, .troli 12 6 19),
   (0b000111_1100_1000000000000000000101#32, .tlui 12 2097157),
   (0b001000_0110_0110_1010_10000000000011#32, .tbr .flt 6 10 8195),
   (0b001001_1100_0000000000000000000000#32, .trsrReclo 12),
   (0b001001_1100_0000000000000000000001#32, .trsrRechi 12),
   (0b001001_1100_0000000000000000000010#32, .trsrTag 12)]
theorem test_decode_TravAlu :
    wordsTravAlu.map (fun e => (decodeTrav e.1, encode e.2)) = wordsTravAlu.map fun e => (.ok e.2, some e.1) := by rfl

noncomputable def wordsTravRest : List (Word × Instr) :=
  [(0b001001_1100_0000000000000000000011#32, .trsrThread 12),
   (0b010000_0000_0110_00000000000000_1011#32, .nfetch 6 11),
   (0b010001_0000000000000000000000_1011#32, .ndec 11),
   (0b010010_1100_0000000000000000000000#32, .ngetKind 12),
   (0b010010_1100_0000000000000000000001#32, .ngetCnt 12),
   (0b010010_1100_000000000000000_101_0010#32, .ngetChild 12 5),
   (0b010010_1100_00000000000000_1011_0011#32, .ngetKeylo 12 11),
   (0b010010_1100_00000000000000_1011_0100#32, .ngetKeyhi 12 11),
   (0b010010_1100_0000000000000000000101#32, .ngetPeer 12),
   (0b010010_1100_0000000000000000000110#32, .ngetRemote 12),
   (0b010010_1100_00000000_1000011_0001000#32, .ngetWord 12 67),
   (0b010011_1100_0110_0000_10000000000011#32, .tld 12 6 8195),
   (0b010100_0000_0110_000000000000000_101#32, .tqld 6 5),
   (0b010101_0000_0110_000000000000000000#32, .tpfNc 6),
   (0b010101_0000_0110_000000000000000001#32, .tpfL1 6),
   (0b011000_1100_0000_000000000000000000#32, .tbox 12 0),
   (0b011001_1100_0000_0000000000000000_10#32, .ttri 12 0 2),
   (0b011010_1100_0110_000000000000000_101#32, .tdistL2 12 6 5),
   (0b011010_1100_0110_000000000000001_101#32, .tdistDot 12 6 5),
   (0b011011_1100_0110_000000000000000000#32, .tkeyLt 12 6),
   (0b011011_1100_0110_000000000000000001#32, .tkeyLe 12 6),
   (0b100000_0000_0110_000000000000000000#32, .tpush 6),
   (0b100001_0000_0110_000000000000000000#32, .tpushc 6),
   (0b100010_1100_00000000_10000000000011#32, .tpop 12 8195),
   (0b100011_1100_0000000000000000000000#32, .tdepth 12),
   (0b101000_0000_0110_000000000000000000#32, .emit 6),
   (0b101001_0000_0110_000000000000000000#32, .endDone 6),
   (0b101001_0000_0110_000000000000000001#32, .endMiss 6),
   (0b101010_1100_0110_1010_00000000000000#32, .susp 12 6 10),
   (0b101011_00000000000000000000000000#32, .thand)]
theorem test_decode_TravRest :
    wordsTravRest.map (fun e => (decodeTrav e.1, encode e.2)) = wordsTravRest.map fun e => (.ok e.2, some e.1) := by rfl

/-- Words that the chapters give beside the source of an instruction. -/
noncomputable def wordsExamples : List (Word × Instr) :=
  let c : Ctl := ⟨false, 7⟩
  let sw : Ctl := ⟨true, 7⟩
  [(0x01C00000, .nop c), (0x01C00001, .exit c), (0x01C00002, .yield c), (0x01C00253, .trap c 0x025), (0x01C005AD, .bkpt c 0x5A),
   (0x01C41466, .eret c 4 5 6), (0x01C01C07, .halt c 7), (0x81C01C07, .halt sw 7), (0x01C02048, .tlbw c 8 4),
   (0x01C02049, .tlbi c 8 4), (0x01C0000A, .tlbsync c), (0x01C4146C, .svcall c 4 5 6), (0x01C1000B, .cacheL1all c),
   (0x01C2200B, .cacheWb c 8), (0x01C4200B, .cacheLock c 8), (0x05CA204C, .lea8 c 10 8 4), (0x21C10830, .fadd c 1 2 3),
   (0x23C41460, .ffma c 4 5 6), (0x25C90828, .fcmp c 1 .lt 4 5 .set), (0x27C31011, .fcvtFi c 3 4 0 1),
   (0x29C61C8B, .hfma2Bf c 6 7 8), (0x2BC828C3, .dfma c 8 10 12), (0xADC51003, .ex2 sw 5 4), (0x2FC928B0, .idot4 c 9 10 11),
   (0x31C51817, .shflx c 5 6 1), (0xB3C20C07, .fredux sw 2 3 .add), (0x43C41A00, .stg c 4 6 .w 0), (0x45CA0EFF, .ldl c 10 3 .d (-1)),
   (0x4DC81282, .ldwg c 8 4 .d 2), (0x49C52003, .ldacq c 5 8 false .device), (0x49C62014, .ldacq c 6 8 true .system),
   (0x4BC02053, .strel c 8 5 false .device), (0x4BC12064, .strel c 8 6 true .system), (0x51C52061, .atomAddF32 c 5 8 6),
   (0x53CA20CE, .atomaCas c 10 8 12), (0x55C02062, .redAddBf16x2 c 8 6), (0x59C50C60, .atomlAddSi32 c 5 3 6),
   (0x57C42060, .oredF32 c 4 8 6), (0x5BC00003, .fenceFull c .device), (0x5BC10002, .fenceAcq c .cluster),
   (0x5BC20003, .fenceRel c .device), (0x5DC00031, .cfence c .device), (0x5FC00000, .drainCpl c), (0x5FC00007, .drainAll c),
   (0x67C21001, .callx c 2 4), (0x67C00802, .ret c 2), (0x6BC02008, .joinw c 8), (0x6BC10053, .barxExpect c 1 5),
   (0x70005006, .cpLd false 5 6), (0x72005000, .mxCtx false 5), (0x7204020A, .mxLda false 0 8 10), (0x72080300, .mxLdb false 0 12),
   (0x720C038E, .mxMma false 0 14 14), (0x7210038E, .mxMmaR false 0 14 14), (0x7214038E, .mxMmas false 0 14 14),
   (0x7218038E, .mxMmasR false 0 14 14), (0x722003C0, .mxZero false 0 15), (0x72246411, .mxStacc false 6 16 17),
   (0x72280411, .mxLdacc false 0 16 17), (0x722C0412, .mxScale false 0 16 18), (0x72300411, .mxSmax false 0 16 17),
   (0x72340400, .mxSnorm false 0 16), (0x72380000, .mxFence false 0), (0x723C7000, .mxWait false 7), (0x724004C0, .mxRel false 0 19),
   (0x7400520A, .dlBind false 5 8 10), (0x7404630E, .dlRun false 6 12 14), (0x7408630E, .dlFull false 6 12 14),
   (0x740C000E, .dlInv false 0 14), (0x7410640E, .dlQry false 6 16 14), (0x7414648E, .dlCfg false 6 18 14),
   (0x74200004, .dlDropall false 0 4), (0x7600520A, .trLaunch false 5 8 10), (0x7604020A, .trResume false 0 8 10),
   (0x7608520A, .trCqcfg false 5 8 10), (0x7610520A, .trDtab false 5 8 10), (0x7614520A, .trProg false 5 8 10),
   (0x76204180, .pfArm false 4 6 0), (0x7624500A, .pfDisarm false 5 10), (0x78005408, .msgSend false 5 16 8),
   (0x78045248, .msgSendl false 5 9 8), (0x78085408, .msgMcast false 5 16 8), (0x780C080A, .msgWake false 0 32 10),
   (0x78106007, .msgMask false 6 7), (0x78146007, .msgUnmask false 6 7), (0x78186000, .msgPend false 6),
   (0x7820520A, .msgHbind false 5 8 10), (0x7A005000, .capNew false 5 0 0), (0x7A040015, .capFwd false 0 21),
   (0x7A08528C, .capIns false 5 10 12), (0x7A0C500C, .capDel false 5 12), (0x7A10528C, .capSet false 5 10 12),
   (0x7A140006, .capRet false 0 6), (0x7A180015, .capPark false 0 21), (0x7A1C5280, .capLoad false 5 10 0),
   (0x7C006200, .launch false 6 8), (0x7C045412, .forkL false 5 16 18), (0x7C085412, .forkG false 5 16 18),
   (0x7C10028C, .engw false 0 10 12), (0x7C15400C, .engr false 20 12), (0x7C180100, .strcfg false 0 4 0), (0x7C1C0007, .prio false 0 7)]
theorem test_decode_examples :
    wordsExamples.map (fun e => (decodeWave true e.1, encode e.2)) = wordsExamples.map fun e => (.ok e.2, some e.1) := by rfl

/-- Table 2-7, and a word for each check of Table 2-6 and of R38. -/
theorem test_decode_refused :
    [0x36000000, 0x05C0000D, 0x01C00008, 0x11C00080, 0x07C31060, 0x07C3106D, 0x68000000, 0x6C000000, 0x6E000000,
      0x7E000000].map (decodeWave false) =
      [.bad 0x001, .bad 0x002, .bad 0x004, .bad 0x003, .bad 0x005, .bad 0x002, .bad 0x001, .bad 0x001, .bad 0x001, .bad 0x001] ∧
    decodeWave true 0x01C02048 = .ok (.tlbw ⟨false, 7⟩ 8 4) ∧ decodeWave false 0x00000000 = .ok (.nop ⟨false, 0⟩) ∧
    [0b111111_00000000000000000000000000#32, 0b000001_0000_0000_0000_00000000001111#32, 0b000000_0000_0000_0000_00000000000001#32,
      0b010000_0000_0001_0000_00000000000000#32].map decodeTrav = [.bad 0x001, .bad 0x002, .bad 0x003, .bad 0x005] := by
  refine ⟨rfl, rfl, rfl, rfl⟩

/-- Words of the opcode table, least significant bit first word, and a number of bits below 32. -/
theorem test_decodeTableWord : decodeTableWord 32 0x7C006200 = some (.launch false 6 8) ∧ decodeTableWord 32 0x36000000 = none := by
  exact ⟨rfl, rfl⟩

/-- An ill-formed term for each check (R32, R33, R83, R105, R278, R366, Table 16-4a). -/
theorem test_wellFormed_refuses :
    let c : Ctl := ⟨false, 7⟩
    ([.rdsr c 2 18, .rdsr c 3 9, .wrsr c 2 12, .tlbw c 6 4, .tlbi c 7 4, .cacheWb c 9, .add64 c 3 4 6, .add64 c 2 5 6, .add64 c 2 4 7,
      .shl64 c 2 5 6, .mul32w c 3 4 5, .lea c 3 4 5, .lea c 2 5 5, .fcvtFf c 1 2 4 2, .fcvtFf c 1 2 6 1,
      .fcvtFf c 1 2 6 0, .fcvtFf c 2 1 7 0, .fcvtFi c 1 2 0 5, .fcvtFi c 1 3 2 0, .fcvtFi c 1 2 4 0, .fcvtIf c 1 3 4 0, .fcvtIf c 1 2 2 0,
      .fcvtFx c 1 2 2, .fcvtXf c 1 2 2, .fcvtRi c 1 2 2 0, .fcvtRi c 1 2 1 0, .dadd c 3 4 6, .dcmp c 1 .eq 3 4, .ldg c 1 3 .w 0,
      .ldg c 1 2 .d 0, .ldg c 6 2 .q 0, .stg c 1 2 .sb 0, .stl c 1 2 .sh 0, .ldwg c 6 2 .q 0, .ldacq c 5 2 true .wave,
      .ldacq c 5 3 false .wave, .strel c 2 5 true .wave, .atomAddSi64 c 3 4 6, .atomCas c 3 5 6, .oredF64 c 1 2 3, .brx c 3,
      .callx c 3 4, .callx c 2 5, .ret c 5, .joinw c 5] : List Instr).map wellFormed = List.replicate 45 false := by rfl
theorem test_wellFormed_refuses_commands :
    ([.mxLda false 0 9 10, .dlRun false 0 9 10, .trLaunch false 0 9 10, .msgSend false 0 8 1, .msgWake false 0 17 1, .capLoad false 0 9 1,
      .launch false 0 9, .forkL false 0 9 1, .engw false 0 9 1, .engr false 9 1, .tbr .al 1 0 0, .nfetch 1 0, .tbox 0 1, .ttri 1 0 0,
      .tpush 1, .tpop 1 0, .ngetChild 1 0, .ngetRemote 3, .tld 0 1 0, .emit 14, .endDone 15] : List Instr).map wellFormed =
      List.replicate 21 false := by rfl

/-! ## A small machine

One group of one launch stands on core 0 with two waves, and the L2 TLB of its cluster maps the lowest GiB onto
itself. -/

def rec0 : LRec where
  entry := 0x10000
  args := 0x123456789ABCDEF0
  gx := 3
  gy := 4
  gz := 5
  gang := 1
  waves := 2
  taskw := 2
  blocks := 8
  bars := 16
  localkb := 64
  cslots := 4
  prio := 0
  dslots := 0
  fpcr := 0
  age := 0
  wdog := 32
  part := 0
  asid := 1
  checked := true
  serial := false
  lvl := 0
  done := 0
  hgds := []
def launch0 : Launch := { lid := 0, recd := rec0, queue := 0, accepted := 0, next := 1, since := 0 }
def ctx0 : Ctx := { asid := 1, slot := 0, movbase := 0x10000, save := 0x100000, sstride := 0x100000 }
def group0 : Group where
  core := 0
  gslot := 0
  lid := 0
  asid := 1
  hgd := none
  index := 0
  gang := 0
  waves := 2
  taskw := 2
  blocks := 8
  bars := 16
  localkb := 64
  cslots := 4
  fpcr := 0
  prio := 0
  slots := [0, 1, 16, 17]
  checked := true
  part := 0
def tlb0 : TlbE where
  r := true
  w := true
  x := true
  a := true
  d := true
  g := true
  mig := false
  watch := false
  lock := false
  size := 3
  cache := 0
  asid := 0
  vpn := 0
  pfn := 0
/-- The path of a wave with 20 active lanes, two of them helper lanes. -/
def p0 : Path := { pc := 0x10000, join := BitVec.allOnes 64, mask := 0xFFF000FF, made := 0 }
/-- A wave with values in some g and w registers, as pairs of a register and a value in every lane, g4 apart: there lane k
holds 0x1000 + 64 k. -/
def waveOf (gs ws : List (Nat × Word)) : Wave where
  core := 0
  slot := 0
  gslot := 0
  idx := 0
  kind := .launched
  g := ((List.range 32).map fun k => (128 + k, BitVec.ofNat 32 (0x1000 + 64 * k))) ++
    ((gs.filter fun e => e.2 != 0).map fun e => (List.range 32).map fun k => (32 * e.1 + k, e.2)).flatten
  w := ws.filter fun e => e.2 != 0
  live := BitVec.allOnes 32
  helper := 0x30
  paths := [p0]
  fpcr := 0
  prio := 0
/-- The machine with one wave of core 0 under way. -/
def machine (w : Wave) : State := { State.reset with
  ctxs := [ctx0]
  groups := [group0]
  launches := [launch0]
  waves := [w, { waveOf [] [] with slot := 1, idx := 1 }]
  nextId := 7
  clusters := [(0, { ({} : Cluster) with tlb := [tlb0] })] }
def w0 : Wave := waveOf [(6, 32), (8, 7)] [(4, 0x1000), (6, 0x800)]
def s0 : State := machine w0
/-- A service core with one wave. -/
def wSvc (gs ws : List (Nat × Word)) : Wave := { waveOf gs ws with core := 160, gslot := 255, kind := .firmware }
def svc (w : Wave) : State := { machine (waveOf [] []) with
  waves := [w, waveOf [] []]
  selCore := 160 }
def c0 : Ctl := ⟨false, 7⟩
/-- Every address is its own place. -/
def here : Place := fun va => (va.toNat, 0)

theorem clear_of {w : Wave} (u : Use) (h1 : w.streams = []) (h2 : w.haz = []) : Clear w u := by
  constructor
  · simp [h1]
  · intro m; simp [Wave.hazard, h2]

theorem plain_of {s : State} {w : Wave} {p : Path} (sw : Bool) (h1 : s.wave? s.selCore s.selSlot = some w)
    (h2 : w.path? = some p) (h3 : w.stat = .run) (h4 : w.wf = true) (h5 : s.tabs = true) (h6 : w.excs = [])
    (h7 : w.poison = []) : Plain s sw w p :=
  ⟨h1, h2, h3, h4, h5, fun _ => .inl h6, h7⟩

theorem idle_of {s : State} {w : Wave} (h1 : w.acq = []) (h2 : w.pushing = false) (h3 : s.faulted w = false) (h4 : w.pend = [])
    (h5 : (s.core w.core).sq = []) : Idle s w :=
  ⟨h1, h2, h3, by simp [h4], by simp [h5]⟩

theorem plain0 (sw : Bool) : Plain s0 sw w0 p0 := by
  apply plain_of <;> decide +kernel
theorem idle0 : Idle s0 w0 := by
  apply idle_of <;> decide +kernel

/-! ## States that meet the hypotheses of the statements -/

/-- Of the clauses of HalfArithmetic, IntegerArithmetic, UniformOperations, WideArithmetic, ComparesAndPredicates,
SingleArithmetic, Conversions, DoublesAndSpecials and Exchanges that are `WritesPerLane`, `PostsPerLane` or
`WritesPerWave`: for each use of registers, any flags, and S in either state. -/
theorem witness_lanes (sw : Bool) (u : Use) (fl : Flags) : Plain s0 sw w0 p0 ∧ Clear w0 u ∧ enabledFlags w0.fpcr fl = 0 :=
  ⟨plain0 sw, clear_of u rfl rfl, by have : w0.fpcr = 0 := rfl
                                     simp [enabledFlags, this]⟩
theorem apart_of {w : Wave} (es : List SQ) (h : w.loads = []) : apart w es := by
  simp [apart, h]
/-- RoundingAndNaNs: the largest finite value and the smallest subnormal of each format, and an operand of each kind of NaN. -/
theorem witness_RoundingAndNaNs :
    ((f64.num 0x7FEFFFFFFFFFFFFF).isNaN = false ∧ 0x7FEFFFFFFFFFFFFF < 2 ^ (f64.eb + f64.fb + 1)) ∧
    ((f32.num 1).isNaN = false ∧ 1 < 2 ^ (f32.eb + f32.fb + 1)) ∧ ((f16.num 0x7BFF).isNaN = false ∧ 0x7BFF < 2 ^ (f16.eb + f16.fb + 1)) ∧
    ((bf16.num 0xFF80).isNaN = false ∧ 0xFF80 < 2 ^ (bf16.eb + bf16.fb + 1)) ∧
    ((f32.num 0x7FC00000).isNaN = true ∧ (f32.num 0x7FC00000).isSNaN = false ∧ (f32.num 0x7F800001).isSNaN = true) := by
  decide +kernel

/-- Conversions: the last rounding code. -/
theorem witness_Conversions : (4 : BitVec 3).toNat ≤ 4 ∧ (1 : BitVec 3).toNat ≤ 1 := by decide

def stream0 : Stream :=
  { base := 0x1000, lstride := 4, estride := 128, count := 40, size := .w, push := false, pos := 1, buf := [] }
def wStream : Wave := { w0 with streams := [(2, stream0)] }
/-- Streams, the functions: stream 2 is bound to g62, and no operand is g62. -/
theorem witness_StreamFunctions : assoc wStream.streams (2 : BitVec 2).toNat = some stream0 ∧
    Plain (machine wStream) true wStream p0 ∧ (wStream.actsIn 7 (wStream.lanesOfPath p0)).isSome ∧
    Clear wStream (waveUse wStream 7 [] [(10, 1)] [] [] [] []) ∧ Clear wStream (waveUse wStream 7 [] [] [] [] [] []) := by
  refine ⟨rfl, ?_, by decide +kernel, ?_, ?_⟩
  · apply plain_of <;> decide +kernel
  all_goals
    constructor
    · decide +kernel
    · intro m; simp [Wave.hazard, wStream, w0, waveOf]

def wCfg (sd : Tab DWord) : Wave := { waveOf [] [(4, 0x85)] with sd }
/-- Streams, STRCFG: streams 0 and 2 are bound and stream 3 is unbound; a stride that is no multiple of the size traps. -/
theorem witness_StreamConfiguration (sd : Tab DWord) (h : sd = [(0, 0x1000), (1, 4), (2, 0x400000028), (8, 0x2000), (10, 0x3)] ∨
      sd = [(0, 0x1000), (1, 2), (2, 0x400000028)]) :
    let w := wCfg sd
    Plain (machine w) true w p0 ∧ w.anyLane p0 = true ∧
    (∀ m, w.hazard { reads := fun _ => wRegs [(4, 1)], writes := fun _ => wRegs [(5, 1)] } m = none) ∧
    (if sd.length = 5 then ∀ k < 4, (w.readW 4).getLsbD k = true → descriptorValid w k = true
      else (w.readW 4).getLsbD 0 = true ∧ descriptorValid w 0 = false) := by
  rcases h with rfl | rfl
  all_goals
    refine ⟨?_, by decide +kernel, fun m => by simp [Wave.hazard, wCfg, waveOf], by decide +kernel⟩
    apply plain_of <;> decide +kernel
/-- The real value of a finite number. -/
theorem real_fin (s : Bool) (m : Nat) (e : Int) : real (.fin s m e) = (if s then -1 else 1) * (m : ℝ) * (2 : ℝ) ^ e := rfl
/-- 1.0 and 0.5 in FP32, as the statements read them. -/
theorem one32 : real (f32.num 0x3F800000) = 1 := by
  have h : f32.num 0x3F800000 = .fin false (2 ^ 23) (-23) := by decide +kernel
  rw [h, real_fin]; norm_num
theorem half32 : real (f32.num 0x3F000000) = 1 / 2 := by
  have h : f32.num 0x3F000000 = .fin false (2 ^ 23) (-24) := by decide +kernel
  rw [h, real_fin]; norm_num
/-- RoundingAndNaNs, exact sums: a sum, a product and a fused result that are not 0, and ones that are; infinities. -/
theorem witness_ExactThenRounded :
    let x : FNum := .fin false 1 0
    let y : FNum := .fin true 1 0
    let o : FNum := .fin false 0 0
    f64 ∈ ieee ∧ x.isFin = true ∧ y.isFin = true ∧ real x + real x ≠ 0 ∧ real x + real y = 0 ∧ real x * real y ≠ 0 ∧
    o.isFin = true ∧ real x * real o = 0 ∧ real x * real x + real x ≠ 0 ∧ real x * real x + real y = 0 ∧ x.isNaN = false ∧
    invalidProduct (.inf true) o = true ∧ invalidProduct (.inf true) x = false ∧ (FNum.inf true).isFin = false ∧
    (FNum.inf true).isNaN = false ∧ FNum.inf true = .inf ((FNum.inf true).sign != x.sign) ∧
    FNum.inf false = .inf !((FNum.inf true).sign != x.sign) ∧ (FNum.nan true).isNaN = true := by
  simp only [real_fin]
  refine ⟨by simp [ieee], rfl, rfl, ?_, ?_, ?_, rfl, ?_, ?_, ?_, by decide⟩ <;> norm_num
/-- RoundingAndNaNs, FTZ: subnormal operands. -/
theorem witness_FlushToZero : 1 < 2 ^ 32 ∧ 0x80000001 < 2 ^ 32 ∧ flushed 0x80000001 ≠ 0x80000001 := by decide
/-- SingleArithmetic, MIN and MAX: two values, and the two zeros. -/
theorem witness_MinAndMax : f32 ∈ ieee ∧ (f32.num 0x3F800000).isFin = true ∧ (f32.num 0).isZero = true ∧
    (f32.num 0x80000000).isZero = true ∧ 0x80000000 < 2 ^ (f32.eb + f32.fb + 1) := by
  refine ⟨by simp [ieee], ?_⟩; decide +kernel
/-- SingleArithmetic, compares: numbers and a NaN. -/
theorem witness_CompareRules : (FNum.inf true).isNaN = false ∧ (FNum.fin false 1 0).isNaN = false ∧ (FNum.nan true).isNaN = true := by
  decide
/-- Conversions: a value of each kind, and integers with and without a value. -/
theorem witness_ConversionRules : f32 ∈ ieee ∧ (f32.num 0x7F800001).isNaN = true ∧ f32.num 0xFF800000 = .inf true ∧
    (f32.num 0x80000000).isZero = true ∧ (f32.num 1).isFin = true ∧ (f32.num 1).isZero = false ∧ 0x80000000 < 2 ^ 32 ∧
    (2 ^ 31 ≤ 0x80000000) := by
  refine ⟨by simp [ieee], ?_⟩; decide +kernel
/-- Conversions, blocks: one with an infinity, one of zeros, and one with a value and a lane that does not contribute. -/
theorem witness_BlockProcedure :
    (let xs : List (Option FNum) := some (.inf false) :: List.replicate 31 none
     xs.length = 32 ∧ ((xs.getD 0 none).getD (.fin false 0 0)).isFin = false) ∧
    (let xs : List (Option FNum) := some (.fin true 3 0) :: List.replicate 31 none
     xs.length = 32 ∧ (∀ i < 32, ((xs.getD i none).getD (.fin false 0 0)).isFin = true) ∧ xs.getD 31 none = none ∧
     xs.getD 0 none ≠ none ∧ (2 : ℝ) ^ (1 : ℤ) ≤ |real ((xs.getD 0 none).getD (.fin false 0 0))| ∧
     ∀ i < 32, |real ((xs.getD i none).getD (.fin false 0 0))| < (2 : ℝ) ^ (1 + 1 : ℤ)) ∧
    (let xs : List (Option FNum) := List.replicate 32 none
     ∀ i < 32, real ((xs.getD i none).getD (.fin false 0 0)) = 0) := by
  have h3 : |real (.fin true 3 0)| = 3 := by rw [real_fin]; norm_num
  have h0 : real (.fin false 0 0) = 0 := by rw [real_fin]; norm_num
  refine ⟨by decide, ⟨by decide, by decide, by decide, by decide, ?_, ?_⟩, ?_⟩
  · show (2 : ℝ) ^ (1 : ℤ) ≤ |real (.fin true 3 0)|
    rw [h3]; norm_num
  · intro i hi
    rcases i with _ | i
    · show |real (.fin true 3 0)| < _
      rw [h3]; norm_num
    · have h : ((some (FNum.fin true 3 0) :: List.replicate 31 none).getD (i + 1) none).getD (.fin false 0 0) = .fin false 0 0 := by
        have : ∀ j < 31, ((List.replicate 31 (none : Option FNum)).getD j none).getD (.fin false 0 0) = .fin false 0 0 := by decide
        exact this i (by omega)
      rw [h, h0]; norm_num
  · intro xs i hi
    have : ∀ j < 32, ((List.replicate 32 (none : Option FNum)).getD j none).getD (.fin false 0 0) = .fin false 0 0 := by decide
    show real ((xs.getD i none).getD (.fin false 0 0)) = 0
    rw [this i hi, h0]
/-- DoublesAndSpecials: operands of each clause, 0.5 where the exact value is not too large. -/
theorem witness_SpecialValues : 0x3F000000 < 2 ^ 32 ∧ (f32.num 0x3F000000).isFin = true ∧ real (f32.num 0x3F000000) ≠ 0 ∧
    0 < real (f32.num 0x3F000000) ∧ -150 ≤ real (f32.num 0x3F000000) ∧ real (f32.num 0x3F000000) < 128 ∧
    (f32.num 0x43000000).isFin = true ∧ 128 ≤ real (f32.num 0x43000000) ∧ (f32.num 0xC4000000).isFin = true ∧
    real (f32.num 0xC4000000) < -150 ∧ (f32.num 0xBF000000).sign = true ∧ (f32.num 0xBF000000).isZero = false ∧
    (f32.num 0x4A000000).isFin = true ∧ (2 : ℝ) ^ 20 < |real (f32.num 0x4A000000)| ∧ (f32.num 0x7F800001).isNaN = true := by
  have h1 : f32.num 0x43000000 = .fin false (2 ^ 23) (-16) := by decide +kernel
  have h2 : f32.num 0xC4000000 = .fin true (2 ^ 23) (-14) := by decide +kernel
  have h3 : f32.num 0x4A000000 = .fin false (2 ^ 23) (-2) := by decide +kernel
  rw [half32, h1, h2, h3]
  simp only [real_fin]
  refine ⟨by decide, by decide +kernel, ?_, ?_, ?_, ?_, rfl, ?_, rfl, ?_, by decide +kernel, by decide +kernel, rfl, ?_, by decide +kernel⟩ <;>
    norm_num
/-- DoublesAndSpecials, EX2, and SpecialFunctionBounds. -/
theorem witness_Ex2Procedure : 0x3F800000 < 2 ^ 32 ∧ (f32.num 0x3F800000).isFin = true ∧ -150 ≤ real (f32.num 0x3F800000) ∧
    real (f32.num 0x3F800000) < 128 ∧ 0 < real (f32.num 0x3F800000) ∧ |real (f32.num 0x3F800000)| ≤ (2 : ℝ) ^ 20 := by
  rw [one32]
  refine ⟨by decide, by decide +kernel, ?_⟩; norm_num
theorem witness_SpecialFunctionBounds : 0x3F000000 < 2 ^ 32 ∧ (f32.num 0x3F000000).isFin = true ∧ 0 < real (f32.num 0x3F000000) ∧
    |real (f32.num 0x3F000000)| ≤ (2 : ℝ) ^ 20 := by
  rw [half32]
  refine ⟨by decide, by decide +kernel, ?_⟩; norm_num
/-- DoublesAndSpecials, dot products of halves: an accumulator and products whose sum is not 0, and one whose sum is. -/
theorem witness_HalfDots : f16 ∈ [f16, bf16] ∧ (f32.num 0x3F800000).isFin = true ∧ (f16.num (0 % 2 ^ 16)).isFin = true ∧
    real (f32.num 0x3F800000) + real (f16.num (0 % 2 ^ 16)) * real (f16.num (0 % 2 ^ 16)) +
      real (f16.num (0 / 2 ^ 16)) * real (f16.num (0 / 2 ^ 16)) ≠ 0 ∧
    real (f32.num 0) + real (f16.num (0 % 2 ^ 16)) * real (f16.num (0 % 2 ^ 16)) +
      real (f16.num (0 / 2 ^ 16)) * real (f16.num (0 / 2 ^ 16)) = 0 := by
  have h1 : f16.num (0 % 2 ^ 16) = .fin false 0 (-24) := by decide +kernel
  have h2 : f16.num (0 / 2 ^ 16) = .fin false 0 (-24) := by decide +kernel
  have h3 : f32.num 0 = .fin false 0 (-149) := by decide +kernel
  rw [one32, h1, h2, h3]
  simp only [real_fin]
  refine ⟨by simp, by decide +kernel, rfl, ?_, ?_⟩ <;> norm_num

theorem apart0 (es : List SQ) : apart w0 es := apart_of es (by decide +kernel)

/-- Loads, LDG and LDL: 16 bytes at the last address that OFF7 reaches, and at the end of group-local memory. -/
theorem witness_LaneLoads :
    (let addr := fun l => mAddr .q 63 (w0.readG2 4 l).toNat
     Clear w0 (laneUse 7 [(4, 2)] [(12, 4)] [] []) ∧
     (∀ l ∈ lanesOf (w0.acting 7 p0), w0.helper.getLsbD l = true ∨ addr l % sizeBytes .q = 0) ∧
     (∀ l ∈ lanesOf (w0.acting 7 p0), addr l % sizeBytes .q = 0 → ∀ x ∈ pieces .q (BitVec.ofInt 64 (addr l)),
       Reaches s0 w0 (.load x.2 false) x.1 (here x.1).1 (here x.1).2 ∧
         (w0.helper.getLsbD l = true → s0.windowOk (s0.asidOf w0) (here x.1).1 = true))) ∧
    (let addr := fun l => mAddr .w 63 (w0.readG 6 l).toNat
     Clear w0 (laneUse 7 [(6, 1)] [(12, 1)] [] []) ∧ s0.groupOf w0 = some group0 ∧
     ∀ l ∈ lanesOf (w0.acting 7 p0), w0.helper.getLsbD l = true ∨
       addr l % sizeBytes .w = 0 ∧ 0 ≤ addr l ∧ addr l + sizeBytes .w ≤ 1024 * group0.localkb) := by
  simp only [Reaches, Translates]
  refine ⟨⟨clear_of _ rfl rfl, ?_⟩, clear_of _ rfl rfl, ?_⟩ <;> decide +kernel

theorem witness_WaveLoads : Clear w0 (waveUse w0 7 [] [] [(4, 2)] [(10, 2)] [] []) ∧ Clear w0 (waveUse w0 7 [] [] [(6, 1)] [(10, 4)] [] []) ∧
    w0.actsIn 7 (w0.lanesOfPath p0) = some 0 ∧ mAddr .d (-64) (w0.readW2 4).toNat % sizeBytes .d = 0 ∧
    (∀ x ∈ pieces .d (BitVec.ofInt 64 (mAddr .d (-64) (w0.readW2 4).toNat)),
      Reaches s0 w0 (.load x.2 false) x.1 (here x.1).1 (here x.1).2) ∧
    fits s0 w0 true (sizeBytes .q) (mAddr .q (-64) (w0.readW 6 + 0x400).toNat) := by
  simp only [Reaches, Translates]
  refine ⟨clear_of _ rfl rfl, clear_of _ rfl rfl, by decide +kernel, by decide +kernel, by decide +kernel, by decide +kernel, ?_⟩
  exact fun _ => ⟨by decide +kernel, group0, by decide +kernel, by decide +kernel⟩

/-- Loads, LDACQ of device scope, which is made at the home bank. -/
theorem witness_AcquireLoads :
    let addr := fun l => ((w0.readG2 4 l).toNat : Int)
    let at_ : Place := fun va => (va.toNat, 3)
    acqAtBank 0 .device = true ∧ Clear w0 (laneUse 7 [(4, 2)] [(10, 2)] [] []) ∧ w0.acting 7 p0 &&& ~~~w0.helper ≠ 0 ∧
    (∀ l ∈ lanesOf (w0.acting 7 p0), addr l % sizeBytes .d = 0) ∧
    ∀ l ∈ lanesOf (w0.acting 7 p0), Reaches s0 w0 (.load (sizeBytes .d) true) (BitVec.ofInt 64 (addr l))
      (at_ (BitVec.ofInt 64 (addr l))).1 0 ∧
      (w0.helper.getLsbD l = true → s0.windowOk (s0.asidOf w0) (at_ (BitVec.ofInt 64 (addr l))).1 = true) := by
  simp only [Reaches, Translates]
  refine ⟨rfl, clear_of _ rfl rfl, ?_⟩
  decide +kernel

/-- StoresAndAtomics: STG of 8 bytes in every lane, STL, and STREL of device scope. -/
theorem witness_LaneStores :
    (let addr := fun l => mAddr .d (-64) (w0.readG2 4 l).toNat
     (∀ l ∈ lanesOf (realLanes w0 7 p0), fits s0 w0 false (sizeBytes .d) (addr l) ∧
       ∀ x ∈ pieces .d (BitVec.ofInt 64 (addr l)), Reaches s0 w0 (.store [] []) x.1 (here x.1).1 0) ∧
     apart w0 (entriesOf s0 w0 p0 [] [] here (storeList .d addr (fun l k => w0.readG (12 + BitVec.ofNat 6 k) l) (realLanes w0 7 p0)))) ∧
    (∀ l ∈ lanesOf (realLanes w0 7 p0), fits s0 w0 true (sizeBytes .w) (mAddr .w (-8) (w0.readG 6 l).toNat)) ∧
    s0.groupFaulted w0 = false ∧ w0.loads = [] ∧ w0.readTodos = [] ∧ (s0.core w0.core).sq = [] ∧ wide .device = true ∧ wide .group = false := by
  have hg : s0.groupOf w0 = some group0 := by decide +kernel
  simp only [Reaches, Translates]
  refine ⟨⟨fun l hl => ⟨⟨?_, by simp⟩, ?_⟩, apart0 _⟩, fun l hl => ⟨?_, fun _ => ⟨?_, group0, hg, ?_⟩⟩, by decide +kernel⟩
  all_goals
    revert l
    decide +kernel

/-- StoresAndAtomics: ATOM, ATOMA, RED and ATOML in every lane. -/
theorem witness_Atomics (m : AtomMaj) :
    let loc : Bool := m = .atoml
    let a : Reg := if loc then 6 else 4
    let addr := fun l => if loc then (w0.readG a l).toNat else (w0.readG2 a l).toNat
    let ls : List AtomLane := (lanesOf (realLanes w0 7 p0)).map fun l => (l, BitVec.ofNat 64 (addr l), (w0.readG 8 l).setWidth 64, 0)
    ¬ (m = .atoml ∧ AtomOp.addSi32 = .addSi64) ∧
    (∀ x ∈ ls, fits s0 w0 loc 4 (addr x.1) ∧
      (loc = false → Reaches s0 w0 (.rmw .addSi32 0 0 (decide (m ≠ .red)) []) x.2.1 (here x.2.1).1 0)) ∧
    (m = .atoma → ls ≠ [] ∧ s0.groupFaulted w0 = false) ∧
    apart w0 (atomEntries s0 w0 p0 [] (if loc then localAt w0 else here) .addSi32 (decide (m ≠ .red)) ls) := by
  have hg : s0.groupOf w0 = some group0 := by decide +kernel
  simp only [Reaches, Translates]
  cases m
  all_goals
    refine ⟨by decide, fun x hx => ⟨⟨?_, fun h => ?_⟩, fun h => ?_⟩, by decide +kernel, apart0 _⟩
    · revert x; decide +kernel
    · first
        | exact absurd h (by decide)
        | exact ⟨Int.natCast_nonneg _, group0, hg, by revert x; decide +kernel⟩
    · first
        | exact absurd h (by decide)
        | (revert x; decide +kernel)

/-- StoresAndAtomics: ORED. -/
theorem witness_OrderedContributions :
    let xs := (lanesOf (realLanes w0 7 p0)).map fun l =>
      (l, w0.readG2 4 l, SKind.ored 2 (w0.readG 6 l).toNat (w0.readG2 8 l) false)
    Clear w0 (laneUse 7 [(4, 2), (8, 2), (6, 1)] [] [] []) ∧
    (∀ x ∈ xs, x.2.1.toNat % 64 = 0 ∧ Reaches s0 w0 (.ored 0 0 0) x.2.1 (here x.2.1).1 0) ∧
    apart w0 (entriesOf s0 w0 p0 [] [] here xs) := by
  simp only [Reaches, Translates]
  exact ⟨clear_of _ rfl rfl, by decide +kernel, apart0 _⟩
theorem only {α : Type} {o : Option α} {x : α} {P : α → Prop} (h : o = some x) (hp : P x) : ∀ y, o = some y → P y := by
  intro y hy
  rw [h] at hy
  cases hy
  exact hp

def entry0 (pa : Nat) (k : SKind) : SQ where
  id := 5
  grp := 4
  lane := 3
  pc := 0
  slot := 0
  gslot := 0
  asid := 1
  pa := pa
  kind := k
  needs := []
  va := BitVec.ofNat 64 pa
/-- The machine with one entry in the store queue of core 0, and bytes in memory. -/
def queued0 (pa : Nat) (k : SKind) (m : Memory) : State :=
  { s0 with mem := m, cores := [(0, { ({} : Core) with sq := [entry0 pa k] })] }

/-- BankWrites: a store to the last word of device memory and to the last byte of local memory, an invalidation, and an RMW. -/
theorem witness_BankWrites :
    (let e := entry0 (2 ^ 37 - 4) (.store [1, 2, 3, 4])
     let s := queued0 (2 ^ 37 - 4) (.store [1, 2, 3, 4]) []
     Due s 0 0 e ∧ (inDev e.pa || inSlice e.pa) = true ∧ Memory.wf s.mem ∧ Unwatched s e.pa 4) ∧
    (let pa := localBase 0 0 + 65535
     let e := entry0 pa (.store [9])
     let s := queued0 pa (.store [9]) []
     Due s 0 0 e ∧ inLocal e.pa = true ∧ localOf e.pa = (0, 0, 65535) ∧ s.group? 0 0 = some group0 ∧ Memory.wf group0.loc) ∧
    Due (queued0 0x1000 (.cache true) []) 0 0 (entry0 0x1000 (.cache true)) ∧
    (let k : SKind := .rmw .addBf16x2 (some true) [(3, 0x3F80, 0)] true
     let s := queued0 0x1002 k [(0x1003, 0x3F)]
     Due s 0 0 (entry0 0x1002 k) ∧ (some true).isSome = AtomOp.addBf16x2.packed ∧ Memory.wf s.mem ∧ Unwatched s 0x1002 8 ∧
       ∀ w, s.wave? 0 0 = some w → w.acq = []) := by
  simp only [Due, Unwatched]
  refine ⟨by decide +kernel, by decide +kernel, by decide +kernel, by decide +kernel, rfl, by decide +kernel, by decide +kernel,
    only (x := w0) (by decide +kernel) rfl⟩

/-- OrderedReductions, for each outcome: the next index, which is not the last and which is; a later index; an index past the
size; and an object that the bank has no room for. -/
def header0 (rem : Nat) : List Byte := header 0x3F800000 3 rem 0 0 (List.replicate 46 0)
def ored0 (rem i : Nat) (full : Bool) : State :=
  { queued0 0x1000 (.ored 0 i 0x40000000 false) (Memory.write [] 0x1000 (header0 rem)) with
    clusters := if full then [((homeOf 0x1000).1, { ({} : Cluster) with
      ore := (List.range 16).map fun k => ⟨0x1000 + 0x100 * (k + 1), 1, 0⟩ })] else [] }
theorem witness_OrderedReductions : ∀ x ∈ [(3, 0, false), (1, 2, false), (3, 2, false), (3, 3, false), (3, 0, true)],
    let s := ored0 x.1 x.2.1 x.2.2
    let e := entry0 0x1000 (.ored 0 x.2.1 0x40000000 false)
    let rest := List.replicate 46 (0 : Byte)
    let ore := (s.cluster (homeOf e.pa).1).ore
    Due s 0 0 e ∧ Memory.wf s.mem ∧ rest.length = 46 ∧ (rest.take 2).all (fun x => x == 0) = true ∧
    (rest.drop 6).all (fun x => x == 0) = true ∧ s.mem.read e.pa 64 = header 0x3F800000 3 x.1 0 0 rest ∧
    (s.cluster (homeOf e.pa).1).oreHeld = [] ∧ (ore.any fun o => o.pa == e.pa) = false ∧
    decide (16 ≤ (ore.filter fun o => bankOf o.pa == bankOf e.pa).length) = x.2.2 := by
  simp only [Due]
  decide +kernel
/-- ResultsLand, a value: the last register in the last lane, and flags. -/
theorem witness_ResultsLand_value : ∀ d ∈ [Dst.g 63 31, .w 63, .p 6 31, .fpsr],
    let w := { w0 with pend := [⟨.w 9, .val 3, 0, 0⟩, ⟨d, .val 1, 0, 0⟩] }
    (machine w).wave? 0 0 = some w ∧ w.wf = true ∧ w.pend[1]? = some ⟨d, .val 1, 0, 0⟩ ∧ (d.isReg = true ∨ d = .fpsr) := by
  decide +kernel

/-- ResultsLand, a load: 8 bytes at the end of a line, in memory, in the L1 and in group-local memory. -/
def src0 (pa how : Nat) : Src := .mem 4 0x1018 0x10000 pa 8 how ⟨.d, 1⟩
theorem witness_ResultsLand_load : ∀ x ∈ [(0x1018, 0, [(0x80, List.replicate 32 (9 : Byte))]), (0x1018, 2, []), (localBase 0 0 + 0x18, 5, [])],
    let w := { w0 with pend := [⟨.w 9, .val 3, 0, 0⟩, ⟨.g 63 31, src0 x.1 x.2.1, 0, 0⟩] }
    let s := { machine w with cores := if x.2.2.isEmpty then [] else [(0, { ({} : Core) with l1 := x.2.2 })] }
    s.wave? 0 0 = some w ∧ w.wf = true ∧ w.stat = .run ∧ w.acq = [] ∧ w.pend[1]? = some ⟨.g 63 31, src0 x.1 x.2.1, 0, 0⟩ ∧
    (∀ q ∈ w.pend, ∀ va' pc' len' how' part', q.src = .mem 4 va' pc' x.1 len' how' part' → len' = 8 ∧ how' = x.2.1) ∧
    s.deps 0 (.load 0 4 x.1) = [] ∧ (s.core 0).sq = [] ∧ s.windowOk (s.asidOf w) x.1 = true ∧ x.1 % 32 + 8 ≤ 32 ∧
    ReadsAs s 0 x.1 8 x.2.1 (if x.2.1 = 0 then List.replicate 8 9 else List.replicate 8 0) := by
  intro x hx
  simp only [List.mem_cons, List.not_mem_nil, or_false] at hx
  rcases hx with rfl | rfl | rfl
  all_goals
    refine ⟨by decide +kernel, by decide +kernel, rfl, rfl, rfl, ?_, by decide +kernel, by decide +kernel, by decide +kernel,
      by decide +kernel, ?_⟩
    · intro q hq va pc len how part h
      simp only [List.mem_cons, List.not_mem_nil, or_false] at hq
      rcases hq with rfl | rfl
      · simp at h
      · simp [src0] at h
        simp [h]
  · exact (by decide +kernel : List.replicate 8 (9 : Byte) = ((List.replicate 32 (9 : Byte)).drop 24).take 8)
  · exact ⟨by decide +kernel, by decide +kernel⟩
  · exact ⟨group0, by decide +kernel, by decide +kernel⟩

/-- ResultsLand, the last element of a stream, while its step and while the step before is popped. -/
theorem witness_ResultsLand_element : ∀ pos ∈ [0, 1],
    let x := { stream0 with pos }
    let w := { w0 with streams := [(2, x)] }
    let s := machine w
    let k := 39 - 32 * pos
    let va := x.base + BitVec.ofNat 64 (39 % 32) * x.lstride.signExtend 64 + BitVec.ofNat 64 (39 / 32) * x.estride.signExtend 64
    s.wave? 0 0 = some w ∧ w.wf = true ∧ assoc w.streams 2 = some x ∧ x.push = false ∧ 32 * pos + k = 39 ∧ 39 < x.count ∧
    assoc x.buf 39 = none ∧ s.pageHeld w va = false ∧ w.pushing = false ∧ w.loads = [] ∧ (s.core 0).sq = [] ∧
    Translates s w { r := true } va va.toNat 0 ∧ s.windowOk (s.asidOf w) va.toNat = true ∧ va.toNat % 32 + sizeBytes .w ≤ 32 ∧
    ReadsAs s 0 va.toNat 4 0 (List.replicate 4 0) := by
  simp only [Translates]
  intro pos hp
  simp only [List.mem_cons, List.not_mem_nil, or_false] at hp
  rcases hp with rfl | rfl
  all_goals
    refine ⟨?_, ?_, ?_, ?_, ?_, ?_, ?_, ?_, ?_, ?_, ?_, ?_, ?_, ?_, ?_, ?_⟩ <;> decide +kernel

theorem settled0 (sc : Scope) : Settled s0 w0 sc := by
  constructor
  · decide +kernel
  · decide +kernel
  · intro _ g hg
    have h : s0.groupGrps w0 = [] := by decide +kernel
    simp [h] at hg
  · intro _; decide +kernel

/-- FencesAndDrains: with and without a lane that acts, on a core of a SIMT pair and on a service core. -/
theorem witness_FencesAndDrains (c : Ctl) (sc : Scope) :
    (Plain s0 c.s w0 p0 ∧ Clear w0 (noUse w0 c.p) ∧ Idle s0 w0 ∧ Settled s0 w0 sc ∧ isService w0.core = false) ∧
    (let w := wSvc [] []
     let s := svc w
     Plain s c.s w p0 ∧ Clear w (noUse w c.p) ∧ Idle s w ∧ isService w.core = true) := by
  refine ⟨⟨plain0 _, clear_of _ rfl rfl, idle0, settled0 sc, rfl⟩, ?_, clear_of _ rfl rfl, ?_, rfl⟩
  · apply plain_of <;> decide +kernel
  · apply idle_of <;> decide +kernel

/-- ControlFlow, the branches: an armed path that goes to 18 targets, where its two helper lanes go with another, and one that
is not armed. -/
def wBranch (armed : Bool) : Wave := { waveOf [] [] with paths := [{ p0 with armed, armPc := 0x20000 }] }
theorem witness_Branches (armed : Bool) (u : Use) :
    let w := wBranch armed
    let p := { p0 with armed, armPc := 0x20000 }
    let next := goesTo w p (w.acting 7 p) fun l => w.readG2 4 l
    let ts := ((lanesOf (w.lanesOfPath p)).map next).eraseDups
    Plain (machine w) true w p ∧ Clear w u ∧ w.lanesOfPath p ≠ 0 ∧ (w.paths.map fun q => q.made).Nodup ∧
    (∀ q ∈ w.paths, q.made < w.made) ∧ (∀ l ∈ lanesOf (realLanes w 7 p), (w.readG2 4 l).toNat % 4 = 0) ∧ ts.length = 18 ∧
    w.paths.length + ts.length ≤ 64 + if p.armed then 0 else 1 := by
  cases armed
  all_goals
    refine ⟨?_, clear_of _ rfl rfl, ?_⟩
    · apply plain_of <;> decide +kernel
    · decide +kernel

/-- ControlFlow, EXIT: no lane ends, some end, and all do. -/
theorem witness_Exit : w0.acting 6 p0 &&& ~~~w0.helper = 0 ∧
    (w0.acting 7 p0 &&& ~~~w0.helper ≠ 0 ∧ liveAfter w0 (w0.acting 7 p0 &&& ~~~w0.helper) ≠ 0) ∧
    (let w := { w0 with live := 0xFFF000FF }
     Plain (machine w) false w p0 ∧ Clear w (laneUse 7 [] [] [] []) ∧ w.acting 7 p0 &&& ~~~w.helper ≠ 0 ∧
       liveAfter w (w.acting 7 p0 &&& ~~~w.helper) = 0 ∧ w.kind = .launched) := by
  refine ⟨by decide +kernel, by decide +kernel, ?_, clear_of _ rfl rfl, by decide +kernel⟩
  apply plain_of <;> decide +kernel
theorem mayBar_of {s : State} {w : Wave} {p : Path} {g : Group} {n : BitVec 4} (x y : Bool) (h1 : s.groupOf w = some g)
    (h2 : n.toNat < g.bars) (h3 : w.kind = .launched) (h4 : (Tab.get {} g.barriers n.toNat).arrivals = [])
    (h5 : w.live &&& ~~~p.mask = 0) : MayBar s w p g n x y :=
  ⟨h1, h2, fun _ => by simp [h3], .inl h3, fun _ => by simp [h4], h5⟩

/-- A wave with all its lanes in its path, at barrier 15. -/
def wBar (arrived : Tab Nat) : Wave := { waveOf [(8, 7)] [] with live := 0xFFF000FF, arrived }
def gBar (bytes : Int) : Group := { group0 with barriers := [(15, { phase := 5, bytes })] }
def sBar (arrived : Tab Nat) (bytes : Int) : State := { machine (wBar arrived) with groups := [gBar bytes] }
/-- BarriersAndJoins: arrivals, waits for a phase that has come and for one that has not, and expected bytes up to the
limit, and those that bring a negative count to 0. -/
theorem witness_Barriers (x y : Bool) : ∀ bytes ∈ [(0 : Int), 2 ^ 35 - 1 - 7, -7], ∀ arrived ∈ [[(15, 6)], [(15, 5)]],
    let w := wBar arrived
    let s := sBar arrived bytes
    Plain s true w p0 ∧ Clear w (noUse w 7) ∧ Settled s w .group ∧ w.pushing = false ∧ w.live ≠ 0 ∧ actsOnce w 7 p0 = true ∧
    MayBar s w p0 (gBar bytes) 15 x y ∧ Tab.wf ({} : Barrier) (gBar bytes).barriers = true ∧
    Tab.get 0 w.arrived 15 ≠ 0 ∧ w.actsIn 7 (w.lanesOfPath p0) = some 0 ∧
    (Tab.get {} (gBar bytes).barriers 15).bytes + (w.readG 8 0).toNat ≤ 2 ^ 35 - 1 := by
  intro bytes h arrived ha
  simp only [List.mem_cons, List.not_mem_nil, or_false] at h ha
  rcases h with rfl | rfl | rfl <;> rcases ha with rfl | rfl
  all_goals
    refine ⟨?_, clear_of _ rfl rfl, ⟨by decide +kernel, by decide +kernel, fun h => absurd h (by decide),
      fun h => absurd h (by decide)⟩, by decide +kernel, by decide +kernel, by decide +kernel, ?_, by decide +kernel⟩
    · apply plain_of <;> decide +kernel
    · apply mayBar_of <;> decide +kernel

/-- BarriersAndJoins, JOINW at a counter that is 0 and at one that is not, and a wave that waits at it. -/
theorem witness_Joins : ∀ n ∈ [(0 : Byte), 1],
    let s := { s0 with mem := if n = 0 then [] else [(0x1000, n)] }
    let v := { w0 with stat := .join 0x1000 0 0x10000 }
    Plain s true w0 p0 ∧ Clear w0 (waveUse w0 7 [(4, 2)] [] [] [] [] []) ∧ Idle s w0 ∧ w0.actsIn 7 (w0.lanesOfPath p0) = some 0 ∧
    w0.kind ≠ .handler ∧ (w0.readG2 4 0).toNat % 4 = 0 ∧ Translates s w0 { r := true } (w0.readG2 4 0) 0x1000 0 ∧
    inDev 0x1000 = true ∧ (s.core 0).sq = [] ∧ leNat (s.mem.read 0x1000 4) = n.toNat ∧
    w0.loads = [] ∧
    (let s := { s with waves := (machine v).waves }
     s.tabs = true ∧ s.wave? 0 0 = some v ∧ v.excs = [] ∧ s.pageHeld v 0x1000 = false ∧
     Translates s v { r := true } 0x1000 0x1000 0 ∧ (s.core 0).sq = [] ∧ v.loads = [] ∧ leNat (s.mem.read 0x1000 4) = n.toNat) := by
  simp only [Translates]
  intro n hn
  simp only [List.mem_cons, List.not_mem_nil, or_false] at hn
  rcases hn with rfl | rfl
  all_goals
    refine ⟨?_, clear_of _ rfl rfl, ?_, by decide +kernel, by decide +kernel, by decide +kernel, by decide +kernel, by decide +kernel,
      by decide +kernel, by decide +kernel, by decide +kernel, by decide +kernel, rfl, by decide +kernel⟩
    · apply plain_of <;> decide +kernel
    · apply idle_of <;> decide +kernel

/-- PathSteps: the 64th instruction; two paths that merge; a reconvergence whose lanes all wait; neither; the oldest spilled
path; a wave that is old enough; and a wave that yields, at its time and with nobody left. -/
def path1 : Path := { p0 with mask := 0xF, made := 1 }
def path2 : Path := { p0 with mask := 0xF0, made := 2 }
def wPaths (ps : List Path) (cur : Nat) : Wave := { w0 with paths := ps, cur }
def pairOk (p q : Path) : Bool := p.ready && q.ready && decide (p.made < q.made ∧ p.pc = q.pc ∧ p.join = q.join)
def dueOk (w : Wave) (r : Path) : Bool := r.reconv && r.mask &&& w.live != 0 && (lanesOf (r.mask &&& w.live)).all fun l =>
  w.paths.any fun q => q.waiting && q.join == r.pc && q.mask.getLsbD l
theorem witness_PathSteps_merge : ∀ x ∈ [(wPaths [path1, path2] 2, true, false),
      (wPaths [{ p0 with reconv := true }, { p0 with join := 0x10000, waiting := true, made := 1 }] 1, false, true),
      (wPaths [p0] 0, false, false)],
    let w := x.1
    let s := machine w
    s.wave? 0 0 = some w ∧ s.mayRun w = true ∧ (∀ q ∈ w.paths, q.spill = none) ∧
    (w.paths.any fun p => w.paths.any fun q => pairOk p q) = x.2.1 ∧ w.paths.any (dueOk w) = x.2.2 := by
  decide +kernel
theorem witness_PathSteps_restore :
    let p := { path1 with spill := some 4 }
    let w := { w0 with paths := [{ p0 with waiting := true }, { path2 with spill := some 3 }, p] }
    let s := machine w
    s.wave? 0 0 = some w ∧ s.mayRun w = true ∧ (w.paths.map fun q => q.made).Nodup ∧ (∀ q ∈ w.paths, q.spill = none → q.ready = false) ∧
    p ∈ w.paths ∧ p.ready = true ∧
    (∀ q ∈ w.paths, q.ready = true → q ≠ p → (q.spill.getD 9 < p.spill.getD 0 ∧ q.spill.isSome)) ∧ p.spill ≠ none ∧
    (w.paths.filter fun q => q.spill.isNone).length < 8 := by
  decide +kernel
theorem witness_PathSteps :
    (let w := { w0 with count := 64 }
     (machine w).wave? 0 0 = some w ∧ w.stat = .run) ∧
    (let w := { w0 with stat := .switch, age := 2 ^ 20 }
     let s := machine w
     s.wave? 0 0 = some w ∧ s.readyWave w = true ∧ w.promoted = none ∧ s.threshold w ≤ w.age) ∧
    ∀ x ∈ [(0, [1]), (16, [])],
      let w := { w0 with stat := .yielded x.1 x.2 }
      (machine w).wave? 0 0 = some w ∧ (x.1 ≤ (machine w).clock ∨ x.2 = []) := by
  decide +kernel
/-- SpecialRegisters: the last index, a guard that is false everywhere, and a service core. -/
theorem witness_SpecialRegisters : (17 : BitVec 12).toNat < 18 ∧ s0.groupOf w0 = some group0 ∧ group0.hgd = none ∧
    s0.launch? group0.lid = some launch0 ∧ w0.actsIn 7 (w0.lanesOfPath p0) = some 0 ∧ actsOnce w0 6 p0 = false ∧
    (let w := wSvc [(8, 7)] []
     Plain (svc w) true w p0 ∧ Clear w (waveUse w 7 [(8, 1)] [] [] [] [] []) ∧ w.actsIn 7 (w.lanesOfPath p0) = some 0 ∧
       isService w.core = true) := by
  refine ⟨by decide, by decide +kernel, rfl, by decide +kernel, by decide +kernel, by decide +kernel, ?_, clear_of _ rfl rfl, by decide +kernel⟩
  apply plain_of <;> decide +kernel

/-- TrapsTaken: a wave of each kind, with results outstanding or not; a word that is no instruction. -/
theorem witness_TrapsTaken (u : Use) : ∀ k ∈ [WKind.launched, .handler, .task 0x40 0], ∀ pend ∈ [[], [(⟨.g 9 1, .reply 3, 0, 0⟩ : Pend)]],
    let w := { w0 with kind := k, pend, bad := some 0x002, word := 0x05C0000D }
    let s := machine w
    Plain s true w p0 ∧ Plain s false w p0 ∧ Clear w u ∧ actsOnce w 7 p0 = true ∧ w.actsIn 7 (w.lanesOfPath p0) = some 0 ∧
    w.bad = some 0x002 := by
  intro k hk pend hp
  simp only [List.mem_cons, List.not_mem_nil, or_false] at hk hp
  rcases hk with rfl | rfl | rfl <;> rcases hp with rfl | rfl
  all_goals
    refine ⟨?_, ?_, clear_of _ rfl rfl, by decide +kernel⟩
    all_goals apply plain_of <;> decide +kernel
/-- TrapsTaken, barriers: each cause on the way of BAR.SYNC. -/
def barCause (g : Group) (w : Wave) (n : BitVec 4) : Cause :=
  if w.kind = .handler then 0x300
  else if g.bars ≤ n.toNat then 0x013
  else if (match w.kind with
    | .task _ _ => true
    | _ => false) = true ∨ w.slot ∈ (Tab.get {} g.barriers n.toNat).arrivals then 0x014
  else if w.live &&& ~~~p0.mask ≠ 0 then 0x015
  else 0
theorem witness_TrapsTaken_barriers :
    [barCause group0 { w0 with kind := .handler } 15, barCause { group0 with bars := 15 } w0 15, barCause group0 { w0 with kind := .task 0 0 } 15,
      barCause { group0 with barriers := [(15, { arrivals := [0] })] } w0 15, barCause group0 w0 15] = [0x300, 0x013, 0x014, 0x014, 0x015] ∧
    Tab.get 0 w0.arrived 15 = 0 := by decide +kernel
theorem witness_TrapsTaken_addresses : 31 ∈ lanesOf (w0.acting 7 p0) ∧ w0.helper.getLsbD 31 = false ∧
    mAddr .h 0 ((w0.readG2 8 31).toNat) % sizeBytes .h ≠ 0 ∧ (∀ k ∈ lanesOf (w0.acting 7 p0), mAddr .b 0 (w0.readG 4 k).toNat % sizeBytes .b = 0) ∧
    ¬ fits s0 w0 true (sizeBytes .w) (mAddr .w (-64) (w0.readG 6 31).toNat) ∧ (w0.readG2 8 31).toNat % 4 ≠ 0 := by
  refine ⟨by decide +kernel, by decide +kernel, by decide +kernel, by decide +kernel, fun h => ?_, by decide +kernel⟩
  have := (h.2 rfl).1
  revert this
  decide +kernel
theorem witness_TrapsTaken_hazard :
    let w := { w0 with haz := [.g 10 3] }
    Plain (machine w) false w p0 ∧ (∀ e ∈ w.streams, ∀ r ∈ [((10 : Reg), 1), (11, 1), (9, 1)], covers r e.1 = false) ∧
    w.hazard (laneUse 7 [(10, 1), (11, 1)] [(9, 1)] [] []) (w.acting 7 p0) = some (.g 10 3) := by
  refine ⟨?_, by simp [w0, waveOf], by decide +kernel⟩
  apply plain_of <;> decide +kernel
/-- TrapsTaken, a lane whose guard is pending. -/
theorem witness_TrapsTaken_guard :
    let w := { w0 with haz := [.p 3 7, .g 10 7] }
    let pending := maskOf fun l => (3 : BitVec 3) != 7 && (w.lanesOfPath p0).getLsbD l && w.haz.any fun d => d == .p 3 l
    Plain (machine w) false w p0 ∧ (∀ e ∈ w.streams, ∀ r ∈ [((10 : Reg), 1), (11, 1), (9, 1)], covers r e.1 = false) ∧
    w.acting 3 p0 = 0 ∧ (w.hazard (laneUse 3 [(10, 1), (11, 1)] [(9, 1)] [] []) (w.acting 3 p0 ||| pending)).isSome = true := by
  refine ⟨?_, by simp [w0, waveOf], by decide +kernel⟩
  apply plain_of <;> decide +kernel
/-- TrapsTaken, the floating-point exceptions: a signalling NaN in every lane with NV enabled, as a single and as a double;
and the last result of a wave that waits. -/
def wNan : Wave := { waveOf [(6, 0x7F800001), (7, 0x7FF00001)] [] with fpcr := 0x3F00 }
def exc0 : FpExc := { cause := 0x380, lcls := true, more := false, lanes := 0xFF, pc := 0x10000 }
theorem witness_FloatingTraps (u : Use) (sw : Bool) :
    Plain (machine wNan) sw wNan p0 ∧ Clear wNan u ∧ wNan.excs = [] ∧
    enabledFlags wNan.fpcr (wNan.raised (wNan.acting 7 p0) fun l =>
      (f32.add wNan.rm wNan.ftz (wNan.f32At 6 l) (wNan.f32At 6 l)).2) ≠ 0 ∧
    enabledFlags wNan.fpcr (wNan.raised (wNan.acting 7 p0) fun l =>
      (f64.add wNan.rm false (wNan.f64At 6 l) (wNan.f64At 6 l)).2) ≠ 0 ∧
    (∀ d ∈ [Dst.g 63 31, .fpsr],
      let w := { w0 with stat := .switch, excs := [exc0], pend := [⟨d, .val 1, 0, 0⟩] }
      (machine w).wave? 0 0 = some w ∧ (d.isReg = true ∨ d = .fpsr)) := by
  refine ⟨?_, clear_of _ rfl rfl, rfl, ?_, ?_, ?_⟩
  · apply plain_of
    · decide +kernel
    · decide +kernel
    · rfl
    · decide +kernel
    · decide +kernel
    · rfl
    · rfl
  · decide +kernel
  · decide +kernel
  · decide +kernel

/-- TrapReturn: a service core whose g4 is a token, g6 an action and g8 a value, with a wave that waits. -/
def wEret (tok action : Word) : Wave := { wSvc [(6, action), (8, 0x123)] [] with
  g := ((List.range 32).map fun k => (128 + k, tok)) ++ ((List.range 32).map fun k => (192 + k, action)).filter (fun e => e.2 != 0) ++
    (List.range 32).map fun k => (256 + k, 0x123) }
def wTrapped (kind : Nat) : Wave := { w0 with stat := .trapped ⟨kind, 0x380, 5, 9, 0xFF, 0x10000⟩, prev := .switch }
def sEret (tok action : Word) (kind : Nat) : State := { svc (wEret tok action) with waves := [wEret tok action, wTrapped kind] }
theorem witness_TrapReturn : ∀ x ∈ [(0x50000, 0, 0), (0x50000, 1, 1), (0x50000, 2, 2), (0x50000, 3, 0), (0x50000, 2, 0), (0x50000, 1, 2),
      (0x60000, 0, 0), (0x58000, 0, 0), (0x50000, 5, 0), (0x50002, 0, 0)],
    let w := wEret (BitVec.ofNat 32 x.1) (BitVec.ofNat 32 x.2.1)
    let s := sEret (BitVec.ofNat 32 x.1) (BitVec.ofNat 32 x.2.1) x.2.2
    Plain s false w p0 ∧ Clear w (waveUse w 7 [(8, 1), (4, 1), (6, 1)] [] [] [] [] []) ∧ w.actsIn 7 (w.lanesOfPath p0) = some 0 ∧
    isService w.core = true ∧ (w.readG 4 0).toNat = x.1 ∧ (w.readG 6 0).toNat = x.2.1 ∧ s.wave? 0 0 = some (wTrapped x.2.2) ∧
    s.dying (s.asidOf (wTrapped x.2.2)) = false ∧ s.recsOf (wTrapped x.2.2) = [] ∧ ctx0.killed = none ∧ (wTrapped x.2.2).excs = [] ∧ s.ctx? (s.asidOf (wTrapped x.2.2)) = some ctx0 ∧
    (x.1 = 0x60000 → ∀ v ∈ s.waves, v.waitsOn 0 0 6 = none) := by
  intro x hx
  simp only [List.mem_cons, List.not_mem_nil, or_false] at hx
  rcases hx with rfl | rfl | rfl | rfl | rfl | rfl | rfl | rfl | rfl | rfl
  all_goals
    refine ⟨?_, clear_of _ rfl rfl, by decide +kernel⟩
    apply plain_of <;> decide +kernel

/-- ServiceCores, HALT: no entry that the mask takes, and one between others. -/
def mail0 (kind : Nat) : Mail := ⟨kind, 3, 4, 1, List.replicate 32 9⟩
theorem witness_Halt : ∀ mask ∈ [0, 8, 31], let w := wSvc [(8, BitVec.ofNat 32 mask)] []
    Plain (svc w) false w p0 ∧ Clear w (waveUse w 7 [(8, 1)] [] [] [(16, 2), (24, 8)] [] []) ∧ w.actsIn 7 (w.lanesOfPath p0) = some 0 ∧
    (w.readG 8 0).toNat = mask ∧ mask < 32 ∧ takes mask (mail0 3) ∧ ((svc w).core 160).mail = [] ∧
    (∀ x ∈ [mail0 4], takes mask x → 3 < x.kind) ∧ ∀ x ∈ [mail0 3, mail0 4], takes mask x → 3 ≤ x.kind := by
  intro mask h
  simp only [List.mem_cons, List.not_mem_nil, or_false] at h
  simp only [takes]
  rcases h with rfl | rfl | rfl
  all_goals
    refine ⟨?_, clear_of _ rfl rfl, by decide +kernel⟩
    apply plain_of <;> decide +kernel

/-- ServiceCores, TLBW: an entry in g8 to g11, alone and with a fault record of the cluster. -/
def rec1 : FRec where
  src := 0
  idx := 5
  core := 0
  kind := 0
  access := 0
  asid := 1
  gslot := 0
  slot := 0
  pc := 0x10000
  accs := []
  posted := 0
def wTlbw (t : Word) : Wave := { wSvc [] [] with
  g := (if t = 0 then [] else (List.range 32).map fun k => (192 + k, t)) ++ ((List.range 32).map fun k => (256 + k, (0x1F : Word))) ++
    ((List.range 32).map fun k => (288 + k, (1 : Word))) ++ (List.range 32).map fun k => (320 + k, 0x10000) }
def sTlbw (t : Word) : State := { svc (wTlbw t) with cores := [(0, { ({} : Core) with recs := [rec1] })] }
theorem witness_Tlbw : ∀ t ∈ [(0 : Nat), 2 ^ 31 + 10],
    let w := wTlbw (BitVec.ofNat 32 t)
    let s := { sTlbw 0 with waves := [w, waveOf [] []] }
    let e := (w.readG 8 0).toNat + 2 ^ 32 * (w.readG 9 0).toNat + 2 ^ 64 * (w.readG 10 0).toNat + 2 ^ 96 * (w.readG 11 0).toNat
    Plain s true w p0 ∧ Clear w (waveUse w 7 [(8, 4), (6, 1)] [] [] [] [] []) ∧ w.actsIn 7 (w.lanesOfPath p0) = some 0 ∧
    ((s.cluster (clusterOf w.core)).tlb.filter fun y => y.lock && y.set == (tlbOf e).set).length < 8 ∧
    (w.readG 6 0).toNat = t ∧ s.tlbwBad w.core e t = false ∧ (tlbOf e).watch = false ∧ e % 2 = 1 ∧
    (t ≠ 0 → t / 2 ^ 29 % 4 = 0 ∧ s.rec? (2 * clusterOf w.core + t % 2) (t / 256 % 4) (t / 2 % 128) = some rec1) := by
  intro t h
  simp only [List.mem_cons, List.not_mem_nil, or_false] at h
  rcases h with rfl | rfl
  all_goals
    refine ⟨?_, clear_of _ rfl rfl, by decide +kernel⟩
    apply plain_of <;> decide +kernel

/-- ServiceCores, TLBI of every kind at its range, TLBSYNC with and without records, and the traps outside a service core. -/
theorem witness_Tlbi : ∀ t ∈ [0x10001, 0x7FFFF, 1],
    let w := wSvc [(8, BitVec.ofNat 32 t)] []
    Plain (svc w) true w p0 ∧ Clear w (waveUse w 7 [(4, 2), (8, 1)] [] [] [] [] []) ∧ (w.readG 8 0).toNat = t ∧ t < 2 ^ 19 ∧
    canonical (w.readG2 4 0) = true := by
  intro t h
  simp only [List.mem_cons, List.not_mem_nil, or_false] at h
  rcases h with rfl | rfl | rfl
  all_goals
    refine ⟨?_, clear_of _ rfl rfl, by decide +kernel⟩
    apply plain_of <;> decide +kernel
theorem witness_Tlbsync :
    let w := wSvc [] []
    let s := { svc w with tlbis := [{ id := 3, by_ := 160, cluster := 0, asid := 1, kind := 1, va := 0, acted := true }] }
    Plain s true w p0 ∧ Clear w (noUse w 7) ∧ actsOnce w 7 p0 = true ∧ (∀ x ∈ s.tlbis, x.by_ = w.core → x.acted = true) ∧
    (∀ e ∈ s.cores, s.syncTodos (s.tlbis.filter fun x => x.by_ == w.core) e.1 = []) ∧ isService w0.core = false := by
  refine ⟨?_, clear_of _ rfl rfl, by decide +kernel⟩
  apply plain_of <;> decide +kernel

/-- CacheOperations: a line, and a way that the context has and one that it has not. -/
theorem witness_CacheOperations : Translates s0 w0 {} (w0.readG2 4 0) 0x1000 0 ∧ inDev 0x1000 = true ∧
    apart w0 (entriesOf s0 w0 p0 [] [] (fun _ => (0x1000, 0)) [(0, w0.readG2 4 0, .cache true)]) ∧ actsOnce w0 6 p0 = false ∧
    ∀ x ∈ [(0x74F, 0), (0x74F, 2), (0x50, 2), (0x80, 2), (0x800, 2)],
      let w := waveOf [(8, BitVec.ofNat 32 x.1)] []
      let s := { machine w with ways := if x.2 = 0 then [] else [(639, 2)], locks := [(639, 2)] }
      Plain s true w p0 ∧ Clear w (waveUse w 7 [(8, 1)] [] [] [] [] []) ∧ (w.readG 8 0).toNat = x.1 ∧ Tab.wf 0 s.locks = true ∧
      (x.1 = 0x74F → Tab.get 0 s.ways (8 * (x.1 % 128) + x.1 / 256 % 8) = x.2) ∧ s.asidOf w + 1 = 2 := by
  simp only [Translates]
  refine ⟨by decide +kernel, by decide +kernel, apart_of _ (by decide +kernel), by decide +kernel, fun x hx => ?_⟩
  simp only [List.mem_cons, List.not_mem_nil, or_false] at hx
  rcases hx with rfl | rfl | rfl | rfl | rfl
  all_goals
    refine ⟨?_, clear_of _ rfl rfl, by decide +kernel⟩
    apply plain_of <;> decide +kernel

/-- FetchFaults: no entry for the page of the PC. -/
theorem witness_FetchFaults :
    let p := { p0 with pc := 0x40000000 }
    let w := { w0 with paths := [p] }
    let s := machine w
    Plain s false w p ∧ w.lanesOfPath p ≠ 0 ∧ canonical p.pc = true ∧ s.pageHeld w p.pc = false ∧ (isService w.core && p.pc.msb) = false ∧
    (∀ e ∈ (s.cluster (clusterOf w.core)).tlb, e.hits (s.asidOf w) p.pc = false) ∧
    (∀ e ∈ (s.core w.core).tlb, e.2.hits (s.asidOf w) p.pc = false) ∧ (s.freeRec w.core 0).isSome := by
  refine ⟨?_, by decide +kernel⟩
  apply plain_of <;> decide +kernel
theorem xReady_of {s : State} {w : Wave} {p : Path} (sw : Bool) (srcs dsts : List (Reg × Nat)) (h1 : Plain s sw w p)
    (h2 : w.lanesOfPath p &&& ~~~w.helper ≠ 0) (h3 : w.haz = []) : XReady s sw w p srcs dsts :=
  ⟨h1, h2, fun m => by simp [Wave.hazard, h3]⟩
theorem xReady0 (sw : Bool) (srcs dsts : List (Reg × Nat)) : XReady s0 sw w0 p0 srcs dsts :=
  xReady_of sw srcs dsts (plain0 sw) (by decide +kernel) rfl

/-- Copies, commands: one that is good, one of no bytes, and one that is forbidden. -/
def wCopy (ctl : Word) (ext : DWord) : Wave := { waveOf [] [(12, ctl)] with
  cd := [(0, 0x8000), (1, 0x100), (2, ext), (3, 0x0000000900000007), (4, 0x0000000500000010), (5, 0x0000002800000014), (7, 0x32)] }
theorem witness_Copies_commands : ∀ x ∈ [(0x13, 0x0002000300050004, false), (0x13, 0x0002000300050000, false), (0x93, 0x0002000300050004, true)],
    let w := wCopy x.1 x.2.1
    let s := machine w
    XReady s true w p0 [(12, 1)] [(5, 1)] ∧ (latched s w p0 0 (w.readW 12)).bad (w.readW 12) (s.groupBars w) (s.localLimit w) = x.2.2 ∧
    (Tab.get 0 w.cd 7).toNat < 256 ∧ (s.core w.core).copies.length < 128 := by
  intro x hx
  simp only [List.mem_cons, List.not_mem_nil, or_false] at hx
  rcases hx with rfl | rfl | rfl
  all_goals
    refine ⟨xReady_of _ _ _ ?_ (by decide +kernel) rfl, by decide +kernel⟩
    apply plain_of <;> decide +kernel
theorem witness_Copies_status : ∀ k ∈ [(1 : Word), 2], let w := waveOf [] [(12, k)]
    XReady (machine w) false w p0 [(12, 1)] [(5, 1)] ∧ w.readW 12 = k := by
  intro k hk
  simp only [List.mem_cons, List.not_mem_nil, or_false] at hk
  rcases hk with rfl | rfl
  all_goals
    refine ⟨xReady_of _ _ _ ?_ (by decide +kernel) rfl, by decide +kernel⟩
    apply plain_of <;> decide +kernel
/-- Copies, elements: the last element of a copy of four dimensions, that is still to be read and that has been read, and a
copy that has moved every element. -/
def copy0 (next : Nat) : Copy := { latched s0 (wCopy 0x13 0x0002000300050004) p0 0 0x13 with needs := [], next }
def sCopy (next : Nat) (parts : List CopyElem) : State := { s0 with
  agenda := [⟨3, .element 0 0 119⟩]
  groups := [{ group0 with barriers := [(3, { bytes := 480 })] }]
  cores := [(0, { ({} : Core) with copies := [{ copy0 next with parts }] })] }
theorem witness_Copies_elements : ∀ bs ∈ [[], [(1 : Byte), 2, 3, 4]],
    let parts : List CopyElem := if bs = [] then [] else [⟨119, bs, 0⟩]
    let x := { copy0 0 with parts }
    let s := sCopy 0 parts
    let n := 2 ^ (x.geo.toNat % 8)
    let cd (i : Nat) : DWord := x.cd.getD i 0
    let ext (i : Nat) : Nat := if i ≤ x.geo.toNat / 16 % 4 then cdField (cd 2) (16 * i) 16 else 1
    let src := (cd 0) + BitVec.ofInt 64
      (displacement n (ext 0) (ext 1) (ext 2) (signedHalf (cd 3) 0) (signedHalf (cd 3) 1) (signedHalf (cd 4) 0) 119)
    let off := ((cd 1).toNat : Int) +
      displacement n (ext 0) (ext 1) (ext 2) (signedHalf (cd 4) 1) (signedHalf (cd 5) 0) (signedHalf (cd 5) 1) 119
    s.stopped = false ∧ (s.core 0).copies[0]? = some x ∧ x.fn = 0 ∧ x.held = false ∧ x.needs = [] ∧ x.cd.length = 7 ∧
    x.next ≤ 119 ∧ 119 ∉ x.moved ∧ 119 < ext 0 * ext 1 * ext 2 * ext 3 ∧ n ≤ 16 ∧ 0 ≤ off ∧ off + n ≤ 2 ^ 18 ∧ x.gslot < 32 ∧
    ((x.parts.find? fun e => e.j == 119).map fun e => e.bytes).getD [] = bs ∧ (bs.length < n ∨ (bs.length = n ∧ 0 + min 8 n ≤ n)) ∧
    EngineReaches s 0 x.asid { r := true } (src + BitVec.ofNat 64 0) src.toNat 0 ∧ inDev src.toNat = true ∧ (s.group? 0 0).isSome ∧
    (s.groups.all Group.wf) = true ∧ s.tabs = true := by
  simp only [EngineReaches]
  decide +kernel
theorem witness_Copies_end :
    let x := copy0 120
    let s := sCopy 120 []
    (s.core 0).copies[0]? = some x ∧ x.held = false ∧ x.total = x.next ∧ (s.groups.all Group.wf) = true ∧ s.tabs = true ∧
    ((s.group? 0 x.gslot).map fun g => (Tab.get ({} : Barrier) g.barriers (x.ctl.toNat % 16)).bytes - (x.bytes : Int)) = some 0 := by
  decide +kernel

/-- MatrixSteps, commands: an inbox with room, a full one, and a service core. -/
def packet0 (fn : Nat) (wa wb : Word) : MPkt := { packetOf s0 w0 p0 fn none none false [] with wa, wb }
def engine (n : Nat) (f : FCtx) : State := { machine (waveOf [] []) with
  clusters := [(0, { ({} : Cluster) with tlb := [tlb0], fctx := if n = 0 then [f, {}, {}, {}] else [{}, {}, f, {}] })] }
theorem witness_MatrixCommands :
    (∀ n ∈ [31, 32], let w := waveOf [] []
      let s := engine 0 { inbox := List.replicate n (packet0 8 1 0) }
      XReady s true w p0 [(10, 2), (12, 1)] [(5, 1)] ∧ isService w.core = false ∧
      (s.fctx (clusterOf w.core) (2 * (w.core % 2) + if w.kind = .handler then 1 else 0)).inbox.length = n) ∧
    (let w := wSvc [] []
     XReady (svc w) false w p0 [(10, 2), (12, 1)] [(5, 1)] ∧ isService w.core = true ∧ (w.readW 12).toNat < 65536) := by
  refine ⟨fun n hn => ?_, xReady_of _ _ _ ?_ (by decide +kernel) rfl, by decide +kernel⟩
  · simp only [List.mem_cons, List.not_mem_nil, or_false] at hn
    rcases hn with rfl | rfl
    all_goals
      refine ⟨xReady_of _ _ _ ?_ (by decide +kernel) rfl, by decide +kernel⟩
      apply plain_of <;> decide +kernel
  · apply plain_of <;> decide +kernel

def oper0 : Oper where
  fmt := 4
  spk := 0
  elems := List.replicate 32 (List.replicate 64 3)
  exps := []
  masks := []
theorem next_of {f : FCtx} {m : MPkt} (h1 : f.inbox = [m]) (h2 : m.held = false) (h3 : m.done = 0) (h4 : m.needs = []) (h5 : f.frozen = none) :
    MxNext (engine 2 f) 0 2 f m := by
  have h : (engine 2 f).cluster 0 = { ({} : Cluster) with tlb := [tlb0], fctx := [{}, {}, f, {}] } := rfl
  refine ⟨?_, by decide, by rw [h]; rfl, by simp [State.fctx, h], ⟨[], h1⟩, h2, h3, h4, ?_, h5⟩
  · have : (engine 2 f).clusters = [(0, { ({} : Cluster) with tlb := [tlb0], fctx := [{}, {}, f, {}] })] := rfl
    have hc : (engine 2 f).cores = [] := rfl
    simp only [State.tabs, this, hc, Tab.wf]
    simp [tlb0]
  · intro j hj hne
    have : j = 0 ∨ j = 1 ∨ j = 3 := by omega
    rcases this with rfl | rfl | rfl <;> simp [State.fctx, h]
/-- MatrixSteps, the engine: MX.CTX for a context that is free, owned and another's; a command of another group; MX.ZERO of every
tile; and MX.MMA from and to the last tile. -/
theorem witness_MatrixEngine :
    (∀ o ∈ [none, some 0, some 5], let m := packet0 0 0 0
      let f : FCtx := { owner := o, inbox := [m] }
      MxNext (engine 2 f) 0 2 f m ∧ ownerOf m = some 0) ∧
    (let m := packet0 0x10 0 0
     let f : FCtx := { owner := some 3, inbox := [m] }
     MxNext (engine 2 f) 0 2 f m ∧ f.owner ≠ ownerOf m) ∧
    (let m := packet0 8 0xFFFF 0
     let f : FCtx := { owner := some 0, inbox := [m] }
     MxNext (engine 2 f) 0 2 f m ∧ f.owner = ownerOf m ∧ m.wa.toNat < 65536) ∧
    (let m := packet0 3 15 15
     let f : FCtx := { owner := some 0, inbox := [m], mc := [(0, 4)], latch := some oper0, bbuf := some oper0 }
     MxNext (engine 2 f) 0 2 f m ∧ f.owner = ownerOf m ∧ f.fmt = 4 ∧ f.spk = 0 ∧ m.wa.toNat < 16 ∧ m.wb.toNat < 16 ∧
     oper0.elems.length = 32 ∧ ∀ x ∈ oper0.elems, x.length = 64) := by
  refine ⟨fun o _ => ⟨next_of rfl rfl rfl rfl rfl, rfl⟩, ⟨next_of rfl rfl rfl rfl rfl, by decide +kernel⟩,
    ⟨next_of rfl rfl rfl rfl rfl, by decide +kernel⟩, next_of rfl rfl rfl rfl rfl, by decide +kernel⟩
/-- EngineCommandsAndRegisters: the commands of a wave, and TR.LAUNCH and LAUNCH that a turn of their engine takes. -/
theorem witness_EngineCommands (sw : Bool) : XReady s0 sw w0 p0 [(4, 2), (6, 1)] [(5, 1)] ∧
    ∀ x ∈ [(0x3B, 0x1000, 0xFFFFF), (0x3B, 0x1020, 1), (0x3B, 0x1000, 0x100000), (0x3E, 0x1001, 0)],
      let m := { commandOf s0 w0 p0 x.1 0 5 x.2.1 x.2.2 [] with id := 3 }
      let s := { s0 with agenda := [⟨0, .command 3⟩], cmds := [m] }
      s.agenda = ⟨0, .command m.id⟩ :: [] ∧ s.stopped = false ∧ s.tabs = true ∧ s.cmds = [m] ∧ m.held = false ∧ m.fn = 0 := by
  refine ⟨xReady0 sw _ _, ?_⟩
  decide +kernel

/-- EngineCommandsAndRegisters: PRIO, and ENGW and ENGR of the last register of each kind, of an mc register with an inbox with
room and full, and of an index that names none. -/
theorem witness_EngineRegisters : ∀ n ∈ [0xF, 0x21, 0x30, 0x4F, 0x9F, 0x10, 0x50, 0xA0],
    let w := waveOf [] [(12, BitVec.ofNat 32 n)]
    XReady (machine w) true w p0 [(4, 2), (12, 1)] [(5, 1)] ∧ XReady (machine w) true w p0 [(12, 1)] [(6, 2)] ∧ (w.readW 12).toNat = n ∧
    (n ∈ [0xF, 0x21, 0x30, 0x4F] → waveIndex n) ∧ (n ∈ [0x10, 0x50, 0xA0] → ¬ waveIndex n) ∧ isService w.core = false ∧
    (((engine 0 { inbox := List.replicate 32 (packet0 8 1 0) }).fctx 0 0).inbox.length = 32) := by
  intro n hn
  simp only [List.mem_cons, List.not_mem_nil, or_false] at hn
  simp only [waveIndex]
  rcases hn with rfl | rfl | rfl | rfl | rfl | rfl | rfl | rfl
  all_goals
    refine ⟨xReady_of _ _ _ ?_ (by decide +kernel) rfl, xReady_of _ _ _ ?_ (by decide +kernel) rfl, by decide +kernel⟩
    all_goals apply plain_of <;> decide +kernel

/-- Forks: a handler wave, a misaligned PC, an empty mask, no task waves, a full deque, no counter, and a counter. -/
def wFork (pc mask : Word) (join : DWord) (k : WKind) : Wave := { waveOf [] [(10, pc), (12, mask)] with fjoin := join, kind := k }
def sFork (w : Wave) (taskw n : Nat) : State := { machine w with
  groups := [{ group0 with taskw }]
  cores := if n = 0 then [] else [(0, { ({} : Core) with deque := List.replicate n (forked s0 w0 true 0 0) })] }
theorem witness_Forks : ∀ x ∈ [(wFork 0x4000 1 0 .handler, 2, 0), (wFork 0x4001 1 0 .launched, 2, 0), (wFork 0x4000 0 0 .launched, 2, 0),
      (wFork 0x4000 1 0 .launched, 0, 0), (wFork 0x4000 1 0 .launched, 2, 512), (wFork 0x4000 1 3 .launched, 2, 511)],
    XReady (sFork x.1 x.2.1 x.2.2) true x.1 p0 [(10, 2), (12, 1), (8, 8)] [(5, 1)] ∧ isService x.1.core = false ∧
    (sFork x.1 x.2.1 x.2.2).group? 0 0 = some { group0 with taskw := x.2.1 } ∧
    ((sFork x.1 x.2.1 x.2.2).core 0).deque.length = x.2.2 := by
  intro x hx
  simp only [List.mem_cons, List.not_mem_nil, or_false] at hx
  rcases hx with rfl | rfl | rfl | rfl | rfl | rfl
  all_goals
    refine ⟨xReady_of _ _ _ ?_ (by decide +kernel) ?_, by decide +kernel⟩
    · apply plain_of <;> decide +kernel
    · decide +kernel
theorem witness_Forks_makes : let w := wFork 0x4000 1 3 .launched
    let s := sFork w 2 511
    ¬ dequeFull s w.core ∧ w.kind ≠ .handler ∧ (w.readW2 10).toNat % 4 = 0 ∧ w.readW 12 ≠ 0 ∧ w.fjoin &&& ~~~3 = 0 := by
  simp only [dequeFull]
  decide +kernel
theorem witness_Forks_counter : let w := { waveOf [] [(10, 0x4000), (12, 1)] with fjoin := 0x3FFFFFFF }
    let s := machine w
    Idle s w ∧ w.fjoin &&& ~~~3 ≠ 0 ∧ Reaches s w (.rmw .addSi32 1 0 false []) (w.fjoin &&& ~~~3) 0x3FFFFFFC 0 ∧ inDev 0x3FFFFFFC = true ∧
    apart w [joinEntry s w p0 0x3FFFFFFC] := by
  simp only [Reaches, Translates]
  refine ⟨?_, by decide +kernel, by decide +kernel, by decide +kernel, apart_of _ (by decide +kernel)⟩
  apply idle_of <;> decide +kernel

/-- MessageSends, for each form: a reserved bit, a foreign class, a retry of a handler, a foreign core, no core, and a send to the
last core. -/
def wSend (a b : Word) (k : WKind) (ms0 ms1 : DWord) : Wave := { waveOf [] [(16, a), (20, b)] with kind := k, ms0, ms1 }
def sSend (w : Wave) (routes : Tab (BitVec 16)) (parts : Tab Nat) : State := { machine w with routes, parts }
theorem witness_MessageSends : ∀ x ∈ [(wSend 0 0x10000 .launched 0 0, [], []), (wSend 0 0x0F9F .launched 0 0, [(15, 0x0100)], []),
      (wSend 0 0x2000 .handler 0 0, [], []), (wSend 0 0x0F9F .launched 0 0, [], [(79, 1)]), (wSend 0 0x8000 .launched 1 0x8000, [], [(79, 1)]),
      (wSend 0 0x8000 .launched 0 0, [], []), (wSend 0x3FFFC 0x0F9F .launched 0 0, [], []), (wSend 0x400FC00 0x0F9F .launched 0 0, [], []),
      (wSend 0 0x8F00 .launched 1 0x8000, [], [])],
    let s := sSend x.1 x.2.1 x.2.2
    XReady s true x.1 p0 [(16, 16), (20, 1)] [(5, 1)] ∧ XReady s true x.1 p0 [(16, 1), (20, 1)] [(5, 1)] ∧ senderPart s x.1 = 0 ∧
    senderLocal s x.1 = 65536 := by
  intro x hx
  simp only [List.mem_cons, List.not_mem_nil, or_false] at hx
  rcases hx with rfl | rfl | rfl | rfl | rfl | rfl | rfl | rfl | rfl
  all_goals
    refine ⟨xReady_of _ _ _ ?_ (by decide +kernel) ?_, xReady_of _ _ _ ?_ (by decide +kernel) ?_, by decide +kernel⟩
    · apply plain_of <;> decide +kernel
    · decide +kernel
    · apply plain_of <;> decide +kernel
    · decide +kernel

/-- MessageControl: a reserved bit and none, of each command, on a SIMT core and on a service core. -/
theorem witness_MessageControl : ∀ b ∈ [(0x10000 : Word), 0xFFFF, 0x2000000, 0x80009F, 0x60009F], let w := wSend 0 b .launched 0 (0x10000 * 0x3FFFC)
    let v := wSvc [] [(8, 0x1000), (20, b)]
    XReady (machine w) true w p0 [(16, 16), (20, 1)] [(5, 1)] ∧ XReady (machine w) false w p0 [(20, 1)] [(5, 1)] ∧
    XReady (machine w) false w p0 [] [(5, 1)] ∧ XReady (svc v) false v p0 [(8, 2), (20, 1)] [(5, 1)] ∧ isService v.core = true ∧ w.readW 20 = b := by
  intro b hb
  simp only [List.mem_cons, List.not_mem_nil, or_false] at hb
  rcases hb with rfl | rfl | rfl | rfl | rfl
  all_goals
    refine ⟨xReady_of _ _ _ ?_ (by decide +kernel) rfl, xReady_of _ _ _ ?_ (by decide +kernel) rfl,
      xReady_of _ _ _ ?_ (by decide +kernel) rfl, xReady_of _ _ _ ?_ (by decide +kernel) rfl, by decide +kernel⟩
    all_goals apply plain_of <;> decide +kernel

/-- A group with an image of `count` stops in slot 3, whose stops lie in cluster `k`, and the same image at 0x100. -/
def imgAt (base k : Nat) (count : Byte) : Memory := [(base + 17, count), (base + 18, 1), (base + 25, 0x10)] ++
  ((List.range 8).map fun i => (if k = 0 then [] else [(base + 64 + 8 * i, BitVec.ofNat 8 k)]) ++ [(base + 65 + 8 * i, (3 : Byte))]).flatten
def image0 (k : Nat) (count : Byte) : Memory := imgAt 0x100 k count ++ imgAt 0xEF00 k count
def slot0 (index count : Nat) : CSlot where
  id := 77
  origin := 9
  asid := 1
  flags := 4
  index := index
  count := count
  len := 1
  cls := 3
  seq := 2
  owner := some 0
def gCap (k index count : Nat) : Group :=
  { group0 with loc := image0 k (BitVec.ofNat 8 count), caps := [(3, some (slot0 index count))] }
def sCap (w : Wave) (k index count : Nat) : State := { machine w with groups := [gCap k index count], parts := [(5, 1)] }
theorem localReady_of {s : State} {w : Wave} {g : Group} (h1 : s.group? w.core w.gslot = some g) (h2 : g.wf = true) (h3 : w.core < 160)
    (h4 : w.gslot < 32) (h5 : g.localkb ≤ 256) (h6 : Idle s w) (h7 : w.loads = []) (h8 : (s.core w.core).sq = []) : LocalReady s w g :=
  ⟨h1, h2, h3, h4, h5, h6, h7, by simp [h8]⟩
/-- NewCapsules: a bad control word, a bad image, a stop that is not legal, one that may not be sent to, and a good one. -/
theorem witness_NewCapsules : ∀ x ∈ [(2, 0, 3), (0, 0, 9), (0, 80, 3), (0, 5, 3), (1, 79, 8)],
    let w := waveOf [] [(10, 0x100), (12, BitVec.ofNat 32 x.1)]
    let s := sCap w x.2.1 0 x.2.2
    let g := gCap x.2.1 0 x.2.2
    XReady s true w p0 [(10, 1), (12, 1)] [(5, 1)] ∧ LocalReady s w g ∧ isService w.core = false ∧ (w.readW 10).toNat = 0x100 ∧
    (w.readW 12).toNat = x.1 ∧ localField g (0x100 + 17) 1 = x.2.2 ∧ localField g (0x100 + 18) 2 = 1 ∧
    (BitVec.ofNat 64 (localField g (0x100 + 24) 8) : DWord) = 0x1000 ∧ (imageStop g 0x100 0).toNat = 0x300 + x.2.1 := by
  intro x hx
  simp only [List.mem_cons, List.not_mem_nil, or_false] at hx
  rcases hx with rfl | rfl | rfl | rfl | rfl
  all_goals
    refine ⟨xReady_of _ _ _ ?_ (by decide +kernel) rfl, localReady_of ?_ ?_ ?_ ?_ ?_ ?_ ?_ ?_, by decide +kernel⟩
    · apply plain_of <;> decide +kernel
    all_goals try decide +kernel
    · apply idle_of <;> decide +kernel

/-- SlotCommands, in the last slot: a first and a last stop, an edit at each end, and the stops of the five cases above. -/
theorem witness_SlotCommands : ∀ x ∈ [(0x13, 0, 0, 3), (0x13, 80, 0, 3), (0x13, 5, 0, 3), (0x1F, 79, 0, 8), (0x83, 79, 2, 3), (0x73, 79, 6, 8),
      (0xFFF, 79, 0, 3)],
    let w := waveOf [] [(10, BitVec.ofNat 32 x.1), (12, 0x34F)]
    let s := sCap w x.2.1 x.2.2.1 x.2.2.2
    let g := gCap x.2.1 x.2.2.1 x.2.2.2
    LocalReady s w g ∧ isService w.core = false ∧ XReady s true w p0 [(10, 1)] [(5, 1)] ∧ XReady s true w p0 [(10, 1), (12, 2)] [(5, 1)] ∧
    (w.readW 10).toNat = x.1 ∧ g.cslots = 4 ∧ 4352 * g.cslots ≤ 1024 * g.localkb ∧
    Tab.get none g.caps 3 = some (slot0 x.2.2.1 x.2.2.2) ∧ (slot0 x.2.2.1 x.2.2.2).owner = some w.slot ∧ slotAt g 3 = 0xEF00 := by
  intro x hx
  simp only [List.mem_cons, List.not_mem_nil, or_false] at hx
  rcases hx with rfl | rfl | rfl | rfl | rfl | rfl | rfl
  all_goals
    refine ⟨localReady_of ?_ ?_ ?_ ?_ ?_ ?_ ?_ ?_, by decide +kernel, xReady_of _ _ _ ?_ (by decide +kernel) rfl,
      xReady_of _ _ _ ?_ (by decide +kernel) rfl, by decide +kernel⟩
    all_goals try decide +kernel
    · apply idle_of <;> decide +kernel
    all_goals apply plain_of <;> decide +kernel
/-! ### Messages, handlers and capsules that arrive -/

def ph (body : PBody) : Packet :=
  { id := 90, dest := 0, src := 33, slot := 4, asid := 1, cls := 2, vc := 1, seq := 5, body, needs := [] }
def mm (long : Bool) (n : Nat) : Msg :=
  { asid := 1, cls := 2, src := 33, slot := 4, long, mcast := false, wk := false, payload := List.replicate n 7, seq := 5 }
def send0 (retry : Bool) (dst : Reg) : Send :=
  { cmd := 44, core := 0, slot := 0, gslot := 0, dst, retry, mcast := false, left := 1, worst := 0, refused := [], asid := 1
    pc := 0x10000, lid := 0 }
def wRep : Wave := { waveOf [] [] with pend := [⟨.w 5, .reply 44, 0, 0⟩] }
def netOf (net : List Packet) (c : Core) : State := { machine wRep with
  net
  cores := if c = {} then [] else [(0, c)] }

theorem mayQueue_of {s : State} {core : Nat} {m : Msg} (h1 : ∃ g ∈ s.groups, g.core = core ∧ g.asid = m.asid)
    (h2 : (s.core core).htab = [])
    (h3 : ((s.core core).inq.filter fun x => x.cls = m.cls).length < 32)
    (h4 : (((s.core core).inq.map fun x : Msg => Claims.chunksOf x.payload.length).sum +
      ((s.core core).held.map fun x : Caps => Claims.chunksOf (128 + 256 * x.len)).sum) + Claims.chunksOf m.payload.length ≤ 256) : mayQueue s core m :=
  ⟨h1, h3, h4, by rintro ⟨k, h, hk, -⟩; simp [h2] at hk⟩
theorem comes_of {s : State} {p : Packet} (h : s.net = [p]) (h1 : s.tabs = true) (h2 : p.hold = false)
    (h3 : p.notBefore ≤ s.clock) (h4 : p.needs = []) : Comes s p :=
  ⟨h1, ⟨[], h, by simp⟩, h2, h3, h4⟩
theorem arrives_of {s : State} {p : Packet} (h : s.net = [p]) (h1 : s.tabs = true) (h2 : p.hold = false)
    (h3 : p.notBefore ≤ s.clock) (h4 : p.needs = []) (h5 : p.pull = none) : Arrives s p :=
  ⟨comes_of h h1 h2 h3 h4, h5⟩

/-- MessageArrivals, a message: with room for one more, with 32 of its class, and with room in no ring. -/
theorem witness_MessageArrivals_room : let p := ph (.msg (mm false 64) 44)
    let s := netOf [p] { inq := List.replicate 31 (mm false 64) }
    Arrives s p ∧ mayQueue s p.dest (mm false 64) := by
  exact ⟨arrives_of rfl (by decide +kernel) rfl (by decide) rfl rfl, by apply mayQueue_of <;> decide +kernel⟩
theorem witness_MessageArrivals_full : ∀ x ∈ [(16, 64), (0, 64)],
    let m := mm false x.2
    let p := ph (.msg m 44)
    let s := { netOf [p] { inq := List.replicate 32 m } with ctxs := [{ ctx0 with ovkb := x.1 }], sends := [send0 true 5] }
    Arrives s p ∧ ¬ mayQueue s p.dest m ∧ (∃ c, s.ctx? m.asid = some c ∧ c.ovkb = x.1 ∧
      Unwatched s (c.movbase + p.dest * c.ovkb * 1024) 128 ∧ inDev (c.movbase + p.dest * c.ovkb * 1024) = true) ∧
    assoc (s.core p.dest).ovf m.asid = none ∧ Memory.wf s.mem ∧ m.payload.length ≤ 4096 ∧
    (overflowRecord p m).length = 128 := by
  intro x hx
  simp only [List.mem_cons, List.not_mem_nil, or_false] at hx
  rcases hx with rfl | rfl
  all_goals
    refine ⟨arrives_of rfl (by decide +kernel) rfl (by decide) rfl rfl, ?_, ⟨_, rfl, rfl, ?_, by decide +kernel⟩, by decide +kernel⟩
    · rintro ⟨-, h, -⟩
      exact absurd h (by decide +kernel)
    · constructor <;> decide +kernel

/-- MessageArrivals, mail: with 63 entries and with 64. -/
theorem witness_MessageArrivals_mail : ∀ n ∈ [63, 64],
    let p := { ph (.mail 1 0 3 1 []) with dest := 160 }
    let s := { netOf [p] {} with cores := [(160, { ({} : Core) with mail := List.replicate n ⟨1, 0, 3, 1, []⟩ })] }
    Arrives s p ∧ (s.core p.dest).mailWait = [] ∧ (s.core p.dest).mail.length = n := by
  intro n hn
  simp only [List.mem_cons, List.not_mem_nil, or_false] at hn
  rcases hn with rfl | rfl
  all_goals exact ⟨arrives_of rfl (by decide +kernel) rfl (by decide) rfl rfl, by decide +kernel⟩

/-- MessageArrivals, an answer: of a retry that is refused, and of one that ends its send. -/
theorem witness_MessageArrivals_reply : ∀ x ∈ [(true, 2), (true, 0), (false, 2)],
    let p := ph (.reply 44 x.2 33)
    let s := { netOf [p, { ph (.msg (mm false 64) 44) with id := 91, dest := 33, src := 0, hold := true }] {} with
      sends := [send0 x.1 5] }
    (∃ rest, s.net = p :: rest ∧ ∀ q ∈ rest, q.id ≠ p.id) ∧
    s.sends.find? (fun y => y.cmd == 44) = some (send0 x.1 5) ∧
    (x = (true, 2) ∨ (x.2 = 2 → (send0 x.1 5).retry = false ∧ (send0 x.1 5).dst ≠ 0)) := by
  intro x hx
  simp only [List.mem_cons, List.not_mem_nil, or_false] at hx
  rcases hx with rfl | rfl | rfl
  all_goals exact ⟨⟨_, rfl, by decide +kernel⟩, by decide +kernel⟩

/-- MessageArrivals, a retry that is due. -/
theorem witness_MessageArrivals_retry :
    let p := { ph (.msg (mm false 64) 44) with hold := true, notBefore := 64 }
    let s := { netOf [p] {} with clock := 64 }
    s.net[0]? = some p ∧ p.hold = true ∧ p.notBefore ≠ 0 ∧ p.notBefore ≤ s.clock := by
  decide +kernel

/-- MessageArrivals, a wake: up to the end of group-local memory with the last barrier, one byte past it, and of another gang. -/
theorem witness_MessageArrivals_wake : ∀ x ∈ [(15, 65536 - 4, 0), (15, 65536 - 3, 0), (16, 0, 0), (0, 0, 1)],
    let p := ph (.wake 0 x.1 x.2.1 [1, 2, 3, 4] 44 0 x.2.2 false)
    let s := { netOf [p] {} with sends := [send0 false 5] }
    Arrives s p ∧ s.sends.find? (fun y => y.cmd == 44) = some (send0 false 5) ∧ s.group? p.dest 0 = some group0 ∧ group0.wf = true ∧
    ((x = (15, 65536 - 4, 0)) ↔ (x.2.2 = group0.gang ∧ x.1 < group0.bars ∧ x.2.1 + 4 ≤ 1024 * group0.localkb)) ∧
    -2 ^ 35 ≤ (Tab.get ({} : Barrier) group0.barriers x.1).bytes - 4 := by
  intro x hx
  simp only [List.mem_cons, List.not_mem_nil, or_false] at hx
  rcases hx with rfl | rfl | rfl | rfl
  all_goals exact ⟨arrives_of rfl (by decide +kernel) rfl (by decide) rfl rfl, by decide +kernel⟩

/-- MessageArrivals, a record of a ring. -/
theorem witness_MessageArrivals_record : let s := netOf [] { ovf := [(1, [⟨0, 128, some (mm false 64), none, false⟩])] }
    s.tabs = true ∧ assoc (s.core 0).ovf 1 = some [⟨0, 128, some (mm false 64), none, false⟩] ∧ mayQueue s 0 (mm false 64) := by
  exact ⟨by decide +kernel, by decide +kernel, by apply mayQueue_of <;> decide +kernel⟩

def hg (caps : Tab (Option CSlot)) : Group :=
  { group0 with gslot := 3, slots := [8, 9], hgd := some 0, localkb := 20, blocks := 2, fpcr := 5, caps }
def he : HEntry := ⟨0x5000, 3, 2, true⟩
def hState (g : Group) (c : Core) : State := { machine (waveOf [] []) with
  groups := [group0, g]
  clock := 77
  cores := [(0, { c with htab := [(18, some he)], l1 := [(3, [])] })] }
def xs (k : Nat) : CSlot :=
  { id := 0x7700001234, origin := 9, asid := 1, flags := 4, index := k, count := 3, len := 2, cls := 2, seq := 2, owner := none }
theorem handlerFree_of {s : State} {g : Group} {e : HEntry} {cls slot : Nat}
    (place : s.tabs = true ∧ s.group? g.core g.gslot = some g ∧ g.wf = true ∧ g.hgd.isSome = true)
    (calm : (s.core g.core).sq = [] ∧ (s.core g.core).recs = [] ∧ (s.core g.core).batches = [])
    (slots : g.slots.head? = some slot ∧ ∀ k ∈ g.slots, s.wave? g.core k = none)
    (runs : s.runsOn g.asid g.core = true ∧ isService g.core = false)
    (entry : Tab.get none (s.core g.core).htab (16 * g.asid + cls) = some e ∧ e.en = true ∧ e.hgroup = g.gslot) :
    HandlerFree s g e cls slot := by
  unfold HandlerFree
  simp [place, calm, slots, runs, entry]
  exact slots.2

/-- HandlerStarts, a message: short, long with nothing, and one word longer than its registers hold. -/
theorem witness_HandlerStarts : ∀ m ∈ [mm false 64, mm true 0, mm true (1024 + 4)],
    let s := hState (hg []) { inq := [m] }
    HandlerFree s (hg []) he m.cls 8 ∧ (s.core 0).inq = [m] ∧ (hg []).caps = [] ∧ m.asid = (hg []).asid ∧ m.payload.length % 4 = 0 := by
  intro x hx
  simp only [List.mem_cons, List.not_mem_nil, or_false] at hx
  rcases hx with rfl | rfl | rfl
  all_goals exact ⟨handlerFree_of (by decide +kernel) (by decide +kernel) (by decide +kernel) (by decide +kernel) (by decide +kernel),
    by decide +kernel⟩
/-- HandlerStarts, a capsule: at its first stop, its last, and done. -/
theorem witness_HandlerStarts_capsule : ∀ i ∈ [0, 2, 3], let g := hg [(3, some (xs i))]
    let s := hState g {}
    HandlerFree s g he (xs i).cls 8 ∧ (s.core 0).inq = [] ∧ (xs i).owner = none ∧ (xs i).out = none ∧ (xs i).index ≤ 8 := by
  intro x hx
  simp only [List.mem_cons, List.not_mem_nil, or_false] at hx
  rcases hx with rfl | rfl | rfl
  all_goals exact ⟨handlerFree_of (by decide +kernel) (by decide +kernel) (by decide +kernel) (by decide +kernel) (by decide +kernel),
    by decide +kernel⟩
def cc0 : Caps where
  asid := 1
  id := 5
  flags := 0
  index := 0
  count := 2
  len := 1
  origin := 33
  park := 0x1000
  user := List.replicate 28 7
  stops := [0x100, 0x200, 0, 0, 0, 0, 0, 0]
  tile := List.replicate 256 9
  crc := 0
  magic := 0xCA95
  major := 1
  cls := 2
  prev := 0
  seq := 0
def cc (cls : Nat) : Caps := { cc0 with crc := cc0.crcOf, cls }
theorem crcOf_with (c : Caps) (crc : Word) (cls prev : Nat) : { c with crc, cls, prev }.crcOf = c.crcOf := rfl
theorem good_cc (cls prev : Nat) : { cc cls with prev }.good = true := by
  simp only [Caps.good, Bool.and_eq_true, beq_iff_eq]
  exact ⟨⟨rfl, rfl⟩, (crcOf_with cc0 cc0.crcOf cls prev).symm⟩
theorem takesSlot (s : State) (k : Nat) (h : s.group? 0 3 = some (hg (((List.range k).map fun i => (i, some (xs 0)))))) (hk : k < 4)
    (he' : Tab.get none (s.core 0).htab 18 = some he) : TakesSlot s 0 (cc 2) (hg ((List.range k).map fun i => (i, some (xs 0)))) k := by
  refine ⟨h, rfl, ?_, rfl, rfl, by decide, ?_, ?_, ?_, by decide +kernel, ⟨he, he', rfl, rfl⟩, hk, ?_, ?_⟩
  all_goals
    clear h he'
    revert k
    decide +kernel
/-- HandlerStarts, what goes first: a message of one class before one of a class with a lower priority; a capsule alone; and a
batch alone. -/
theorem witness_HandlerStarts_first :
    (let m := mm false 64
     let v := { mm false 64 with cls := 3 }
     let g := hg []
     let s := { hState g {} with cores := [(0, { ({} : Core) with htab := [(18, some he), (19, some { he with prio := 1 })], inq := [v, m] })] }
     s.tabs = true ∧ s.group? 0 3 = some g ∧ g.wf = true ∧ g.hgd.isSome = true ∧ isService 0 = false ∧ s.runsOn g.asid 0 = true ∧
     s.endedGrps g = [] ∧ g.slots.find? (fun k => s.slotFree 0 k) = some 8 ∧ Tab.get none (s.core 0).htab 18 = some he ∧
     WaitsFor s g (.msg m) ∧ ∀ e', WaitsFor s g e' → e' ≠ .msg m → goesFirst s g (.msg m) e') ∧
    (let g := hg [(3, some (xs 0))]
     let s := hState g {}
     WaitsFor s g (.caps 3 (xs 0)) ∧ ∀ e', WaitsFor s g e' → e' = .caps 3 (xs 0)) ∧
    (let b : Batch := { queue := 2, asid := 1, cls := 2, n := 3, timeout := false, entries := [], seq := 4 }
     let g := hg []
     let s := hState g { batches := [b] }
     WaitsFor s g (.batch b) ∧ ∀ e', WaitsFor s g e' → e' = .batch b) := by
  refine ⟨?_, ?_, ?_⟩
  · refine ⟨by decide +kernel, by decide +kernel, by decide +kernel, rfl, rfl, by decide +kernel, by decide +kernel,
      by decide +kernel, by decide +kernel, ⟨⟨by decide, by decide +kernel⟩, he, by decide +kernel, rfl, rfl⟩, ?_⟩
    rintro (m | ⟨k, x⟩ | b) ⟨h, e, he, -⟩ hne
    · have h2 := h.2
      have hm := List.mem_of_find?_eq_some h2
      have : m = { mm false 64 with cls := 3 } ∨ m = mm false 64 := by
        have : m ∈ [{ mm false 64 with cls := 3 }, mm false 64] := hm
        simpa using this
      rcases this with rfl | rfl
      · exact .inl (by decide +kernel)
      · exact absurd rfl hne
    · exact absurd h.1 (by simp [hg])
    · have : b ∈ ([] : List Batch) := h.1
      simp at this
  · refine ⟨⟨⟨by simp [hg], rfl, rfl⟩, he, by decide +kernel, rfl, rfl⟩, ?_⟩
    rintro (m | ⟨k, x⟩ | b) ⟨h, e, he, -⟩
    · have hm : m ∈ ([] : List Msg) := List.mem_of_find?_eq_some h.2
      simp at hm
    · have : (k, some x) ∈ [(3, some (xs 0))] := h.1
      simp at this
      rw [this.1, this.2]
    · have : b ∈ ([] : List Batch) := h.1
      simp at this
  · refine ⟨⟨⟨(List.mem_singleton_self _ : _ ∈ [_]), rfl⟩, he, by decide +kernel, rfl, rfl⟩, ?_⟩
    rintro (m | ⟨k, x⟩ | b) ⟨h, e, he, -⟩
    · have hm : m ∈ ([] : List Msg) := List.mem_of_find?_eq_some h.2
      simp at hm
    · exact absurd h.1 (by simp [hg])
    · have : b ∈ [({ queue := 2, asid := 1, cls := 2, n := 3, timeout := false, entries := [], seq := 4 } : Batch)] := h.1
      simp at this
      rw [this]

/-! Capsules that arrive. -/

theorem alone_of {s : State} {core : Nat} {c : Caps} (h1 : (s.core core).held = []) (h2 : (s.core core).covf = []) :
    ¬ behindOthers s core c := by
  rintro (⟨h, hh, -⟩ | ⟨r, hr, -⟩)
  · simp [h1] at hh
  · simp [h2, assoc] at hr
theorem noSlot_of {s : State} {core : Nat} {c : Caps} (h : Tab.get none (s.core core).htab (16 * c.asid + c.cls) = none) :
    noSlot s core c := by
  intro e g he
  rw [h] at he
  cases he
def pc_ (cls : Nat) (any : Bool) : Packet := ph (.caps (cc cls) any)
/-- HandlerStarts, a capsule that arrives for the last slot of its group, for one core or for either. -/
theorem witness_CapsuleArrivals_slot : ∀ any ∈ [false, true],
    let p := pc_ 2 any
    let g := hg ((List.range 3).map fun i => (i, some (xs 0)))
    let s := { hState g {} with net := [p] }
    Comes s p ∧ ReadOut s p (cc 2) s (cc 2) ∧ (cc 2).good = true ∧ (cc 2).len ≤ 16 ∧ s.cmds = [] ∧ landing s p (cc 2) any = 0 ∧
    ¬ behindOthers s 0 (cc 2) ∧ TakesSlot s 0 (cc 2) g 3 := by
  intro any ha
  simp only [List.mem_cons, List.not_mem_nil, or_false] at ha
  rcases ha with rfl | rfl
  all_goals
    exact ⟨comes_of rfl (by decide +kernel) rfl (by decide) rfl, ⟨rfl, rfl⟩, good_cc 2 0, by decide, rfl, by rfl, alone_of rfl rfl,
      takesSlot _ 3 (by decide +kernel) (by decide) (by decide +kernel)⟩
/-- A capsule as it is read out of empty group-local memory. -/
def cRead : Caps := { cc 2 with user := List.replicate 28 0, tile := List.replicate 256 0 }
theorem crcOf_any (c : Caps) (k : Word) : { c with crc := k }.crcOf = c.crcOf := rfl
theorem cRead_eq {u l : List Byte} (hu : u = List.replicate 28 0) (hl : l = List.replicate 256 0) :
    { cRead with crc := cRead.crcOf } = { cc 2 with user := u, tile := l, crc := { cRead with crc := cRead.crcOf }.crcOf } := by
  subst hu hl
  have h : ∀ k, { cRead with crc := k } = { cc 2 with user := List.replicate 28 0, tile := List.replicate 256 0, crc := k } := fun _ => rfl
  have k : { cRead with crc := cRead.crcOf }.crcOf = cRead.crcOf := crcOf_any cRead cRead.crcOf
  exact (h cRead.crcOf).trans (congrArg
    (fun k => ({ cc 2 with user := List.replicate 28 0, tile := List.replicate 256 0, crc := k } : Caps)) k.symm)
/-- HandlerStarts, a capsule that is read out of the group-local memory of its sender. -/
theorem witness_CapsuleArrivals_pull :
    let p := { pc_ 2 false with pull := some (0, 0x100, 384) }
    let c := { cRead with crc := cRead.crcOf }
    let sender := { group0 with core := 33 }
    let s := { hState (hg []) {} with groups := [sender, hg []], net := [p] }
    Comes s p ∧ ReadOut s p (cc 2) (s.setGroup sender) c ∧ c.good = true ∧ landing (s.setGroup sender) p c false = 0 := by
  refine ⟨comes_of rfl (by decide +kernel) rfl (by decide) rfl, ⟨{ group0 with core := 33 }, by decide +kernel, by decide +kernel,
    by decide, by decide, by decide, by decide, by decide, rfl, cRead_eq (by decide +kernel) (by decide +kernel), rfl⟩, ?_, by rfl⟩
  simp only [Caps.good, Bool.and_eq_true, beq_iff_eq]
  exact ⟨⟨rfl, rfl⟩, (crcOf_any cRead cRead.crcOf).symm⟩
/-- HandlerStarts, a capsule that waits in the hold, which has another. -/
theorem witness_CapsuleArrivals_hold :
    let s := { hState (hg []) { held := [cc 4] } with net := [pc_ 3 false] }
    Comes s (pc_ 3 false) ∧ standsOn s 0 1 ∧ ¬ behindOthers s 0 (cc 3) ∧ noSlot s 0 (cc 3) ∧ holdRoom s 0 (cc 3) := by
  refine ⟨comes_of rfl (by rfl) rfl (by decide) rfl, ⟨group0, by simp [hState], rfl, rfl⟩, ?_, noSlot_of (by decide +kernel), ?_⟩
  · rintro (⟨h, hh, -, h2⟩ | ⟨r, hr, -⟩)
    · have : h ∈ [cc 4] := hh
      simp at this
      rw [this] at h2
      exact absurd h2 (by decide)
    · have : r ∈ ([] : List RingRec) := hr
      simp at this
  · exact ⟨by show 1 < 2; decide, by show 0 + (Claims.chunksOf (128 + 256 * 1) + 0) + Claims.chunksOf (128 + 256 * 1) ≤ 256; decide⟩
/-- HandlerStarts, a capsule that goes to its ring: behind another of its class, with a full hold, and of a context that does not
stand on the core. -/
theorem witness_CapsuleArrivals_ring : ∀ x ∈ [([3], 1), ([4, 5], 1), ([], 2)],
    let c := { cc 3 with asid := x.2 }
    let y := { ctx0 with asid := x.2, covkb := 64, covbase := 0x20000 }
    let s := { hState (hg []) { held := x.1.map cc } with ctxs := [y] }
    ((∀ g ∈ s.groups, g.asid ≠ c.asid) ∨ (∃ h ∈ (s.core 0).held, h.asid = c.asid ∧ h.cls = c.cls) ∨
      (noSlot s 0 c ∧ ¬ (s.core 0).held.length < 2)) ∧
    s.ctx? c.asid = some y ∧ assoc (s.core 0).covf c.asid = none ∧ (capsuleRecord 0 c).length = 448 ∧ 448 ≤ 1024 * y.covkb ∧
    Memory.wf s.mem ∧ Unwatched s 0x20000 448 ∧ inDev 0x20000 = true ∧ inDev (0x20000 + 448) = true := by
  intro x hx
  simp only [List.mem_cons, List.not_mem_nil, or_false] at hx
  rcases hx with rfl | rfl | rfl
  · exact ⟨.inr (.inl ⟨cc 3, by simp [hState, State.core, Tab.get], rfl, rfl⟩), by rfl, by rfl, by decide +kernel, by decide, by rfl,
      ⟨by simp [hState, machine, State.reset], by simp [hState, machine, State.reset]⟩, by decide, by decide⟩
  · exact ⟨.inr (.inr ⟨noSlot_of (by decide +kernel), by show ¬ 2 < 2; decide⟩), by rfl, by rfl, by decide +kernel, by decide, by rfl,
      ⟨by simp [hState, machine, State.reset], by simp [hState, machine, State.reset]⟩, by decide, by decide⟩
  · exact ⟨.inl (by decide +kernel), by rfl, by rfl, by decide +kernel, by decide, by rfl,
      ⟨by simp [hState, machine, State.reset], by simp [hState, machine, State.reset]⟩, by decide, by decide⟩
/-- HandlerStarts, a capsule that waits in the hold, and one in a ring behind one of another class. -/
theorem witness_CapsuleArrivals_entry :
    (let s := hState (hg []) { held := [cc 2] }
     s.tabs = true ∧ (waitingAt s 0)[0]? = some (cc 2) ∧ TakesSlot s 0 (cc 2) (hg []) 0) ∧
    (let s := hState (hg []) { held := [cc 4], covf := [(1, [⟨0, 448, none, some (cc 2), false⟩])] }
     s.tabs = true ∧ (waitingAt s 0)[1]? = some (cc 2) ∧ ¬ ((cc 4).asid = (cc 2).asid ∧ (cc 4).cls = (cc 2).cls) ∧
     (waitingAt s 0).take 1 = [cc 4] ∧ ((s.core 0).covf.map fun e => e.1).Nodup ∧ (cc 2).asid = 1 ∧ TakesSlot s 0 (cc 2) (hg []) 0) :=
  ⟨⟨by rfl, by rfl, takesSlot _ 0 (by decide +kernel) (by decide) (by decide +kernel)⟩,
   ⟨by rfl, by rfl, by rintro ⟨-, h⟩; exact absurd h (by decide), by rfl, by show [1].Nodup; decide, rfl,
    takesSlot _ 0 (by decide +kernel) (by decide) (by decide +kernel)⟩⟩
/-! ### Launches, tasks, pre-emption and termination -/

def recTask : LRec := { rec0 with waves := 11, taskw := 3, prio := 2, fpcr := 5, cslots := 0 }
def lau (r : LRec) : Launch := { lid := 0, recd := r, queue := 0, accepted := 0, since := 0, prior := 9 }
def ls (l : Launch) : State := { machine (waveOf [] []) with
  groups := []
  waves := []
  launches := [l]
  clock := 2 ^ 20 }
/-- LaunchSteps: reservation, and placement with every resource at its limit. -/
theorem witness_LaunchSteps : let l := lau { rec0 with waves := 24, taskw := 8, localkb := 256, cslots := 16 }
    let s := ls l
    s.launch? 0 = some l ∧ s.eligible l = true ∧ l.since + 2 ^ 20 ≤ s.clock ∧
    s.tabs = true ∧ s.launches = [l] ∧ s.groups = [] ∧ s.waves = [] ∧ s.saved = [] ∧ s.parts = [] ∧ s.slots = [] ∧
    s.dleft = [] ∧ l.needs = [] ∧ l.next = 0 ∧ l.lastCore = none ∧ l.hgroups = [] ∧ l.prior ≠ l.lid ∧
    s.runs l.recd.asid 0 = true ∧ l.recd.part = 0 ∧ l.recd.gang = 1 ∧ l.recd.hgds = [] ∧ l.recd.dslots = 0 ∧
    l.recd.gx * l.recd.gy * l.recd.gz ≠ 0 ∧ l.recd.waves + l.recd.taskw ≤ 32 ∧ l.recd.blocks ≤ 8 ∧ l.recd.bars ≤ 16 ∧
    l.recd.localkb ≤ 256 ∧ l.recd.cslots ≤ 16 := by
  decide +kernel
def lDone (done : DWord) : Launch := { lau { recTask with done } with next := 60 }
/-- Default tables that map the lowest GiB onto itself, with every right. -/
def tables : Memory := [(0x200000, 0x01), (0x200001, 0x10), (0x200002, 0x20), (0x201000, 0x3F)]
def lsDone (done : DWord) : State := { ls (lDone done) with
  ctxs := [{ ctx0 with root := 0x200000 }]
  mem := tables
  waves := [wSvc [] []]
  cores := [(0, { ({} : Core) with deque := [forked s0 w0 true 0 0] })] }
/-- LaunchSteps: completion without DONE and with it. -/
theorem witness_LaunchSteps_completion : ∀ s ∈ [lsDone 0, lsDone 0x40],
    s.tabs = true ∧ (∀ l, s.launch? 0 = some l → l.next = l.gangs) ∧ (∀ g ∈ s.groups, g.lid ≠ 0) ∧
    (∀ v ∈ s.saved, ∀ g ∈ v.groups, g.lid ≠ 0) ∧ (∀ w ∈ s.waves, isService w.core = true ∨ s.lidOf w ≠ 0) ∧
    (∀ e ∈ s.cores, (∀ x ∈ e.2.copies, x.lid ≠ 0) ∧ (∀ x ∈ e.2.trp.threads, x.lid ≠ 0) ∧ ∀ x ∈ e.2.trp.queue, x.lid ≠ 0) ∧
    (∀ e ∈ s.clusters, ∀ f ∈ e.2.fctx, ∀ m ∈ f.inbox, m.lid ≠ 0) ∧ (∀ x ∈ s.cmds, x.lid ≠ 0) ∧ (∀ x ∈ s.sends, x.lid ≠ 0) ∧
    s.walkTo 1 3 0x40 = some 0x40 ∧ inDev 0x40 = true ∧ Memory.wf s.mem ∧ s.slots = [] ∧ (∀ c ∈ s.clusters, c.2.ore = []) := by
  decide +kernel
/-- LaunchSteps: the release of a group that has ended. -/
theorem witness_LaunchSteps_release : let g := { group0 with ended := true }
    let s := { machine (waveOf [] []) with waves := [{ waveOf [] [] with stat := .ended, live := 0 }], groups := [g] }
    s.tabs = true ∧ s.group? 0 0 = some g ∧ g.ended = true ∧ s.groupIdle g = true := by
  decide +kernel

def tk (k : Nat) (glob : Bool) (gslot : Nat) : Task where
  pc := 0x9000
  join := 0x40
  mask := 0x1F0
  glob := glob
  gslot := gslot
  wblk := List.replicate 8 (BitVec.ofNat 32 k)
  lid := 0
  asid := 1
  src := 0
  needs := []
def ts (a b : List Task) : State := { machine (waveOf [] []) with
  cores := (if a = [] then [] else [(0, { ({} : Core) with deque := a })]) ++ if b = [] then [] else [(1, { ({} : Core) with deque := b })] }
theorem taskSlot_of {s : State} {g : Group} {slot idx : Nat} (h1 : g.waves = idx) (h2 : g.slots[idx]? = some slot)
    (h3 : s.wave? g.core slot = none) : TaskSlot s g slot idx :=
  ⟨by omega, h2, h3, by intro i k h h'; omega⟩
/-- TaskSteps: the newest entry that the group may run is not the newest of the deque. -/
theorem witness_TaskSteps : let a := [tk 1 true 0, tk 2 false 0, tk 3 false 5]
    let s := ts a []
    s.tabs = true ∧ s.group? 0 0 = some group0 ∧ group0.hgd = none ∧ group0.ended = false ∧ s.runsOn group0.asid 0 = true ∧
    s.launch? group0.lid = some launch0 ∧ (s.core 0).deque = [tk 1 true 0] ++ tk 2 false 0 :: [tk 3 false 5] ∧
    mayRunTask group0 (tk 2 false 0) ∧ (∀ y ∈ [tk 3 false 5], ¬ mayRunTask group0 y) ∧ (tk 2 false 0).needs = [] ∧
    TaskSlot s group0 16 2 ∧ (tk 2 false 0).wblk.length = 8 := by
  simp only [mayRunTask]
  refine ⟨by decide +kernel, by decide +kernel, by decide +kernel, by decide +kernel, by decide +kernel, by decide +kernel,
    by decide +kernel, by decide +kernel, by decide +kernel, by decide +kernel, ?_, by decide +kernel⟩
  apply taskSlot_of <;> decide +kernel
/-- TaskSteps: core 0 takes the oldest FORK.G entry of core 1, without and with partitions. -/
theorem witness_TaskSteps_steal : ∀ parts ∈ [([] : Tab Nat), [(0, 1)]],
    let b := [tk 1 false 0, tk 2 true 0, tk 3 true 0]
    let s := { ts [] b with parts }
    s.tabs = true ∧ isService 0 = false ∧ s.group? 0 group0.gslot = some group0 ∧ group0.core = 0 ∧ group0.lid = 0 ∧ group0.hgd = none ∧
    group0.ended = false ∧ s.runsOn group0.asid 0 = true ∧ TaskSlot s group0 16 2 ∧
    (∀ h ∈ s.groups, h.core = 0 → h.lid = 0 → h.hgd = none → h = group0) ∧ s.launch? 0 = some launch0 ∧
    (∀ y ∈ (s.core 0).deque, ¬ mayRunTask group0 y) ∧ (tk 2 true 0).needs = [] ∧ (tk 2 true 0).wblk.length = 8 ∧
    (s.core 1).deque = [tk 1 false 0] ++ tk 2 true 0 :: [tk 3 true 0] ∧ (tk 2 true 0).glob = true ∧ (tk 2 true 0).lid = 0 ∧
    ∀ y ∈ [tk 1 false 0], ¬ (y.glob = true ∧ y.lid = 0) := by
  intro parts hp
  simp only [List.mem_cons, List.not_mem_nil, or_false] at hp
  simp only [mayRunTask]
  rcases hp with rfl | rfl
  all_goals
    refine ⟨by decide +kernel, by decide +kernel, by decide +kernel, by decide +kernel, by decide +kernel, by decide +kernel,
      by decide +kernel, by decide +kernel, ?_, by decide +kernel⟩
    apply taskSlot_of <;> decide +kernel
def hk (n lvl clock : Nat) : State := { ts ((List.range n).map fun k => tk k true 0) [] with
  clock
  launches := [lau { recTask with lvl }]
  groups := [{ group0 with core := 1 }] }
/-- TaskSteps: the hawker with one entry, with two, with 100, and between two of its times; and what it ships arrives. -/
theorem witness_TaskSteps_hawker : (∀ x ∈ [(1, 0, 4096), (2, 0, 4096), (100, 10, 1024), (9, 0, 1024)],
      let s := hk x.1 x.2.1 x.2.2
      let l := lau { recTask with lvl := x.2.1 }
      s.tabs = true ∧ s.parts = [] ∧ s.launches = [l] ∧ s.runs l.recd.asid 0 = true ∧ (s.core 1).deque = [] ∧ s.net = [] ∧
      s.cmds = [] ∧ (∃ g ∈ s.groups, g.core = 1 ∧ g.lid = l.lid ∧ g.hgd = none) ∧
      (∀ g ∈ s.groups, g.lid = l.lid → g.hgd = none → g.core ≤ 1 ∧ 0 ≤ g.core) ∧
      ((s.core 0).deque.filter fun y => y.glob && y.lid == l.lid).Nodup) ∧
    (Tab.get 0 { hk 1 0 0 with parts := [(0, 1)] }.parts 0 ≠ 0) ∧
    (let p : Packet := { id := 3, dest := 0, src := 1, slot := 0, asid := 1, cls := 0, seq := 0, body := .ship [tk 50 true 0, { tk 51 true 0 with lid := 9 }], needs := [] }
     let s := { ts [] [] with net := [p] }
     s.tabs = true ∧ p.notBefore ≤ s.clock ∧ ∃ rest, s.net = p :: rest ∧ ∀ q ∈ rest, q.id ≠ p.id) :=
  ⟨by decide +kernel, by decide +kernel, by decide +kernel, by decide +kernel, [], rfl, by simp⟩
/-- TaskSteps, a shipment: the deque of its core has an entry in place 0, and its context an area in device memory. -/
theorem witness_TaskSteps_shipment : let s := ts [tk 1 true 0] []
    let kept := [tk 50 true 0, tk 51 true 0]
    (∀ x ∈ kept, (s.launches.any fun l => l.lid == x.lid) = true ∧ s.ctx? x.asid = some ctx0 ∧ x.wblk.length = 8) ∧
    (s.core 0).deque.length + kept.length ≤ 512 ∧ inDev (ctx0.deque + 32768 * 0) = true ∧ inDev (ctx0.deque + 32767) = true ∧
    Memory.wf s.mem ∧ s.slots = [] ∧ (∀ c ∈ s.clusters, c.2.ore = []) := by
  decide +kernel

def cx (out : Bool) : Ctx := { asid := 1, slot := 0, save := 0x100000, sstride := 0x100000, out }
def jw (slot gslot : Nat) : Wave := { waveOf [] [] with stat := .join 0x40 0 0x10000, slot, gslot }
def ps (out : Bool) (missing : Nat) : State := { machine (waveOf [] []) with
  ctxs := [cx out]
  groups := [{ group0 with missing }]
  waves := [jw 0 0, jw 1 0, jw 40 7] }
theorem atRest0 (out : Bool) (missing : Nat) (h1 : (ps out missing).tabs = true)
    (h2 : (ps out missing).saveOk (cx out) { group0 with missing } = true)
    (h3 : ∀ f ∈ ((ps out missing).cluster (clusterOf { group0 with missing }.core)).fctx, f.owner = none ∧ f.inbox = []) : AtRest (ps out missing) (cx out) { group0 with missing } where
  tabs := h1
  ctx := rfl
  alive := rfl
  group := rfl
  simd := rfl
  on := rfl
  part := rfl
  caps := rfl
  waves := by
    intro w hw _ _
    simp only [ps, List.mem_cons, List.not_mem_nil, or_false] at hw
    rcases hw with rfl | rfl | rfl <;> exact ⟨⟨0x40, 0, 0x10000, rfl⟩, rfl, rfl, rfl⟩
  sq := by rfl
  recs := by rfl
  copies := by rfl
  trp := by intro e he; cases he
  fctx := h3
  cmds := rfl
  sends := rfl
  net := rfl
  fits := h2
/-- PreemptionSteps: the first turn, a group at rest to save, nothing left, and a gang with missing translations. -/
theorem witness_PreemptionSteps : ((ps false 0).ctx? 1 = some (cx false) ∧ (cx false).killed = none ∧ (cx false).out = false) ∧
    (AtRest (ps true 0) (cx true) { group0 with missing := 0 } ∧ (cx true).out = true ∧
      (∀ h ∈ (ps true 0).groups, h.asid = 1 → h = { group0 with missing := 0 }) ∧ (ps true 0).groups.Nodup) ∧
    (let s := { ps true 0 with groups := [], waves := [] }
     s.ctx? 1 = some (cx true) ∧ (∀ g ∈ s.groups, g.asid ≠ 1) ∧ (∀ v ∈ s.saved, v.asid ≠ 1) ∧
     (∀ e ∈ s.cores, ∀ x ∈ e.2.trp.threads, x.asid ≠ 1)) ∧
    (AtRest (ps false 1) (cx false) { group0 with missing := 1 } ∧ group0.hgd = none ∧
      (∀ h ∈ (ps false 1).groups, h.lid = 0 → h.gang = 0 → h = { group0 with missing := 1 }) ∧ (ps false 1).groups.Nodup) ∧
    (∀ g ∈ (ps false 0).groups, g.lid = 0 → g.gang = 0 → g.missing = 0) :=
  ⟨by decide +kernel, ⟨atRest0 _ _ (by decide +kernel) (by decide +kernel) (by decide +kernel), by decide +kernel⟩, by decide +kernel,
    ⟨atRest0 _ _ (by decide +kernel) (by decide +kernel) (by decide +kernel), by decide +kernel⟩, by decide +kernel⟩
/-- PreemptionSteps: a saved gang, with and without a missing translation. -/
theorem witness_PreemptionSteps_resume : ∀ missing ∈ [0, 1],
    let g := { group0 with missing, localkb := 256, blocks := 8 }
    let v : Saved := { id := 3, asid := 1, lid := 0, gang := 0, missing := true, groups := [g], waves := [jw 0 0, jw 1 0] }
    let s := { ps false 0 with saved := [v], groups := [], waves := [] }
    s.tabs = true ∧ s.saved = [v] ∧ v.groups = [g] ∧ v.fctxs = [] ∧ v.copies = [] ∧ v.erets = [] ∧ v.gang ≠ 0xFFFFFFFF ∧
    Tab.get 0 s.parts (clusterOf g.core) = g.part ∧ (∀ w ∈ v.waves, w.behind = [] ∧ w.core = g.core) ∧ ((v.waves.map fun w => w.slot).Nodup) ∧ s.ctx? v.asid = some (cx false) ∧
    (cx false).killed = none ∧ s.groups = [] ∧ s.waves = [] ∧ g.localkb ≤ 256 ∧ g.bars ≤ 256 ∧ g.cslots ≤ 16 ∧
    (∀ p < 8, g.blocks * (g.slots.filter fun k => k / 16 = p).length ≤ 96) := by
  decide +kernel
def ra : Acc := { grp := 3, lane := 31, va := 0x1234, pc := 0x10000, kind := .load 4 false }
def rr (src : Nat) : FRec where
  src := src
  idx := 5
  core := 0
  kind := 0
  access := 0
  asid := 1
  gslot := 0
  slot := 0
  pc := 0x10000
  accs := [ra]
  ready := true
  posted := 0
def wHeld (st : WStat) : Wave := { waveOf [] [] with pend := [⟨.g 5 31, .held 3 0x1234 ⟨.w, 0⟩, 0, 0⟩], stat := st }
def copyHeld : Copy where
  id := 3
  fn := 0
  ctl := 0
  gslot := 0
  slot := 0
  asid := 1
  cd := List.replicate 8 0
  geo := 2
  bytes := 4
  held := true
  pc := 0x10000
  lid := 0
  needs := []
/-- PreemptionSteps: a replayed load of a wave that stalls and of one that runs, and a replayed copy. -/
theorem witness_PreemptionSteps_replay : (∀ st ∈ [WStat.stall, .run], let w := wHeld st
      let s := { machine w with waves := [w], cores := [(0, { ({} : Core) with recs := [rr 0] })] }
      s.tabs = true ∧ isService 0 = false ∧ (s.core 0).recs = [rr 0] ∧ s.wave? 0 0 = some w ∧ (rr 0).accs = [ra] ∧ ra.lane < 32 ∧
      w.pend = [⟨.g 5 31, .held ra.grp ra.va ⟨.w, 0⟩, 0, 0⟩] ∧ (∀ l, (Dst.g 5 31).lane? = some l → l = ra.lane) ∧ w.acq = [] ∧ w.excs = [] ∧ (∀ v ∈ s.waves, v.behind = []) ∧ s.cmds = [] ∧
      (s.core 0).parking = [] ∧ Translates s w { r := true } ra.va 0x1234 0 ∧ inDev 0x1234 = true) ∧
    (let s := { machine (waveOf [] []) with cores := [(0, { ({} : Core) with recs := [rr 1], copies := [copyHeld] })] }
     s.tabs = true ∧ (s.core 0).recs = [rr 1] ∧ isService 0 = false ∧ (s.core 0).copies = [copyHeld] ∧ (∃ a ∈ (rr 1).accs, a.grp = copyHeld.id)) := by
  simp only [Translates]
  decide +kernel

def killedCtx (k : Option Cause) (soft : Bool) (wdog : Nat) : Ctx := { cx false with killed := k, soft, wdog }
/-- Terminations: every cause, at the first cycle of the watchdog's end and one before it. -/
theorem witness_Terminations : (∀ x ∈ [(true, 2 ^ 32), (false, 2 ^ 32 - 1)],
      let s := { ps false 0 with launches := [lau recTask], ctxs := [killedCtx none x.1 x.2] }
      s.ctx? 1 = some (killedCtx none x.1 x.2) ∧ (∃ g ∈ s.groups, g.asid = 1) ∧
      (x.1 = true ↔ ∃ l ∈ s.launches, l.recd.asid = 1 ∧ 2 ^ (if l.recd.wdog = 0 then 32 else l.recd.wdog) ≤ x.2) ∧
      (x.1 = false → ∀ l ∈ s.launches, l.recd.asid = 1 → x.2 < 2 ^ (if l.recd.wdog = 0 then 32 else l.recd.wdog)) ∧ x.2 < 2 ^ 40) ∧
    (∀ ws ∈ [[jw 0 0], [waveOf [] []]],
      let s := { ps false 0 with
        launches := [lau recTask]
        ctxs := [killedCtx (some 0x3C0) false 0]
        waves := ws
        clusters := []
        groups := [group0, { group0 with gslot := 7, asid := 2, lid := 9 }] }
      s.ctx? 1 = some (killedCtx (some 0x3C0) false 0) ∧ s.cores = [] ∧ s.clusters = [] ∧ s.net = [] ∧ s.saved = [] ∧
      (∃ g ∈ s.groups, g.asid = 1) ∧ (∀ g ∈ s.groups, g.asid = 1 → g.caps = []) ∧
      (∀ l ∈ s.launches, l.recd.asid = 1 → l.recd.done = 0 ∧ ∀ g ∈ s.groups, g.lid = l.lid → g.asid = 1) ∧
      (ws = [waveOf [] []] → ∃ w ∈ s.waves, isService w.core = false ∧ s.asidOf w = 1 ∧ w.stat = .run ∧ s.readyWave w = true)) ∧
    (∀ w ∈ [jw 0 0], ∃ va l pc, w.stat = .join va l pc) ∧ s0.stopped = false := by
  refine ⟨by decide +kernel, by decide +kernel, ?_, rfl⟩
  intro w hw
  simp only [List.mem_cons, List.not_mem_nil, or_false] at hw
  subst hw
  exact ⟨0x40, 0, 0x10000, rfl⟩
/-- Terminations: the last byte of the g registers of a wave. -/
theorem witness_Terminations_register : s0.stopped = false ∧ isService 0 = false ∧ s0.wave? 0 0 = some w0 ∧ 0 < 128 ∧ 8191 < 8192 := by
  decide +kernel
/-- Terminations: uncorrectable bytes of a context, of none, and at the end of device memory. -/
theorem witness_Terminations_poison : (∀ a, 0x4000 ≤ a → a < 0x4000 + 4 → s0.ofContext a = true) ∧
    (∀ a, 0x800000000 ≤ a → a < 0x800000000 + 4 → inDev a = true ∧ a ∉ s0.poison ∧ s0.ofContext a = false) := by
  have h : ∀ k < 4, s0.ofContext (0x4000 + k) = true := by decide +kernel
  have h' : ∀ k < 4, inDev (0x800000000 + k) = true ∧ 0x800000000 + k ∉ s0.poison ∧ s0.ofContext (0x800000000 + k) = false := by decide +kernel
  constructor
  · intro a h1 h2
    simpa [show 0x4000 + (a - 0x4000) = a by omega] using h (a - 0x4000) (by omega)
  · intro a h1 h2
    simpa [show 0x800000000 + (a - 0x800000000) = a by omega] using h' (a - 0x800000000) (by omega)
/-! ### Traversal threads -/

def th : Thread where
  num := 3
  kind := .record
  core := 0
  asid := 1
  gslot := 0
  lid := 0
  cmd := 0
  rva := 0x2000
  t := [(0, 0x1000), (2, 0x1001), (4, 0x10C60)]
  pc := 5
  words := List.replicate 20 0
  payload := 0x123456789
  tag := 7
  cq := 2
  ext := 0x100
  dtab := 0
  prog := 0
def q0 : CQ := { num := 2, asid := 1, base := 0x4000, logn := 5, mode := 0, cls := 0, desc := 0x5000, prod := 33, cons := 0 }
/-- A table for nodes of 256 bytes whose count is 4 bits at bit 2: eight children at 8, boxes at 40 in the form `boxes`. -/
def tableOf (boxes : Nat) : BitVec 256 :=
  BitVec.ofNat 256 (2 + 2 * 2 ^ 16 + 2 * 2 ^ 24 + 8 * 2 ^ 32 + 24 * 2 ^ 48 + boxes * 2 ^ 64 + 40 * 2 ^ 80)
/-- A table for leaves of 64 bytes: keys of 8 bytes at 8, with the kind in the two low bits and the count above. -/
def leafTable (keyw tri : Nat) : BitVec 256 :=
  BitVec.ofNat 256 (2 * 2 ^ 16 + keyw * 2 ^ 112 + 8 * 2 ^ 128 + tri * 2 ^ 160)
def inner (cnt : Nat) : Node := ⟨0x7000, (BitVec.ofNat 8 (4 * cnt) :: List.replicate 255 0), tableOf 1, 1⟩
def leaf (keyw tri cnt : Nat) : Node := ⟨0x7000, (BitVec.ofNat 8 (4 * cnt + 1) :: List.replicate 63 0), leafTable keyw tri, 1⟩
def remote : Node := ⟨0x7000, (2 :: List.replicate 63 0), BitVec.ofNat 256 (8 * 2 ^ 176), 1⟩
def tst (t : Thread) : State := { machine (waveOf [] []) with
  selCore := 0
  selSlot := 3
  mem := [(0x5014, 2)]
  cores := [(0, { ({} : Core) with
    trp := { ({} : Trp) with threads := [{ th with num := 4 }, t], tables := [⟨1, 1, tableOf 1⟩, ⟨1, 2, leafTable 1 0⟩] }
    cqs := [q0] })] }
theorem gets_of {s : State} {core asid : Nat} {va : DWord} {len : Nat} {pa : Nat → Nat}
    (h : ∀ i < len, inDev (pa i) = true ∧ EngineReaches s core asid { r := true } (va + BitVec.ofNat 64 i) (pa i) 0) :
    EngineGets s core asid va len pa :=
  fun i hi => ⟨(h i hi).1, 0, (h i hi).2⟩
theorem may_of {s : State} {core asid : Nat} {va : DWord} {len : Nat} {pa : Nat → Nat} (h1 : s.slots = [] ∧ ∀ c ∈ s.clusters, c.2.ore = [])
    (h2 : ∀ i < len, inDev (pa i) = true ∧
      EngineReaches s core asid { w := true } (va + BitVec.ofNat 64 i) (pa i) 0) : EngineMay s core asid va len pa :=
  fun i hi => ⟨(h2 i hi).1, ⟨by simp [h1.1], fun c hc o ho => by simp [h1.2 c hc] at ho⟩, 0, (h2 i hi).2⟩
/-- Every byte of the map is at its address. -/
def at_ (va : Nat) : Nat → Nat := fun i => va + i

/-- TraversalAlu, for each kind of thread. -/
theorem witness_TraversalAlu : ∀ t ∈ [th, { th with kind := .prefetch }, { th with kind := .handed 1 2, pc := 0 }],
    ThreadIs (tst t) t ∧ Tab.wf 0 t.t = true := by
  simp only [ThreadIs]
  decide +kernel

/-- TraversalNodes, by the node: an inner node of 1 and of 8 children, leaves with short and long keys, with triangles, a remote
node and none; and a table whose nodes cannot be decoded. -/
theorem witness_TraversalNodes : (∀ n ∈ [none, some (inner 1), some (inner 8), some (leaf 1 0 2), some (leaf 2 0 7), some (leaf 0 8 1), some remote],
      ThreadIs (tst { th with node := n }) { th with node := n } ∧ (tst { th with node := n }).dtab? 0 1 1 = some ⟨1, 1, tableOf 1⟩ ∧
      (tst { th with node := n }).dtab? 0 1 3 = none) ∧
    (inner 8).bad = false ∧ (inner 9).bad = true ∧ (leaf 0 8 1).nkind = 1 ∧ remote.nkind = 2 := by
  simp only [ThreadIs]
  decide +kernel
/-- TraversalNodes, memory: an aligned node whose bytes decode, one whose bytes do not, a misaligned address, and TPF. -/
theorem witness_TraversalNodes_memory : let s := { tst th with mem := [(0x1000, 4), (0x5014, 2)] }
    ThreadIs s th ∧ (th.read2 0).toNat % tabSize (tableOf 1) = 0 ∧ EngineGets s 0 1 (th.read2 0) 256 (at_ 0x1000) ∧
    (⟨0x1000, takes1 (bytesIn s) (at_ 0x1000) 256, tableOf 1, 1⟩ : Node).bad = false ∧
    (⟨0x1000, takes1 (bytesIn (tst th)) (at_ 0x1000) 256, tableOf 1, 1⟩ : Node).bad = true ∧
    (th.read2 2).toNat % 4 ≠ 0 ∧ s.poison = [] := by
  simp only [ThreadIs]
  refine ⟨by decide +kernel, by decide +kernel, gets_of ?_, by decide +kernel⟩
  simp only [EngineReaches]
  decide +kernel
/-- TraversalNodes: no first-level entry maps the word. -/
theorem witness_TraversalNodes_held : let s := { tst th with clusters := [] }
    ThreadIs s th ∧ th.kind ≠ .prefetch ∧ th.stat = .ready ∧ (th.read2 0 + BitVec.ofInt 64 (4 * (0 : Int))).toNat % 4 = 0 ∧
    canonical (th.read2 0 + BitVec.ofInt 64 (4 * (0 : Int))) = true ∧
    (∀ e ∈ (s.cluster (clusterOf s.selCore)).tlb, e.hits th.asid (th.read2 0 + BitVec.ofInt 64 (4 * (0 : Int))) = false) ∧
    (s.core s.selCore).tlb = [] ∧ (s.core (2 * clusterOf s.selCore)).tlb = [] := by
  simp only [ThreadIs]
  decide +kernel

def thS (n spilled : Nat) : Thread := { th with stack := (List.range n).map fun i => BitVec.ofNat 64 (i + 1), spilled, node := some (inner 8) }
/-- TraversalStack, a push and a pop: on an empty stack, one entry short of spilling, one that spills, and a full stack. -/
theorem witness_TraversalStack : (∀ x ∈ [(0, 0), (7, 0), (8, 0), (8, 8), (1, 8), (1, 1)], ThreadIs (tst (thS x.1 x.2)) (thS x.1 x.2)) ∧
    EngineMay (tst (thS 8 0)) 0 1 (0x2000 + BitVec.ofNat 64 (0x100 + 128 + 8 * 0)) (8 * 1) (at_ 0x2180) ∧
    EngineGets (tst (thS 1 8)) 0 1 (0x2000 + BitVec.ofNat 64 (0x100 + 128 + 8 * 0)) (8 * 8) (at_ 0x2180) ∧
    Memory.wf (tst th).mem = true ∧ (th.read 0).toNat % 256 < 2 ^ (inner 8).cnt ∧ (inner 8).nkind = 0 ∧
    2 ^ (inner 1).cnt ≤ ({ th with t := [(0, 2)] }.read 0).toNat % 256 := by
  simp only [ThreadIs]
  refine ⟨by decide +kernel, may_of (by decide +kernel) ?_, gets_of ?_, by decide +kernel⟩
  all_goals
    simp only [EngineReaches]
    decide +kernel

theorem room0 (t : Thread) (mode prod : Nat) (m : Nat → Byte) (hq : t.cq = 2) (ha : t.asid = 1)
    (h : (prod + 2 ^ 32 - consNow { q0 with mode, prod } m (at_ 0x5014)) % 2 ^ 32 ≠ 2 ^ 5)
    (s : State) (hs : (s.core 0).cqs = [{ q0 with mode, prod }]) (hsl : s.slots = [] ∧ ∀ c ∈ s.clusters, c.2.ore = []) (hm : Memory.wf s.mem = true)
    (h1 : ∀ i < 4, inDev (at_ 0x5014 i) = true ∧ EngineReaches s 0 1 { r := true } (0x5014 + BitVec.ofNat 64 i) (at_ 0x5014 i) 0)
    (h2 : ∀ i < 32, inDev (at_ 0x4020 i) = true ∧
      EngineReaches s 0 1 { w := true } (0x4020 + BitVec.ofNat 64 i) (at_ 0x4020 i) 0)
    (h3 : ∀ i < 4, inDev (at_ 0x5010 i) = true ∧
      EngineReaches s 0 1 { w := true } (0x5010 + BitVec.ofNat 64 i) (at_ 0x5010 i) 0) (hp : prod % 32 = 1) :
    Room s 0 t m { q0 with mode, prod } (at_ 0x5014) (at_ 0x4020) (at_ 0x5010) where
  queue := by simp [hs, hq, ha, q0]
  cons := fun _ => gets_of (ha ▸ h1)
  room := h
  entry := by
    rw [ha]
    refine may_of hsl ?_
    simpa [q0, hp] using h2
  prod := by
    rw [ha]
    exact may_of hsl h3
  mem := hm

/-- TraversalResults and TraversalEnds: a thread of a record, with its queue, its extension and its record; the queue is full with
32 entries more than CONS. -/
theorem witness_TraversalResults : ThreadIs (tst th) th ∧ th.kind = .record ∧
    (∀ m : Nat → Byte, m 0x5014 = 2 → m 0x5015 = 0 → m 0x5016 = 0 → m 0x5017 = 0 →
      Room (tst th) 0 th m q0 (at_ 0x5014) (at_ 0x4020) (at_ 0x5010)) ∧
    EngineMay (tst th) 0 1 (th.rva + 36) 12 (at_ 0x2024) ∧ EngineMay (tst th) 0 1 (th.rva + 60) 4 (at_ 0x203C) ∧
    ExtMay (tst th) th (at_ 0x2100) (at_ 0x2180) ∧
    (let s := { tst th with cores := [(0, { (tst th).core 0 with cqs := [{ q0 with prod := 34 }] })] }
     ThreadIs s th ∧ (s.core 0).cqs.find? (fun x => x.num == th.cq && x.asid == th.asid) = some { q0 with prod := 34 } ∧
     (34 + 2 ^ 32 - consNow { q0 with prod := 34 } (bytesIn s) (at_ 0x5014)) % 2 ^ 32 = 2 ^ q0.logn ∧
     EngineGets s 0 1 (q0.desc + 20) 4 (at_ 0x5014)) ∧
    (∀ t ∈ [{ th with kind := .prefetch }, { th with kind := .handed 1 2 }, { th with ext := 0 }], ThreadIs (tst t) t) ∧
    (tst th).linkUp = false := by
  simp only [ThreadIs, ExtMay]
  refine ⟨by decide +kernel, rfl, ?_, may_of (by decide +kernel) ?_, may_of (by decide +kernel) ?_,
    fun _ => ⟨may_of (by decide +kernel) ?_, may_of (by decide +kernel) ?_⟩,
    ⟨by decide +kernel, by decide +kernel, by decide +kernel, gets_of ?_⟩, by decide +kernel, rfl⟩
  · intro m h0 h1 h2 h3
    refine room0 th 0 33 m rfl rfl ?_ (tst th) (by rfl) (by decide +kernel) (by decide +kernel) ?_ ?_ ?_ rfl
    · have : takes1 m (at_ 0x5014) 4 = [2, 0, 0, 0] := by
        simp [takes1, at_, List.range_succ, h0, h1, h2, h3]
      simp only [consNow, q0, if_true, this]
      decide
    all_goals
      simp only [EngineReaches]
      decide +kernel
  all_goals
    simp only [EngineReaches]
    decide +kernel
/-- TraversalResults: a handed-off thread whose peer is there. TraversalEnds: a remote node with a port and without, and a thread
that runs past its program. -/
theorem witness_TraversalEnds : (∀ t ∈ [{ th with kind := .handed 1 2 }, { th with node := some remote }, { th with node := some remote, ext := 0 }, { th with pc := 20 }],
      let s := { tst t with linkUp := true, linkLo := 1, linkHi := 1, peerId := 1 }
      ThreadIs s t ∧ s.linkUp = true ∧ s.linkLo ≤ 1 ∧ 1 ≤ s.linkHi ∧ 0 ≠ s.peerId ∧ 0 ≤ 1 ∧ Memory.wf s.mem = true) ∧
    EngineGets (tst th) 0 1 th.rva 64 (at_ 0x2000) ∧ EngineGets (tst th) 0 1 (th.rva + BitVec.ofNat 64 th.ext) 256 (at_ 0x2100) := by
  simp only [ThreadIs]
  refine ⟨by decide +kernel, gets_of ?_, gets_of ?_⟩
  all_goals
    simp only [EngineReaches]
    decide +kernel
/-! ### Thread starts, queues and the host -/

def arm0 : Arm := { num := 0, asid := 1, gslot := 0, lo := 0x1000, hi := 0x2000, prog := 5, user := 9, target := 0x3000 }
def req0 (resume : Option Word) (hand : Option (List Byte × Nat × Nat)) : TReq :=
  { va := 0x2000, asid := 1, gslot := 0, slot := 0, lid := 0, cmd := 44, queue := none, resume, hand, needs := [] }
def trs (t : Trp) (recs : List FRec) (mem : Memory) : State := { machine (waveOf [] []) with
  mem
  cores := [(0, { ({} : Core) with trp := t, cqs := [q0], recs })] }
/-- Contexts 0 to 62 are in use, and a fault record or nothing holds 63. -/
def used (n : Nat) : List Thread := (List.range n).map fun num => { th with num }
/-- ThreadStarts, a trigger: the last context free, and held by a fault record. -/
theorem witness_ThreadStarts_trigger :
    (let s := trs { ({} : Trp) with threads := used 63, triggers := [⟨arm0, 0x1040, []⟩], progs := [⟨1, 5, [0]⟩] } [] []
     s.tabs = true ∧ (s.core 0).trp.triggers[0]? = some ⟨arm0, 0x1040, []⟩ ∧ FreeContext s 0 63 ∧ ProgramIs s 0 1 5 [0]) ∧
    (let s := trs { ({} : Trp) with threads := used 63, triggers := [⟨arm0, 0x1040, []⟩] } [{ rr 2 with idx := 63 }] []
     s.tabs = true ∧ ∀ k < 64, contextUsed s 0 k) := by
  simp only [FreeContext, contextUsed]
  exact ⟨⟨by decide +kernel, by decide +kernel, by decide +kernel, _, by rfl, rfl⟩, by decide +kernel⟩

/-- A record whose program is 0, whose queue is 2 and whose extension lies at 0x100. -/
def recordAt (status : Byte) : Memory := [(0x200C, 2), (0x2039, 1)] ++ if status = 0 then [] else [(0x203C, status)]
def trp0 (r : TReq) : Trp := { ({} : Trp) with queue := [r], progs := [⟨1, 0, [0, 0]⟩], tables := [⟨1, 1, tableOf 1⟩] }
def recordGood (s : State) (r : TReq) (b : List Byte) : Bool :=
  ((s.core 0).trp.progs.find? fun p => p.asid == r.asid && p.index == fieldAt b 8 2) == some ⟨1, 0, [0, 0]⟩ && Nat.ble (fieldAt b 10 1) 15 &&
    fieldAt b 11 1 == 0 && Nat.blt (fieldAt b 12 1) 8 && ((s.core 0).cqs.find? fun q => q.num == queueOf r b && q.asid == r.asid) != none &&
    fieldAt b 56 4 % 64 == 0
theorem recordGood_of {s : State} {r : TReq} {b : List Byte} (h : recordGood s r b = true) : RecordGood s 0 r b [0, 0] := by
  simp only [recordGood, Bool.and_eq_true, beq_iff_eq, bne_iff_ne] at h
  obtain ⟨⟨⟨⟨⟨h1, h2⟩, h3⟩, h4⟩, h5⟩, h6⟩ := h
  exact ⟨⟨_, h1, rfl⟩, Nat.le_of_ble_eq_true h2, h3, fun _ => by simpa [Nat.blt_eq] using h4, h5, h6⟩
theorem takes_of {s : State} {core : Nat} {r : TReq} (hq : (s.core core).trp.queue = [r]) (hg : r.gslot < 2 ^ 16)
    (hr : s.runsOn r.asid core = true) (ht : ∀ e ∈ s.cores, e.2.trp.threads = []) :
    (∃ pre post, (s.core core).trp.queue = pre ++ r :: post ∧ ∀ x ∈ pre, s.mayStart core x = false) ∧ mayTake s core r :=
  ⟨⟨[], [], by simp [hq], by simp⟩, ⟨hg, .inl hr, fun _ e he t hm => by simp [ht e he] at hm⟩⟩
theorem nextRequest_of {s : State} {core : Nat} {r : TReq} (hq : (s.core core).trp.queue = [r]) (hg : r.gslot < 2 ^ 16)
    (hr : s.runsOn r.asid core = true) (ht : ∀ e ∈ s.cores, e.2.trp.threads = [])
    (h : r.needs = [] ∧ r.hand = none ∧ r.cont = false ∧ r.began = false) : NextRequest s core r :=
  ⟨(takes_of hq hg hr ht).1, (takes_of hq hg hr ht).2, h⟩
/-- ThreadStarts, a record: as it should be, and with a STATUS. -/
theorem witness_ThreadStarts : ∀ status ∈ [(0 : Byte), 1], let s := trs (trp0 (req0 none none)) [] (recordAt status)
    let b := takes1 (bytesIn s) (at_ 0x2000) 64
    s.tabs = true ∧ FreeContext s 0 0 ∧ NextRequest s 0 (req0 none none) ∧ EngineGets s 0 1 0x2000 64 (at_ 0x2000) ∧
    RecordGood s 0 (req0 none none) b [0, 0] ∧ fieldAt b 60 4 = status.toNat ∧
    ((s.core 0).cqs.find? fun q => q.num == fieldAt b 12 1 % 8 && q.asid == 1) ≠ none := by
  intro x hx
  simp only [List.mem_cons, List.not_mem_nil, or_false] at hx
  simp only [FreeContext, contextUsed]
  rcases hx with rfl | rfl
  all_goals
    refine ⟨by decide +kernel, by decide +kernel, nextRequest_of (by decide +kernel) (by decide) (by decide +kernel) (by decide +kernel)
      (by decide), gets_of ?_, recordGood_of (by decide +kernel), by decide +kernel⟩
    simp only [EngineReaches]
    decide +kernel
/-- ThreadStarts, a resumed record: one that is not suspended, and one with a full stack and the nearer interval end, without a
node and with one. -/
theorem witness_ThreadStarts_resume : ∀ x ∈ [(0, []), (2, [(0x2144, 16), (0x2146, 0xFF)]), (2, [(0x2144, 16), (0x2146, 1), (0x2149, 0x70), (0x7000, 4)])],
    let s := trs (trp0 (req0 (some 0x3F800000) none)) [] (recordAt (BitVec.ofNat 8 x.1) ++ x.2)
    let b := takes1 (bytesIn s) (at_ 0x2000) 64
    let m := written (bytesIn s) (at_ 0x203C) (bytesLE 4 0)
    let e := takes1 m (at_ 0x2100) 256
    s.tabs = true ∧ FreeContext s 0 0 ∧ NextRequest s 0 (req0 (some 0x3F800000) none) ∧ EngineGets s 0 1 0x2000 64 (at_ 0x2000) ∧
    RecordGood s 0 (req0 (some 0x3F800000) none) b [0, 0] ∧ fieldAt b 60 4 = x.1 ∧ fieldAt b 56 4 ≠ 0 ∧
    EngineGets s 0 1 (0x2000 + BitVec.ofNat 64 (fieldAt b 56 4)) 256 (at_ 0x2100) ∧ EngineMay s 0 1 (0x2000 + 60) 4 (at_ 0x203C) ∧
    fieldAt e 68 1 ≤ 16 ∧ Memory.wf s.mem = true ∧ EngineGets s 0 1 0x7000 256 (at_ 0x7000) ∧
    (x.2.length = 4 → fieldAt e 70 1 = 1 ∧ fieldAt e 72 8 = 0x7000 ∧
      (∃ t ∈ (s.core 0).trp.tables, t.asid = 1 ∧ t.id = 1 ∧ t.bits = tableOf 1) ∧
      (∀ t ∈ (s.core 0).trp.tables, t.asid = 1 → t.id = 1 → t.bits = tableOf 1) ∧
      (⟨0x7000, takes1 m (at_ 0x7000) 256, tableOf 1, 1⟩ : Node).bad = false) ∧
    (∀ c ∈ s.cores, c.2.trp.threads = []) := by
  intro x hx
  simp only [List.mem_cons, List.not_mem_nil, or_false] at hx
  simp only [FreeContext, contextUsed]
  rcases hx with rfl | rfl | rfl
  all_goals
    refine ⟨by decide +kernel, by decide +kernel, nextRequest_of (by decide +kernel) (by decide) (by decide +kernel) (by decide +kernel)
      (by decide), gets_of ?_, recordGood_of (by decide +kernel), by decide +kernel,
      by decide +kernel, gets_of ?_, may_of (by decide +kernel) ?_, by decide +kernel, by decide +kernel, gets_of ?_, by decide +kernel⟩
    all_goals
      simp only [EngineReaches]
      decide +kernel

def cqOf (n since : Nat) : CQ := { q0 with mode := 1, prod := 33, waiting := List.replicate n (since, [1, 2, 3, 4, 5, 6, 7, 8]) }
/-- CompletionQueues: 31 waiting entries and 32, one cycle before the 512 and on it; and a thread that waits to post, with room. -/
theorem witness_CompletionQueues : (∀ x ∈ [(31, 0, 511), (32, 0, 511), (31, 0, 512)],
      let s := { machine (waveOf [] []) with clock := x.2.2, cores := [(0, { ({} : Core) with cqs := [cqOf x.1 x.2.1] })] }
      Repacking s 0 2 (cqOf x.1 x.2.1) ∧ (cqOf x.1 x.2.1).waiting = (x.2.1, [1, 2, 3, 4, 5, 6, 7, 8]) :: (cqOf (x.1 - 1) x.2.1).waiting) ∧
    (let t := { th with stat := .posting ⟨0, [1, 2, 3], false⟩ }
     (tst t).tabs = true ∧ threadOf (tst t) 0 3 = some t ∧ t.kind = .record ∧ t.stat = .posting ⟨0, [1, 2, 3], false⟩ ∧
     (∀ r ∈ ((tst t).core 0).recs, ¬ (r.src = 2 ∧ r.idx = 3)) ∧
     Room (tst t) 0 t (bytesIn (tst t)) q0 (at_ 0x5014) (at_ 0x4020) (at_ 0x5010)) := by
  simp only [Repacking]
  refine ⟨by decide +kernel, by decide +kernel, by decide +kernel, by decide +kernel, by decide +kernel, by decide +kernel, ?_⟩
  refine room0 _ 0 33 _ rfl rfl ?_ _ (by rfl) (by decide +kernel) (by decide +kernel) ?_ ?_ ?_ rfl
  · decide +kernel
  all_goals
    simp only [EngineReaches]
    decide +kernel

/-- A launch record of one group of one wave for a context, in the last place of a ring at 0x30000. -/
def ringWith (gx asid : Byte) : Memory := [(0x30782, 1)] ++ (if gx = 0 then [] else [(0x30790, gx)]) ++
  [(0x30794, 1), (0x30798, 1), (0x3079C, 1), (0x3079E, 1), (0x307A0, 1), (0x307B0, asid)]
def hq (head tail : Nat) : HQ := ⟨0, 3, 0x30000, 4, head, tail⟩
def hqs (head tail : Nat) (mem : Memory) : State := { machine (waveOf [] []) with hostQs := [hq head tail], qbase := [(0, 0x20000)], mem }
/-- HostLaunches: an empty queue, a record that is accepted, an invalid one and one of no context. -/
theorem witness_HostLaunches : ((hqs 4 4 []).hostQs.find? (fun q => q.q == 0 && q.n == 3) = some (hq 4 4)) ∧
    ∀ m ∈ [ringWith 1 1, ringWith 0 1, ringWith 1 2], let s := hqs 15 0 m
      let b := s.mem.read 0x30780 128
      s.hostQs.find? (fun q => q.q == 0 && q.n == 3) = some (hq 15 0) ∧
      (hq 15 0).ring + 128 * ((hq 15 0).head % 2 ^ (hq 15 0).logn) = 0x30780 ∧ Memory.wf s.mem = true ∧ s.slots = [] ∧
      (∀ c ∈ s.clusters, c.2.ore = []) ∧ inDev 0x30780 = true ∧
      inDev (0x30780 + 127) = true ∧ inDev 0x20060 = true ∧ inDev (0x20060 + 31) = true ∧ (readRec b).hgds = [] ∧ (readRec b).done = 0 ∧
      (m = ringWith 1 1 → rawOk b = true ∧ s.ctx? (readRec b).asid ≠ none ∧ s.refuseCode (readRec b) none = none) ∧
      (m = ringWith 0 1 → rawOk b = false) ∧ (m = ringWith 1 2 → rawOk b = true ∧ s.ctx? (readRec b).asid = none) := by
  decide +kernel
/-- HostLaunches: the DONE word of a record that is refused. -/
theorem witness_HostLaunches_done : let s := { s0 with ctxs := [{ ctx0 with root := 0x200000 }], mem := tables }
    ({ rec0 with done := 0x40 } : LRec).done ≠ 0 ∧ s.walkTo 1 3 0x40 = some 0x40 ∧ inDev 0x40 = true ∧ Memory.wf s.mem = true ∧
    s.slots = [] ∧ ∀ c ∈ s.clusters, c.2.ore = [] := by
  decide +kernel

def hst (booted recovery stopped frozen : Bool) (v : Nat) (mem : Memory) : State := { machine (waveOf [] []) with
  booted
  recovery
  stopped
  hostFrozen := frozen
  versions := if v = 0 then [] else [(0, v)]
  qbase := [(0, 0x20000)]
  mem }
def desc (logn enable : Byte) : Memory := [(0x20062, 3), (0x20068, logn)] ++ if enable = 0 then [] else [(0x20069, enable)]
/-- HostRequests: a device that serves the host, in recovery mode and not, one that is stopped and one whose host is frozen; the last
queue of a quadrant with a descriptor for a ring of 2^16 records, enabled and not, and one too large; the ends of its ranges. -/
theorem witness_HostRequests : HostServed (hst true false false false 0 []) ∧ HostServed (hst true true false false 0 []) ∧
    (hst true false true false 0 []).stopped = true ∧
    ((hst true false false true 0 []).stopped = false ∧ (hst true false false true 0 []).hostFrozen = true) ∧
    (∀ x ∈ [(16, 1), (16, 0), (17, 1)], let s := hst true false false false 1 (desc x.1 x.2)
      let b := takes1 (bytesIn s) (fun i => 0x20060 + i) 32
      s.stopped = false ∧ s.hostFrozen = false ∧ s.booted = true ∧ s.recovery = false ∧ Tab.get 0 s.versions 0 ≠ 0 ∧
      Tab.get 0 s.qbase 0 + 32 * 3 = 0x20060 ∧ (descriptorOk 0 b ↔ x.1 = 16) ∧ fieldAt b 9 1 = x.2.toNat) ∧
    (let s := hst true false false false 0 []
     Memory.wf s.mem = true ∧ s.slots = [] ∧ (∀ c ∈ s.clusters, c.2.ore = []) ∧ (2 ^ 37 - 4) + 4 ≤ 2 ^ 37 ∧
     Tab.wf 0 s.versions = true ∧ Tab.wf 0 s.qbase = true ∧ s.heads[3]? = some ({} : Head) ∧ s.tabs = true ∧ 79 < 80 ∧ Tab.get 0 s.versions 0 = 0) ∧
    (s0.ctx? 1 = some ctx0 ∧ ctx0.killed = none ∧ s0.hasWork 1 = true) := by
  simp only [HostServed, descriptorOk]
  refine ⟨by decide, by decide, by decide, by decide, ?_, by decide +kernel, by decide +kernel⟩
  intro x hx
  simp only [List.mem_cons, List.not_mem_nil, or_false] at hx
  rcases hx with rfl | rfl | rfl <;>
    exact ⟨by decide +kernel, by decide +kernel, by decide +kernel, by decide +kernel, by decide +kernel, by decide +kernel,
      by decide +kernel, by decide +kernel⟩

/-- HostRequests: a request at the end of the last window, one that crosses into the next, a part that waits for its HSC, a
QBASE outside its window, and reads of BAR0, of a register and in recovery mode. -/
theorem witness_HostRequests_windows : let r : BusReq := ⟨false, 2 ^ 35 - 4, [], 8⟩
    let s := { hst true false false false 1 [] with
      hsc := [(1, { r with addr := 2 ^ 35, len := 4 })]
      agenda := [⟨2, .hsc 1⟩] }
    OneWindow s (2 ^ 37 - 4) 4 ∧ (2 ^ 35 - 4 + 8 - 1) / 2 ^ 35 ≠ (2 ^ 35 - 4) / 2 ^ 35 ∧ 2 ^ 35 - 4 + 8 ≤ 2 ^ 37 ∧
    s.agenda = ⟨2, .hsc 1⟩ :: [] ∧ s.stopped = false ∧ s.hsc = (1, ⟨false, 2 ^ 35, [], 4⟩) :: [] ∧ (∀ e ∈ s.hsc, e.1 ≠ 0) ∧
    ¬ (2 * 2 ^ 35 ≤ Tab.get 0 s.qbase 2 + 32 * 63) ∧ (0x10008 + 16 * 3, 8, 0) ∈ barTable s ∧ (0x30402, 2, 1700) ∈ barTable s ∧
    s.heads.length = 4 := by
  simp only [OneWindow]
  decide +kernel

def acc0 : AccessE := { e := 0, base := 0x200000, size := 0x200000, peers := 0x80, r := true, w := false }
/-- PeerRequests: a read of the last bytes of an entry, one past its end, a write that it does not admit and one that it does; and a
link that is down. -/
theorem witness_PeerRequests : let s := { machine (waveOf [] []) with linkUp := true, access := [acc0, { acc0 with e := 1, peers := 1, w := true }] }
    s.stopped = false ∧ s.linkUp = true ∧ Admits s 7 false 0x3FFF00 256 ∧ ¬ Admits s 7 false 0x3FFF01 256 ∧
    ¬ Admits s 7 true 0x200000 1 ∧ Admits s 0 true 0x200000 1 ∧ Memory.wf s.mem = true ∧ s.slots = [] ∧
    (∀ c ∈ s.clusters, c.2.ore = []) ∧ s0.linkUp = false := by
  simp only [Admits]
  decide +kernel
/-! ### Peers, displays, power, boot and steps -/

def ho : HandOut := { seq := 7, peer := 2, core := 0, asid := 1, rva := 0x2000, payload := 5, cq := 2, thread := 3, entries := 0xFFFF, cmd := 44, ext := 0x100 }
def hos (up : Bool) : State := { tst th with
  cores := [(0, { ({} : Core) with cqs := [q0] })]
  mem := [(0x5014, 2)]
  handOut := [ho]
  linkUp := up
  linkLo := 1
  linkHi := 1 }
theorem handedOff (up : Bool) (h : (hos up).tabs = true) : HandedOff (hos up) ho := by
  refine ⟨rfl, rfl, h, ?_, ?_, ?_⟩
  · rintro (h | ⟨r, hr, -⟩)
    · exact h rfl
    · cases hr
  · intro t ht
    cases ht
  · intro c hc
    have : c = ctx0 := (Option.some.inj hc).symm
    rw [this]; rfl
/-- HandOffs: links that come up and down with a record out, and its returns. -/
theorem witness_HandOffs : ∀ up ∈ [true, false], (hos up).stopped = false ∧ (hos up).linkUp = up ∧ HandedOff (hos up) ho ∧
    EngineMay (unlinked (hos up)) 0 1 (ho.rva + 60) 4 (at_ 0x203C) ∧
    (∀ m : Nat → Byte, m 0x5014 = 2 → m 0x5015 = 0 → m 0x5016 = 0 → m 0x5017 = 0 →
      Room (unlinked (hos up)) 0 (portContext ho) m q0 (at_ 0x5014) (at_ 0x4020) (at_ 0x5010)) ∧
    EngineMay (hos up) 0 1 (ho.rva + 60) 4 (at_ 0x203C) ∧ EngineMay (hos up) 0 1 (ho.rva + 36) 12 (at_ 0x2024) ∧
    (∀ m : Nat → Byte, m 0x5014 = 2 → m 0x5015 = 0 → m 0x5016 = 0 → m 0x5017 = 0 →
      Room (hos up) 0 (portContext ho) m q0 (at_ 0x5014) (at_ 0x4020) (at_ 0x5010)) ∧
    Tab.wf 0 (hos up).versions = true := by
  intro up hu
  simp only [List.mem_cons, List.not_mem_nil, or_false] at hu
  rcases hu with rfl | rfl
  all_goals
    refine ⟨rfl, rfl, handedOff _ (by decide +kernel), may_of (by decide +kernel) ?_, ?_, may_of (by decide +kernel) ?_,
      may_of (by decide +kernel) ?_, ?_, by decide +kernel⟩
    · simp only [EngineReaches]
      decide +kernel
    rotate_left
    · simp only [EngineReaches]
      decide +kernel
    · simp only [EngineReaches]
      decide +kernel
    all_goals
      intro m h0 h1 h2 h3
      refine room0 _ 0 33 m rfl rfl ?_ _ (by rfl) (by decide +kernel) (by decide +kernel) ?_ ?_ ?_ rfl
      · have : takes1 m (at_ 0x5014) 4 = [2, 0, 0, 0] := by
          simp [takes1, at_, List.range_succ, h0, h1, h2, h3]
        simp only [consNow, q0, if_true, this]
        decide
      all_goals
        simp only [EngineReaches]
        decide +kernel
/-- HandOffs: an entry of the record that is still to be posted; and a return for a record that the link has failed. -/
theorem witness_HandOffs_busy : let s := { hos true with cores := [(0, { ({} : Core) with trp := { ({} : Trp) with threads := [th] } })] }
    s.stopped = false ∧ s.linkUp = true ∧ s.handOut = [ho] ∧ s.handBusy ho = true ∧
    ∀ h ∈ [{ ho with lost := true }], h.seq = 7 → h.lost = true := by
  decide +kernel
/-- A hand-off packet: a full stack, no node, peer 2, ASID 9, sequence 7. -/
def pkt0 : List Byte := ((List.replicate 64 (0 : Byte) ++ List.replicate 68 0 ++ [16, 0, 0xFF, 0]) ++ List.replicate 192 0 ++ [2, 0, 9, 0, 7, 0, 0, 0]) ++ List.replicate 16 0
/-- HandOffs: a packet that its table knows, one of another context, one whose program is missing, and its start. -/
theorem witness_HandOffs_packet : (∀ x ∈ [(9, 1), (8, 1), (9, 2)],
      let s := { machine (waveOf [] []) with
        linkUp := true
        linkLo := 0
        linkHi := 1
        hand := [⟨0, 2, x.1, 1, 0⟩]
        cores := [(0, { ({} : Core) with trp := { ({} : Trp) with progs := [⟨x.2, 0, [0]⟩], tables := [⟨1, 0, 0⟩] } })] }
      s.stopped = false ∧ s.linkUp = true ∧ s.linkLo ≤ 1 ∧ 1 ≤ s.linkHi ∧ pkt0.length = 352 ∧ fieldAt pkt0 328 1 = 2 ∧ fieldAt pkt0 330 2 = 9 ∧
      ((∀ e ∈ s.hand, ¬ (e.peer = 2 ∧ e.asid = 9)) ↔ x.1 = 8) ∧
      (x.1 = 9 → s.hand.find? (fun e => e.peer == 2 && e.asid == 9) = some ⟨0, 2, 9, 1, 0⟩) ∧
      (s.core 0).trp.progs.find? (fun p => p.asid == 1 && p.index == fieldAt pkt0 8 2) = (if x.2 = 1 then some ⟨1, 0, [0]⟩ else none) ∧
      (∃ d ∈ (s.core 0).trp.tables, d.asid = 1 ∧ d.id = fieldAt pkt0 10 1) ∧ fieldAt pkt0 134 1 = 0xFF ∧ s.tabs = true ∧
      s.cores.all (fun c => c.2.trp.queue.isEmpty && c.2.trp.threads.isEmpty) = true ∧ s.ctx? 1 = some ctx0 ∧ ctx0.killed = none) ∧
    (let r := req0 none (some (pkt0, 2, 7))
     let s := trs (trp0 r) [] []
     ((∃ pre post, (s.core 0).trp.queue = pre ++ r :: post ∧ ∀ x ∈ pre, s.mayStart 0 x = false) ∧ mayTake s 0 r) ∧
     s.tabs = true ∧ FreeContext s 0 0 ∧ r.resume = none ∧ r.needs = [] ∧
     fieldAt ((pkt0.drop 64).take 256) 70 1 = 0xFF ∧ fieldAt ((pkt0.drop 64).take 256) 68 1 ≤ 16 ∧
     (s.core 0).trp.progs.find? (fun p => p.asid == 1 && p.index == fieldAt pkt0 8 2) = some ⟨1, 0, [0, 0]⟩) := by
  simp only [FreeContext, contextUsed]
  exact ⟨by decide +kernel, takes_of (by decide +kernel) (by decide) (by decide +kernel) (by decide +kernel), by decide +kernel⟩

def head0 (en : Bool) (width fmt : Nat) : Head := { flippa := 0x1000, stride := 256, width, height := 1, fmt, en }
/-- DisplayAndPower: a head that is off, and heads at the ends of the ranges of their mode; and a cluster whose counter is full. -/
theorem witness_DisplayAndPower : (∀ x ∈ [(false, 1, 0), (true, 1, 0), (true, 16384, 2)], let s := { machine (waveOf [] []) with heads := [head0 x.1 x.2.1 x.2.2, {}, {}, {}] }
      s.stopped = false ∧ s.heads[0]? = some (head0 x.1 x.2.1 x.2.2) ∧
      ((head0 x.1 x.2.1 x.2.2).flippa % 8 = 0 ∧ (head0 x.1 x.2.1 x.2.2).flippa < 2 ^ 37 ∧ (head0 x.1 x.2.1 x.2.2).stride % 256 = 0 ∧
        1 ≤ x.2.1 ∧ x.2.1 ≤ 16384 ∧ x.2.2 < 3)) ∧
    (let s := { machine (waveOf [] []) with clusters := [(79, { ({} : Cluster) with droop := 0xFFFF })] }
     s.stopped = false ∧ s.tabs = true ∧ (s.cluster 79).droop = 0xFFFF) := by
  decide +kernel
def pm (wall mhz : Nat) (board : BitVec 16) (temp : BitVec 16) (held : Nat) : State := { machine (waveOf [] []) with
  wall
  mhz
  board
  pmHeld := held
  temps := if temp = 0 then [] else [(47, temp)] }
/-- DisplayAndPower: the last line of a frame; and a decision: too early, hot by each sign at the edge of its limit and at the lowest clock, calm after a second,
neither, and temperatures about the trip. -/
theorem witness_DisplayAndPower_scan : let f : Scan := { surface := 0x1000, stride := 256, row := 40, height := 2, next := 3 }
    let s := { machine (waveOf [] []) with heads := [{ head0 true 10 0 with scan := some f }, {}, {}, {}], agenda := [⟨1, .scanLine 0⟩] }
    s.stopped = false ∧ s.heads[0]? = some { head0 true 10 0 with scan := some f } ∧ f.next < linesOf f ∧ linesOf f = 4 := by
  decide +kernel
theorem witness_DisplayAndPower_decisions : ((pm 25418685599999 1700 0 0 0).wall < (pm 25418685599999 1700 0 0 0).pmTime + 100 * 254186856000) ∧
    (∀ s ∈ [pm 25418685600000 1700 601 0 0, pm 25418685600000 1400 0 801 0, { pm 25418685600000 1351 0 0 0 with pmDroop := true }, pm 25418685600000 1350 601 0 499],
      s.stopped = false ∧ s.pmTime + 100 * 254186856000 ≤ s.wall ∧
      (600 < s.board.toNat ∨ (∃ i < 48, 800 < (Tab.get 0 s.temps i).toInt) ∨ s.pmDroop = true)) ∧
    (let s := { pm (2 * 254186856000000) 1690 574 759 0 with pmTime := 254186856000000 }
     s.board.toNat < 575 ∧ (∀ i < 48, (Tab.get 0 s.temps i).toInt < 760) ∧ s.pmDroop = false ∧
     s.pmStep + 1000 * 254186856000 ≤ s.pmTime + 100 * 254186856000 ∧ s.pmTime + 100 * 254186856000 ≤ s.wall ∧ s.mhz < 1700) ∧
    (let s := pm 25418685600000 1690 600 800 3
     s.pmTime + 100 * 254186856000 ≤ s.wall ∧ ¬ (600 < s.board.toNat ∨ (∃ i < 48, 800 < (Tab.get 0 s.temps i).toInt) ∨ s.pmDroop = true) ∧
     ¬ (s.board.toNat < 575)) ∧
    (Tab.get 0 (pm 0 1700 0 879 0).temps 47).toInt < 880 ∧ 880 ≤ (Tab.get 0 (pm 0 1700 0 880 0).temps 47).toInt := by
  refine ⟨by decide +kernel, by decide +kernel, by decide +kernel, by decide +kernel, by decide +kernel, by decide +kernel⟩

/-- A context descriptor for ASID a and slot k with OVKB 16, COVKB 64 and AFQLOG 6. -/
def descOf (asid slot ovkb : Byte) : List Byte := [asid, 0, slot, 0] ++ List.replicate 20 0 ++ [ovkb, 0, 64, 0] ++ List.replicate 28 0 ++ [6] ++ List.replicate 71 0
/-- DriverRequests: a partition of idle clusters and one of a cluster with a group; ways that are free, taken and locked; a route; a
context with work and one without; a new context, a rewritten one and one out of range; and the tables of the port. -/
theorem witness_DriverRequests : (s0.stopped = false ∧ Tab.wf 0 s0.parts = true ∧ Tab.wf 0 s0.ways = true ∧ [78, 79].Nodup ∧ (∀ k ∈ [78, 79], k < 80) ∧
      s0.parts = [] ∧ (∀ g ∈ s0.groups, clusterOf g.core ∉ [78, 79] ∧ (clusterOf g.core < 80 → Tab.get 0 s0.parts (clusterOf g.core) ≠ 7)) ∧
      ∃ g ∈ s0.groups, clusterOf g.core ∈ [0]) ∧
    (let s := { s0 with ways := [(9, 2)], locks := [(9, 1)] }
     Tab.wf 0 s.ways = true ∧ s.ctx? 1 ≠ none ∧ Tab.get 0 s.ways (8 * 1 + 0) = 0 ∧ Tab.get 0 s.ways (8 * 1 + 1) ≠ 0 ∧ Tab.get 0 s.locks (8 * 79 + 7) = 0) ∧
    (Tab.wf 0 s0.routes = true ∧ ∀ p ∈ s0.net, p.cls ≠ 15) ∧ (s0.hasWork 1 = true ∧ s0.hasWork 2 = false) ∧
    (contextOk (descOf 2 1 16) ∧ contextOk (descOf 1 0 16) ∧ ¬ contextOk (descOf 2 1 48) ∧ (descOf 2 1 16).length = 128 ∧
      (∀ x ∈ s0.ctxs, x.asid = 2 ∨ x.slot = 1 → s0.hasWork x.asid = false) ∧
      (fieldAt (descOf 2 1 16) 0 2 = 2 ∧ fieldAt (descOf 2 1 16) 2 1 = 1 ∧ fieldAt (descOf 1 0 16) 0 2 = 1) ∧
      ∃ x ∈ s0.ctxs, x.asid = 1 ∧ s0.hasWork x.asid = true) ∧ (2 ^ 36 % 2 ^ 21 = 0 ∧ 0 % 2 ^ 37 = 0) := by
  have h : ∀ x ∈ [((2 : Byte), (1 : Byte)), (1, 0)], contextOk (descOf x.1 x.2 16) := by
    intro x hx
    simp only [List.mem_cons, List.not_mem_nil, or_false] at hx
    rcases hx with rfl | rfl
    all_goals
      unfold contextOk
      repeat' (first | apply And.intro | decide +kernel)
  exact ⟨by decide +kernel, by decide +kernel, by decide +kernel, by decide +kernel,
    ⟨h (2, 1) (by simp), h (1, 0) (by simp), fun h => absurd h.2.2.2.2.2.1.2.2 (by decide +kernel), by decide +kernel⟩, by decide +kernel⟩

/-- DriverRequests, a route that reserves a channel: for a partition without clusters, and for one whose routes leave it. -/
theorem witness_DriverRequests_route : (0x702 / 2 % 8 ≠ 0 ∧ 0x702 / 2 ^ 8 % 8 = 7 ∧ 0x102 / 2 ^ 8 % 8 = 1) ∧
    RoutesStay { s0 with routes := [(3, 0x702)] } 3 7 ∧
    ¬ RoutesStay { s0 with parts := [(0, 1), (2, 1)], routes := [(3, 0x102)] } 3 1 := by
  refine ⟨by decide, ?_, ?_⟩
  · intro a _ b _ r _ h
    have h : (0 : Nat) = 7 := h
    omega
  · intro h
    exact absurd (h 0 (by decide) 2 (by decide) 1 (by decide) (by rfl) (by rfl) (by simp [onRoute, Tab.get])) (by decide +kernel)

def fw0 (kind : Nat) : FwImage := { kind, body := [], digest := 0, version := 1, keyIndex := 4, publicKey := [], signature := [] }
/-- BootChecks: three images in their order; whether a signature verifies is an open value. Attestation: a device after each step of a
negotiation. -/
theorem witness_BootChecks : (fw0 0).kind = 0 ∧ (fw0 1).kind = 1 ∧ (fw0 2).kind = 2 ∧ Tab.wf 0 s0.counters = true ∧ Tab.wf 0 s0.fuses = true ∧
    s0.recov = [] ∧ (let s := { s0 with recovery := true, agenda := [⟨1, .recoveryImage (fw0 1)⟩] }
      s.stopped = false ∧ s.hostFrozen = false ∧ s.recovery = true) := by
  decide +kernel
theorem witness_Attestation : ∀ r ∈ [(0 : BitVec 2), 1, 3], HostServed { s0 with spdmReady := r } ∧
    (r ≠ 0 → { s0 with spdmReady := r }.spdmReady.getLsbD 0 = true) ∧ ({ s0 with spdmReady := r }.spdmReady.getLsbD 1 = true ↔ r = 3) := by
  simp only [HostServed]
  decide +kernel

/-- DecodeEncode: of every clause, an encodable word of each reading and a privileged one. -/
theorem witness_DecodeEncode : (encode (.addR ⟨false, 7⟩ 3 1 2) = some 0x03C30420 ∧ wellFormed (.addR ⟨false, 7⟩ 3 1 2) = true) ∧
    decodeWave true 0x03C30420 = .ok (.addR ⟨false, 7⟩ 3 1 2) ∧ decodeTrav 0x40200001 = .ok (.nfetch 8 1) := by
  refine ⟨⟨by rfl, by rfl⟩, by rfl, by rfl⟩

def fetchable (mem : Memory) (agenda : List Turn) : State := { s0 with waves := [w0], mem, agenda }
theorem issuesNext0 (s : State) (h1 : s.tabs = true) (h2 : s.readyIn 0 0 = [w0]) (h3 : s.wave? 0 0 = some w0) (h4 : s.promotable w0 = false) :
    IssuesNext s 0 0 w0 p0 where
  tabs := h1
  ready := by simp [h2]
  here := h3
  first := by
    intro v hv hne
    simp only [h2, List.mem_cons, List.not_mem_nil, or_false] at hv
    exact absurd hv hne
  calm := by
    intro v hv
    simp only [h2, List.mem_cons, List.not_mem_nil, or_false] at hv
    exact hv ▸ h4
  path := by rfl
  join := by decide
  run := .inl rfl
/-- StepRuns: a wave that issues ADD, nothing ready, a thread, an event, and an empty agenda. -/
theorem witness_StepRuns : (let s := fetchable [(0x10000, 0x20), (0x10001, 0x04), (0x10002, 0xC3), (0x10003, 0x03)] [⟨3, .issue 0 0⟩]
     s.stopped = false ∧ IssuesNext (afterTime s) 0 0 w0 p0 ∧ Fetches (afterTime s) (w0.onPath p0) p0.pc 0x03C30420) ∧
    (afterTime (fetchable [] [⟨3, .issue 1 0⟩])).readyIn 1 0 = [] ∧
    (let s := { tst { th with num := 63 } with agenda := [⟨1, .trav 0⟩] }
     s.stopped = false ∧ s.tabs = true ∧ threadOf s 0 (((s.core 0).trp.last + 1 + 4) % 64) = some { th with num := 4 } ∧
     s.threadReady 0 { th with num := 4 } = true ∧
     (∀ j < 4, ∀ v, v ∈ (s.core 0).trp.threads → v.num ≠ ((s.core 0).trp.last + 1 + j) % 64)) ∧
    encode .ualinkLinkDown = none ∧ (fetchable [] []).agenda = [] := by
  refine ⟨⟨rfl, issuesNext0 _ (by decide +kernel) (by decide +kernel) (by decide +kernel) (by decide +kernel), ?_⟩, by decide +kernel,
    by decide +kernel, rfl, rfl⟩
  refine ⟨0x10000, 0, ?_, by decide +kernel, ?_⟩
  · simp only [Reaches, Translates]
    decide +kernel
  · show match (none : Option Word) with
      | some y => (0x03C30420 : Word) = y
      | none => inDev 0x10000 = true ∧ (0x03C30420 : Word).toNat = leNat (Memory.read _ 0x10000 4)
    decide +kernel
/-- StepKeeps: a state in the form, and a step that it takes. -/
theorem witness_StepKeeps : (fetchable [] []).wf = true ∧ ∃ t, step (fetchable [] []) = .next t :=
  ⟨by decide +kernel, _, rfl⟩
/-! ## Single steps, with results from the worked examples of the spec -/

def ctl : Ctl := ⟨false, 7⟩
def w32 (n : Nat) : Word := BitVec.ofNat 32 n
/-- A wave with 32 active lanes and no helper lanes, and some words in every lane of g registers. -/
def full (gs ws : List (Nat × Word)) : Wave := { waveOf gs ws with
  helper := 0
  paths := [{ p0 with mask := BitVec.allOnes 32 }] }
/-- The same with lane 0 alone active. -/
def one (gs ws : List (Nat × Word)) : Wave := { full gs ws with paths := [{ p0 with mask := 1 }] }
/-- Words in single lanes of a register. -/
def inLanes (w : Wave) (r : Nat) (vs : List (Nat × Word)) : Wave :=
  { w with g := vs.foldl (fun g e => Tab.put 0 g (32 * r + e.1) e.2) w.g }
/-- The machine after an instruction of a wave, and the wave. -/
def ran (i : Instr) (w : Wave) : State := match exec i (machine w) with
  | .next t => t
  | _ => State.reset
def waveAt (t : State) : Wave := (t.wave? 0 0).getD (waveOf [] [])
/-- What a destination holds, or is to hold when its result lands. -/
def result (w : Wave) (d : Dst) : Word := match w.pend.find? fun q => q.dst == d with
  | some q => (match q.src with
    | .val v => v
    | _ => 0xBAD)
  | none => w.readDst d
def lane0 (i : Instr) (w : Wave) (rs : List Reg) : List Word :=
  let v := waveAt (ran i w)
  rs.map fun r => result v (.g r 0)
def flags (i : Instr) (w : Wave) : Word := let v := waveAt (ran i w); v.fpsr ||| result v .fpsr

/-- R73: the examples of BFX and BFXU. -/
theorem test_bfx : lane0 (.bfx ctl 6 1 2) (one [(1, 0xF00), (2, 0x408)] []) [6] = [0xFFFFFFFF] ∧
    lane0 (.bfxu ctl 6 1 2) (one [(1, 0xF00), (2, 0x408)] []) [6] = [0xF] ∧
    lane0 (.bfxu ctl 6 1 2) (one [(1, 0xF00), (2, 0x201C)] []) [6] = [0] := by decide +kernel
/-- Table 3-7. -/
theorem test_lea8 : ([3, 0xFFFFFFFE, 0x80000000].map fun i =>
      lane0 (.lea8 ctl 10 8 4) (inLanes (one [(8, 0xFFFFFFF0), (9, 0x12)] []) 4 [(0, i)]) [10, 11]) =
    [[0x8, 0x13], [0xFFFFFFE0, 0x12], [0xFFFFFFF0, 0xE]] := by decide +kernel
/-- The 96-bit add after Table 3-7: its first and its last step. -/
theorem test_addc : (let w := waveAt (ran (.addc ctl 20 20 24) (one [(20, 0xFFFFFFFF), (24, 1)] []))
     w.readG 20 0 = 0 ∧ w.readP 6 0 = true) ∧
    (let w := waveAt (ran (.addc ctl 22 22 26) { one [(22, 1)] [] with p := (List.range 32).map fun k => (32 * 6 + k, true) })
     w.readG 22 0 = 2 ∧ w.readP 6 0 = false) := by exact ⟨by decide +kernel, by decide +kernel⟩
/-- R107: u32 of −0.6 and of −0.4, with flag NV, and with NX. -/
theorem test_fcvt_fi : (lane0 (.fcvtFi ctl 6 1 1 0) (one [(1, 0xBF19999A)] []) [6], flags (.fcvtFi ctl 6 1 1 0) (one [(1, 0xBF19999A)] [])) =
      ([0], 0x1) ∧
    (lane0 (.fcvtFi ctl 6 1 1 0) (one [(1, 0xBECCCCCD)] []) [6], flags (.fcvtFi ctl 6 1 1 0) (one [(1, 0xBECCCCCD)] [])) = ([0], 0x10) := by
  exact ⟨by decide +kernel, by decide +kernel⟩
/-- R115: EX2 of an integer is exact, and sets no flag. -/
theorem test_ex2 : lane0 (.ex2 ctl 5 1) (one [(1, 0xBF800000)] []) [5] = [0x3F000000] ∧
    flags (.ex2 ctl 5 1) (one [(1, 0xBF800000)] []) = 0 := by exact ⟨by decide +kernel, by decide +kernel⟩
/-- The worked BX8 block (Table 4-6), and what its lanes decode to. -/
def bx8In : Wave := inLanes (full [] []) 6 [(0, 0x40A00000), (1, 0xBE99999A), (2, 0x42C80000), (3, 0x3C23D70A), (4, 0x40FCCCCD), (5, 0x42FE0000)]
theorem test_bx8 : let w := waveAt (ran (.fcvtFx ctl 5 6 0) bx8In)
    [0, 1, 2, 3, 4, 5].map (fun l => result w (.g 5 l)) = [0x858128, 0x858182, 0x858172, 0x858100, 0x858144, 0x85817F] := by
  decide +kernel
theorem test_bx8_back : let w := waveAt (ran (.fcvtXf ctl 5 6 0) (inLanes (full [] []) 6 [(0, 0x858128), (1, 0x858182), (4, 0x858144), (5, 0x85817F)]))
    [0, 1, 4, 5].map (fun l => result w (.g 5 l)) = [0x40A00000, 0xBE800000, 0x41000000, 0x42FC0000] := by
  decide +kernel
/-- Table 5-6, and the sum of the streamed values after R130. -/
def atLanes (m : Lanes) (r : Nat) (vs : List (Nat × Word)) : Wave := { inLanes (full [] []) r vs with paths := [{ p0 with mask := m }] }
theorem test_fredux : result (waveAt (ran (.fredux ctl 2 6 .add) (atLanes 7 6 [(0, 0x3F800000), (1, 0x33800000), (2, 0x33800000)]))) (.g 2 0) = 0x3F800000 ∧
    result (waveAt (ran (.fredux ctl 2 6 .add) (atLanes 13 6 [(0, 0x3F800000), (2, 0x33800000), (3, 0x33800000)]))) (.g 2 0) = 0x3F800001 := by
  exact ⟨by decide +kernel, by decide +kernel⟩
theorem test_fredux_stream : let w := inLanes (full [] []) 10 ((List.range 32).map fun l => (l, if l < 8 then 0x40000000 else 0x3F800000))
    result (waveAt (ran (.fredux ctl 11 10 .add) w)) (.g 11 31) = 0x42200000 := by decide +kernel
/-- R117: SHFLU by 2 gives lanes 0 and 1 their own values. -/
theorem test_shflu : let w := waveAt (ran (.shflu ctl 5 6 2) (inLanes (full [] []) 6 ((List.range 32).map fun l => (l, w32 (l + 1)))))
    [0, 1, 2, 31].map (fun l => result w (.g 5 l)) = [1, 2, 1, 30] := by decide +kernel
/-- Table 6-7: JPT at 0x104 arms 0x118, and the divergence at 0x108 makes its three paths. -/
theorem test_jpt : ((waveAt (ran (.jpt false 5) { full [] [] with paths := [{ p0 with pc := 0x104, mask := BitVec.allOnes 32 }] })).paths.map
    fun p => (p.pc, p.armed, p.armPc)) = [(0x108, true, 0x118)] := by decide +kernel
theorem test_divergence : let w := { full [] [] with
      paths := [{ p0 with pc := 0x108, mask := BitVec.allOnes 32, armed := true, armPc := 0x118 }]
      p := [0, 1, 2, 3, 20].map fun k => (32 + k, true) }
    ((waveAt (ran (.bra ⟨false, 1⟩ 3) w)).paths.map fun p => (p.pc, p.mask, p.reconv)) =
      [(0x118, 0xFFFFFFFF, true), (0x10C, 0xFFEFFFF0, false), (0x114, 0x0010000F, false)] := by decide +kernel
/-- R219: two lanes of ATOM.ADD.f32 with 2^−24 at a location that holds 1.0. -/
theorem test_atom_merge : atomFold .addF32 0x3F800000 [(0, 0x33800000, 0), (1, 0x33800000, 0)] = 0x3F800000 := by decide +kernel
/-- Table 9-5: index 0 merges itself and the held index 1, then index 2 merges itself and the held index 3. -/
def oreState (result remain : Nat) (held : List OreHeld) (k : Nat) (v : DWord) : State := { machine (waveOf [] []) with
  mem := Memory.write [] 0x1000 (bytesLE 8 result ++ bytesLE 4 4 ++ bytesLE 4 remain)
  cores := [(0, { ({} : Core) with sq := [⟨5, 4, 0, 0, 0, 0, 1, 0x1000, .ored 0 k v false, [], 0x1000, 0⟩] })]
  clusters := [((homeOf 0x1000).1, { ({} : Cluster) with oreHeld := held, ore := if held = [] then [] else [⟨0x1000, 1, 0x1000⟩] })] }
theorem test_ored : let ran (s : State) : Nat × Nat := match exec (.oreContribution 0 0) s with
      | .next t => (leNat (t.mem.read 0x1000 4), leNat (t.mem.read 0x100C 4))
      | _ => (0, 99)
    ran (oreState 0 4 [⟨0x1000, 1, 0x33800000, 1, 0x1000, 0⟩, ⟨0x1000, 3, 0xBF800000, 1, 0x1000, 0⟩] 0 0x3F800000) = (0x3F800000, 2) ∧
    ran (oreState 0x3F800000 2 [⟨0x1000, 3, 0xBF800000, 1, 0x1000, 0⟩] 2 0x33800000) = (0, 0) := by decide +kernel
/-- R187: the home of physical address 0x12300. -/
theorem test_home : homeOf 0x12300 = (51, 3) ∧ portOf 0x12300 = 0 := by decide
/-- Table 8-3: a signed byte is extended, an unsigned halfword is not. -/
theorem test_extension : loadedWord ⟨.sb, 0⟩ [0x80] = 0xFFFFFF80 ∧ loadedWord ⟨.h, 0⟩ [0x80, 0xFF] = 0xFF80 := by decide
/-- R193: a misaligned word traps MISALIGNED_ACCESS. -/
theorem test_misaligned : ((waveAt (ran (.ldg ctl 10 4 .w 1) { waveOf [] [] with g := [(32 * 4, 0x1002)] })).stat = .run) = False ∧
    (match (waveAt (ran (.ldg ctl 10 4 .w 1) { waveOf [] [] with g := [(32 * 4, 0x1002)] })).stat with
      | .trapped m => m.cause
      | _ => 0) = 0x140 := by exact ⟨by decide +kernel, by decide +kernel⟩
/-- The worked trap: slot 9 of group slot 2 on core 37 issues trap 0x025 at 0x10120. -/
def trapper : State := { machine (waveOf [] []) with
  groups := [{ group0 with core := 37, gslot := 2, slots := [9] }]
  waves := [{ full [] [] with core := 37, slot := 9, gslot := 2, word := 0x01C00253, paths := [{ p0 with pc := 0x10120, mask := BitVec.allOnes 32 }] }]
  selCore := 37
  selSlot := 9 }
theorem test_trap : (match exec (.trap ctl 0x025) trapper with
    | .next t => (match t.net with
      | [p] => (p.dest, match p.body with
        | .mail _ _ _ _ b => [leNat (b.take 2), leNat (b.drop 2 |>.take 1), leNat (b.drop 4 |>.take 4), leNat (b.drop 8 |>.take 8),
            leNat (b.drop 16 |>.take 4), leNat (b.drop 20 |>.take 4), leNat (b.drop 28)]
        | _ => [])
      | _ => (0, []))
    | _ => (0, [])) = (178, [0x3F5, 9, 0xFFFFFFFF, 0x10120, 0x01C00253, 0x25, 0x00010925]) := by decide +kernel
/-- Table 7-5, cycle 0: gang 0 of a launch in partition 1, cluster 12. -/
def partLaunch : Launch := lau { rec0 with gx := 8, gy := 1, gz := 1, gang := 4, waves := 8, taskw := 0, blocks := 5, localkb := 96, bars := 2, cslots := 0, part := 1 }
theorem test_placement : (match exec (.gangPlacement 0) { machine (waveOf [] []) with
      groups := []
      waves := []
      launches := [partLaunch]
      parts := [(12, 1)]
      partAsids := [(1, 1)] } with
    | .next t => t.groups.map fun g => (g.index, g.core)
    | _ => []) = [(0, 24), (1, 25), (2, 24), (3, 25)] := by decide +kernel
/-- Table 10-5, R147: the last arrival completes a phase. -/
theorem test_barrier : let g := { group0 with barriers := [(3, { phase := 5, arrivals := [1] })] }
    (match exec (.barSync ctl 3) { machine (full [] []) with groups := [g] } with
    | .next t => (t.group? 0 0).map fun g => (Tab.get ({} : Barrier) g.barriers 3).phase
    | _ => none) = some 6 := by decide +kernel
/-- The block sum of the worked matrix example: rounded once, 1 + 31 × 2^−24 gives 0x3F800010. -/
def onesRow : Oper := { fmt := 0, spk := 0, elems := [], exps := [], masks := [] }
def mmaState : State := engine 2 { owner := some 0, inbox := [packet0 3 2 2]
                                   latch := some { onesRow with elems := [(bytesLE 2 0x3F80 ++ (List.replicate 31 (bytesLE 2 0x3380)).flatten)] }
                                   bbuf := some { onesRow with elems := [(List.replicate 32 (bytesLE 2 0x3F80)).flatten] } }
theorem test_mma : (match exec (.mxeDispatch 0) mmaState with
    | .next t => Tab.get 0 (t.fctx 0 2).tiles (1024 * 2)
    | _ => 0) = 0x3F800010 := by decide +kernel
/-- The worked traversal: its TBOX result lists child 1 before child 0, TPOP of an empty stack branches to word 13, TTRI's word. -/
theorem test_traversal : hitList 0xFAC68103 = [1, 0] ∧
    (match exec (.tpop 8 8) (tst { th with stack := [], pc := 5 }) with
      | .next t => (threadOf t 0 3).map fun x => x.pc
      | _ => none) = some 13 ∧
    (match exec (.tbr .fge 10 7 (-3)) (tst { th with t := [(7, 0x40400000), (10, 0x7F800000)], pc := 8 }) with
      | .next t => (threadOf t 0 3).map fun x => x.pc
      | _ => none) = some 5 := by decide +kernel
/-- Whole steps: ADD, a branch of a thread and a privileged word, each the first instruction after reset. -/
theorem test_step_wave : (match step (State.reset.withFetchWord 32 0x03C30420) with
    | .next t => (t.waves.map fun w => w.paths.map fun p => p.pc == 0x10004)
    | _ => []) = [[true]] := by decide +kernel
theorem test_step_traversal : (match step (State.reset.withFetchWord 32 0x22000008) with
    | .next t => t.cores.map fun c => c.2.trp.threads.map fun x => x.pc
    | _ => []) = [[8]] := by decide +kernel
theorem test_step_service : (match step (State.reset.withFetchWord 32 0x01C00C07) with
    | .next t => t.waves.map fun w => (w.core, w.stat)
    | _ => []) = [(160, .halt 0)] := by decide +kernel
end Sys2Proof.Tests
end

/-! # Integer instructions (R61 to R80)

The words that the integer instructions compute are the numbers of the spec, narrowed (R61); the shared forms of
Sys2Proof/Laws/Shapes.lean carry these equations over to the instructions. -/

/-! ## The functions of Table 3-4 (R62, R66) -/

namespace Sys2Proof.Claims

open Sys2Proof.Machine

theorem add_ofInt {n : Nat} (x : BitVec n) (k : Int) : x + BitVec.ofInt n k = BitVec.ofInt n (x.toInt + k) := by
  rw [BitVec.ofInt_add, BitVec.ofInt_toInt]

theorem mul_ofInt {n : Nat} (x : BitVec n) (k : Int) : x * BitVec.ofInt n k = BitVec.ofInt n (x.toInt * k) := by
  rw [BitVec.ofInt_mul, BitVec.ofInt_toInt]

theorem add_eq_ofInt {n : Nat} (x y : BitVec n) : x + y = BitVec.ofInt n (x.toInt + y.toInt) := by
  rw [← add_ofInt, BitVec.ofInt_toInt]

theorem sub_eq_ofInt {n : Nat} (x y : BitVec n) : x - y = BitVec.ofInt n (x.toInt - y.toInt) := by
  rw [Int.sub_eq_add_neg, ← add_ofInt, BitVec.ofInt_neg, BitVec.ofInt_toInt, BitVec.sub_eq_add_neg]

theorem mul_eq_ofInt {n : Nat} (x y : BitVec n) : x * y = BitVec.ofInt n (x.toInt * y.toInt) := by
  rw [← mul_ofInt, BitVec.ofInt_toInt]

theorem setWidth_eq_ofInt (m : Nat) {n : Nat} (x : BitVec n) : x.setWidth m = BitVec.ofInt m x.toNat := by
  rw [BitVec.ofInt_natCast, BitVec.ofNat_toNat]

theorem ofNat_eq_narrow {m : Nat} {k : Int} (h : (m : Int) % 2 ^ 32 = k % 2 ^ 32) : BitVec.ofNat 32 m = narrow k := by
  apply BitVec.eq_of_toNat_eq
  rw [BitVec.toNat_ofNat, narrow, BitVec.toNat_ofInt]
  omega

theorem shiftLeft_eq_ofNat {n : Nat} (x : BitVec n) (k : Nat) : x <<< k = BitVec.ofNat n (x.toNat * 2 ^ k) := by
  apply BitVec.eq_of_toNat_eq
  rw [BitVec.toNat_shiftLeft, Nat.shiftLeft_eq, BitVec.toNat_ofNat]

theorem shlF_eq_shiftLeft {n : Nat} (x : BitVec n) (k : Word) : shlF x k = shiftLeft x k := by
  rw [shlF, shiftLeft, shiftLeft_eq_ofNat]

theorem shrF_eq_shiftRight {n : Nat} (x : BitVec n) (k : Word) : shrF x k = shiftRight x k := by
  unfold shrF shiftRight
  split
  · apply BitVec.eq_of_toNat_eq
    rw [BitVec.toNat_ushiftRight, Nat.shiftRight_eq_div_pow, BitVec.toNat_ofNat,
      Nat.mod_eq_of_lt (Nat.lt_of_le_of_lt (Nat.div_le_self ..) x.isLt)]
  · exact BitVec.ushiftRight_eq_zero (by omega)

/-- Past the width, dividing leaves the sign alone. -/
theorem sraF_eq_shiftArith {n : Nat} (x : BitVec n) (k : Word) : sraF x k = shiftArith x k := by
  unfold sraF shiftArith
  rw [BitVec.sshiftRight_eq, Int.shiftRight_eq_div_pow]
  push_cast
  split
  · rfl
  · rename_i hk
    have hpow : (2 : Int) ^ n ≤ 2 ^ k.toNat := by
      exact_mod_cast Nat.pow_le_pow_right (by decide) (Nat.not_lt.1 hk)
    have hlo : -2 ^ n ≤ 2 * x.toInt := BitVec.le_two_mul_toInt
    have hhi : 2 * x.toInt < 2 ^ n := BitVec.two_mul_toInt_lt
    split
    · rw [Int.ediv_eq_neg_one_of_neg_of_le (by assumption) (by omega)]
    · rw [Int.ediv_eq_zero_of_lt (by omega) (by omega)]
      rfl

theorem minF_eq_narrow (x y : Word) : minF x y = narrow (min x.toInt y.toInt) := by
  rw [minF, BitVec.slt_eq_decide, narrow]
  by_cases h : x.toInt < y.toInt
  · simp [h, Int.min_eq_left (Int.le_of_lt h)]
  · simp [h, Int.min_eq_right (Int.not_lt.1 h)]

theorem maxF_eq_narrow (x y : Word) : maxF x y = narrow (max x.toInt y.toInt) := by
  rw [maxF, BitVec.slt_eq_decide, narrow]
  by_cases h : x.toInt < y.toInt
  · simp [h, Int.max_eq_right (Int.le_of_lt h)]
  · simp [h, Int.max_eq_left (Int.not_lt.1 h)]

theorem minuF_eq_ofInt {n : Nat} (x y : BitVec n) : minuF x y = BitVec.ofInt n (min x.toNat y.toNat : Nat) := by
  rw [minuF, BitVec.ult_eq_decide]
  by_cases h : x.toNat < y.toNat
  · simp [h, Nat.min_eq_left (Nat.le_of_lt h)]
  · simp [h, Nat.min_eq_right (Nat.not_lt.1 h)]

theorem maxuF_eq_ofInt {n : Nat} (x y : BitVec n) : maxuF x y = BitVec.ofInt n (max x.toNat y.toNat : Nat) := by
  rw [maxuF, BitVec.ult_eq_decide]
  by_cases h : x.toNat < y.toNat
  · simp [h, Nat.max_eq_right (Nat.le_of_lt h)]
  · simp [h, Nat.max_eq_left (Nat.not_lt.1 h)]

theorem extractLsb'_high_ofInt (k : Int) : (BitVec.ofInt 64 k).extractLsb' 32 32 = narrow (k / 2 ^ 32) := by
  apply BitVec.eq_of_toNat_eq
  simp only [BitVec.extractLsb'_toNat, BitVec.toNat_ofInt, narrow, Nat.shiftRight_eq_div_pow]
  omega

theorem setWidth_mul_setWidth (x y : Word) : x.setWidth 64 * y.setWidth 64 = narrow64 (x.toNat * y.toNat : Nat) := by
  rw [narrow64, Nat.cast_mul, BitVec.ofInt_mul, setWidth_eq_ofInt, setWidth_eq_ofInt]

theorem mulhF_eq_narrow (x y : Word) : mulhF x y = narrow (x.toInt * y.toInt / 2 ^ 32) := by
  rw [← extractLsb'_high_ofInt, BitVec.ofInt_mul]
  rfl

theorem mulhuF_eq_narrow (x y : Word) : mulhuF x y = narrow ((x.toNat * y.toNat : Nat) / 2 ^ 32) := by
  rw [← extractLsb'_high_ofInt, mulhuF, setWidth_mul_setWidth, narrow64]

/-- Both forms of a row of Table 3-4 write the function of the row. -/
def RowHolds (e : (Ctl → Reg → Reg → Reg → Instr) × (Ctl → Reg → Reg → Reg → Instr) × (Word → Word → Word)) : Prop :=
  ∀ (c : Ctl) (d a b : Reg),
    WritesPerLane (e.1 c d a b) c (laneUse c.p [(a, 1), (b, 1)] [(d, 1)] [] [])
      (fun w _ l => ([(.g d l, e.2.2 (w.readG a l) (w.readG b l))], 0)) ∧
    WritesPerWave (e.2.1 c d a b) c [] [] [(a, 1), (b, 1)] [(d, 1)] [] []
      (fun w _ _ => [(.w d, e.2.2 (w.readW a) (w.readW b))])

theorem RowHolds.of_forms {lane wave : Ctl → Reg → Reg → Reg → Instr} {f g : Word → Word → Word}
    (e : ∀ x y, f x y = g x y) (hl : ∀ c d a b s, exec (lane c d a b) s = alu c d a b f s)
    (hw : ∀ c d a b s, exec (wave c d a b) s = walu c d a b f s) : RowHolds (lane, wave, g) :=
  fun c d a b => ⟨alu_writes (hl c d a b) e, walu_writes (hw c d a b) e⟩

theorem table34_rowHolds : ∀ e ∈ table34, RowHolds e := by
  simp only [table34, List.forall_mem_cons, List.not_mem_nil, false_imp_iff, implies_true, and_true]
  exact ⟨
    .of_forms add_eq_ofInt (fun _ _ _ _ _ => rfl) (fun _ _ _ _ _ => rfl),
    .of_forms sub_eq_ofInt (fun _ _ _ _ _ => rfl) (fun _ _ _ _ _ => rfl),
    .of_forms (fun _ _ => rfl) (fun _ _ _ _ _ => rfl) (fun _ _ _ _ _ => rfl),
    .of_forms (fun _ _ => rfl) (fun _ _ _ _ _ => rfl) (fun _ _ _ _ _ => rfl),
    .of_forms (fun _ _ => rfl) (fun _ _ _ _ _ => rfl) (fun _ _ _ _ _ => rfl),
    .of_forms (fun _ _ => rfl) (fun _ _ _ _ _ => rfl) (fun _ _ _ _ _ => rfl),
    .of_forms shlF_eq_shiftLeft (fun _ _ _ _ _ => rfl) (fun _ _ _ _ _ => rfl),
    .of_forms shrF_eq_shiftRight (fun _ _ _ _ _ => rfl) (fun _ _ _ _ _ => rfl),
    .of_forms sraF_eq_shiftArith (fun _ _ _ _ _ => rfl) (fun _ _ _ _ _ => rfl),
    .of_forms minF_eq_narrow (fun _ _ _ _ _ => rfl) (fun _ _ _ _ _ => rfl),
    .of_forms maxF_eq_narrow (fun _ _ _ _ _ => rfl) (fun _ _ _ _ _ => rfl),
    .of_forms minuF_eq_ofInt (fun _ _ _ _ _ => rfl) (fun _ _ _ _ _ => rfl),
    .of_forms maxuF_eq_ofInt (fun _ _ _ _ _ => rfl) (fun _ _ _ _ _ => rfl),
    .of_forms mul_eq_ofInt (fun _ _ _ _ _ => rfl) (fun _ _ _ _ _ => rfl),
    .of_forms mulhF_eq_narrow (fun _ _ _ _ _ => rfl) (fun _ _ _ _ _ => rfl),
    .of_forms mulhuF_eq_narrow (fun _ _ _ _ _ => rfl) (fun _ _ _ _ _ => rfl)⟩

theorem laneArithmetic : LaneArithmetic := fun e he c d a b => (table34_rowHolds e he c d a b).1

end Sys2Proof.Claims

/-! ## The bit functions (R67 to R69) -/

namespace Sys2Proof.Claims

open Sys2Proof.Machine

theorem div_pow_eq_zero_iff_bits (x : Word) (k : Nat) :
    x.toNat / 2 ^ (32 - k) = 0 ↔ ∀ i < k, i < 32 → x.getLsbD (31 - i) = false := by
  rw [Nat.div_eq_zero_iff_lt (Nat.two_pow_pos _)]
  constructor
  · intro h i hi _
    exact Nat.testBit_lt_two_pow (Nat.lt_of_lt_of_le h (Nat.pow_le_pow_right (by decide) (by omega)))
  · intro h
    apply Nat.lt_pow_two_of_testBit
    intro j hj
    by_cases h32 : j < 32
    · have hbit := h (31 - j) (by omega) (by omega)
      rwa [show 31 - (31 - j) = j by omega] at hbit
    · exact BitVec.getLsbD_of_ge x j (by omega)

theorem leadingZeros_eq_of_iff {x : Word} {z : Nat} (hz : z ≤ 32)
    (h : ∀ k ≤ 32, x.toNat / 2 ^ (32 - k) = 0 ↔ k ≤ z) : leadingZeros x = z := by
  have hcount : ((List.range 33).filter fun k => k ≠ 0 ∧ x.toNat / 2 ^ (32 - k) = 0) =
      (List.range 33).filter fun k => k ≠ 0 ∧ k ≤ z := by
    apply List.filter_congr
    intro k hk
    simp [h k (Nat.le_of_lt_succ (List.mem_range.1 hk))]
  rw [leadingZeros, hcount]
  interval_cases z <;> rfl

/-- The first bit from the top that is set ends the leading zeros. -/
theorem leadingZeros_eq_find (x : Word) :
    leadingZeros x = ((List.range 32).find? fun i => x.getLsbD (31 - i)).getD 32 := by
  cases hf : (List.range 32).find? fun i => x.getLsbD (31 - i) with
  | none =>
    simp only [List.find?_eq_none, List.mem_range, Bool.not_eq_true] at hf
    refine leadingZeros_eq_of_iff (Nat.le_refl 32) fun k hk => ?_
    rw [div_pow_eq_zero_iff_bits]
    exact iff_of_true (fun i _ => hf i) hk
  | some z =>
    obtain ⟨hbit, hz, hlow⟩ := List.find?_range_eq_some.1 hf
    rw [List.mem_range] at hz
    refine leadingZeros_eq_of_iff (Nat.le_of_lt hz) fun k _ => ?_
    rw [div_pow_eq_zero_iff_bits, Option.getD_some]
    constructor
    · intro h
      by_contra hk
      simp [h z (by omega) hz] at hbit
    · intro hk i hi _
      simpa using hlow i (by omega)

theorem clzF_eq_narrow (x : Word) : clzF x = narrow (leadingZeros x) := by
  rw [leadingZeros_eq_find, narrow, BitVec.ofInt_natCast]
  rfl

theorem bitSum_eq_sum (x : Word) (f : Nat → Nat) :
    bitSum x f = (((List.range 32).filter fun i => x.getLsbD i).map f).sum := by
  rw [bitSum, List.sum_eq_foldl, List.foldl_map, List.foldl_filter]

theorem popcF_eq_narrow (x : Word) : popcF x = narrow (bitSum x fun _ => 1) := by
  rw [popcF, narrow, BitVec.ofInt_natCast, bitSum_eq_sum, List.map_const', List.sum_replicate_nat, Nat.mul_one]

/-- The bits of a word, each with the weight of the bit opposite. -/
theorem toNat_reverse {n : Nat} (x : BitVec n) :
    x.reverse.toNat = (((List.range n).filter fun i => x.getLsbD i).map fun i => 2 ^ (n - 1 - i)).sum := by
  induction n with
  | zero => simp [BitVec.of_length_zero]
  | succ n ih =>
    have hbits : ((List.range n).filter fun i => (x.setWidth n).getLsbD i) =
        (List.range n).filter fun i => x.getLsbD i := by
      apply List.filter_congr
      intro i hi
      simp [List.mem_range.1 hi]
    have hpow : (((List.range n).filter fun i => x.getLsbD i).map fun i => 2 ^ (n + 1 - 1 - i)) =
        ((List.range n).filter fun i => x.getLsbD i).map fun i => 2 * 2 ^ (n - 1 - i) := by
      apply List.map_congr_left
      intro i hi
      have hlt := List.mem_range.1 (List.mem_of_mem_filter hi)
      rw [← Nat.pow_succ', show (n - 1 - i).succ = n + 1 - 1 - i by omega]
    rw [BitVec.reverse, BitVec.toNat_concat, ih, BitVec.truncate_eq_setWidth, hbits, List.range_succ,
      List.filter_append, List.map_append, List.sum_append, hpow, List.sum_map_mul_left, Nat.mul_comm,
      BitVec.msb_eq_getLsbD_last, Nat.add_sub_cancel]
    cases h : x.getLsbD n <;> simp only [List.filter_cons, List.filter_nil, h] <;> simp

theorem reverse_eq_narrow (x : Word) : x.reverse = narrow (bitSum x fun i => 2 ^ (31 - i)) := by
  rw [narrow, BitVec.ofInt_natCast, bitSum_eq_sum, ← toNat_reverse x, BitVec.ofNat_toNat, BitVec.setWidth_eq]

theorem bfPos_eq_fieldPos (y : Word) : bfPos y = fieldPos y := by
  simp only [bfPos, fieldPos, BitVec.extractLsb'_toNat, Nat.shiftRight_zero]

theorem bfWidth_eq_fieldWidth (y : Word) : bfWidth y = fieldWidth y := by
  simp only [bfWidth, fieldWidth, bfPos_eq_fieldPos, BitVec.extractLsb'_toNat, Nat.shiftRight_eq_div_pow]

theorem fieldWidth_le (y : Word) : fieldWidth y ≤ 32 := Nat.le_trans (Nat.min_le_left ..) (Nat.min_le_right ..)

theorem bfxuF_eq_narrow (x y : Word) : bfxuF x y = narrow (fieldOf x y) := by
  rw [bfxuF, narrow, BitVec.ofInt_natCast, bfPos_eq_fieldPos, bfWidth_eq_fieldWidth, ← fieldOf]

theorem div_pow_pred_eq_one_iff {v n : Nat} (hn : n ≠ 0) (hv : v < 2 ^ n) :
    v / 2 ^ (n - 1) = 1 ↔ 2 ^ (n - 1) ≤ v := by
  have hp : 2 ^ n = 2 * 2 ^ (n - 1) := by rw [← Nat.pow_succ', Nat.succ_eq_add_one, Nat.sub_add_cancel (by omega)]
  rw [Nat.div_eq_iff (Nat.two_pow_pos _)]
  omega

theorem bfxF_eq_fieldSigned (x y : Word) : bfxF x y = fieldSigned x y := by
  have hv : fieldOf x y < 2 ^ fieldWidth y := Nat.mod_lt _ (Nat.two_pow_pos _)
  unfold bfxF fieldSigned
  simp only [bfPos_eq_fieldPos, bfWidth_eq_fieldWidth]
  rw [← fieldOf]
  by_cases hw : fieldWidth y = 0
  · have h0 : fieldOf x y = 0 := by rw [hw] at hv; omega
    simp [hw, h0, narrow]
  · by_cases ht : 2 ^ (fieldWidth y - 1) ≤ fieldOf x y
    · have hle : 2 ^ fieldWidth y ≤ 2 ^ 32 := Nat.pow_le_pow_right (by decide) (fieldWidth_le y)
      have hcast : (2 : Int) ^ fieldWidth y = (2 ^ fieldWidth y : Nat) := by norm_cast
      simp only [(div_pow_pred_eq_one_iff hw hv).2 ht, hw, ht, beq_self_eq_true, beq_iff_eq, if_false, if_true,
        ne_eq, not_false_eq_true, and_self]
      rw [hcast]
      refine ofNat_eq_narrow ?_
      generalize 2 ^ fieldWidth y = e at hle
      omega
    · simp [hw, ht, div_pow_pred_eq_one_iff hw hv, narrow]

theorem bfiF_eq_fieldInsert (z x y : Word) : bfiF z x y = fieldInsert z x y := by
  simp only [bfiF, fieldInsert, fieldMask, bfPos_eq_fieldPos, bfWidth_eq_fieldWidth, shiftLeft_eq_ofNat]

theorem absd_eq_narrow (x y : Word) : (if x.slt y then y - x else x - y) = narrow (x.toInt - y.toInt).natAbs := by
  rw [BitVec.slt_eq_decide, narrow]
  by_cases h : x.toInt < y.toInt
  · rw [show ((x.toInt - y.toInt).natAbs : Int) = y.toInt - x.toInt by omega, ← sub_eq_ofInt]
    simp [h]
  · rw [show ((x.toInt - y.toInt).natAbs : Int) = x.toInt - y.toInt by omega, ← sub_eq_ofInt]
    simp [h]

theorem bitFields : BitFields := fun _ _ _ _ =>
  ⟨alu1_writes (fun _ => rfl) clzF_eq_narrow,
    alu1_writes (fun _ => rfl) popcF_eq_narrow,
    alu1_writes (fun _ => rfl) reverse_eq_narrow,
    alu_writes (fun _ => rfl) bfxF_eq_fieldSigned,
    alu_writes (fun _ => rfl) bfxuF_eq_narrow,
    (laneG_writes fun _ => rfl).congr fun _ _ _ => by rw [bfiF_eq_fieldInsert],
    alu_writes (fun _ => rfl) absd_eq_narrow⟩

end Sys2Proof.Claims

/-! ## The immediate forms (R73, R74) -/

namespace Sys2Proof.Claims

open Sys2Proof.Machine

theorem add_signExtend (x : Word) (imm : BitVec 10) : x + imm.signExtend 32 = narrow (x.toInt + imm.toInt) :=
  add_ofInt x imm.toInt

theorem mul_signExtend (x : Word) (imm : BitVec 10) : x * imm.signExtend 32 = narrow (x.toInt * imm.toInt) :=
  mul_ofInt x imm.toInt

theorem and_signExtend (x : Word) (imm : BitVec 10) : x &&& imm.signExtend 32 = x &&& narrow imm.toInt := rfl

theorem or_setWidth (x : Word) (imm : BitVec 10) : x ||| imm.setWidth 32 = x ||| narrow imm.toNat := by
  rw [narrow, setWidth_eq_ofInt]

theorem xor_setWidth (x : Word) (imm : BitVec 10) : x ^^^ imm.setWidth 32 = x ^^^ narrow imm.toNat := by
  rw [narrow, setWidth_eq_ofInt]

theorem toNat_setWidth_amount (n : BitVec 5) : (n.setWidth 32).toNat = n.toNat :=
  BitVec.toNat_setWidth_of_le (by decide)

theorem shiftLeft_amount (x : Word) (n : BitVec 5) : x <<< n.toNat = shiftLeft x (n.setWidth 32) := by
  rw [← shlF_eq_shiftLeft, shlF, toNat_setWidth_amount, if_pos n.isLt]

theorem shiftRight_amount (x : Word) (n : BitVec 5) : x >>> n.toNat = shiftRight x (n.setWidth 32) := by
  rw [← shrF_eq_shiftRight, shrF, toNat_setWidth_amount]

theorem sshiftRight_amount (x : Word) (n : BitVec 5) : x.sshiftRight n.toNat = shiftArith x (n.setWidth 32) := by
  rw [← sraF_eq_shiftArith, sraF, toNat_setWidth_amount]

/-- The two parts of a rotated word have no bit in common, so that they join by a sum. -/
theorem rotateLeft_eq_rotate (x : Word) {n : Nat} (hn : n < 32) : x.rotateLeft n = rotate x n := by
  have hlow : x.toNat / 2 ^ (32 - n) < 2 ^ n := by
    rw [Nat.div_lt_iff_lt_mul (Nat.two_pow_pos _), ← Nat.pow_add, Nat.add_sub_cancel' (Nat.le_of_lt hn)]
    exact x.isLt
  rw [BitVec.rotateLeft_eq_rotateLeftAux_of_lt hn, BitVec.rotateLeftAux, rotate, Nat.mul_comm,
    Nat.two_pow_add_eq_or_of_lt hlow]
  apply BitVec.eq_of_toNat_eq
  rw [BitVec.toNat_or, BitVec.toNat_shiftLeft, BitVec.toNat_ushiftRight, BitVec.toNat_ofNat, Nat.or_mod_two_pow,
    Nat.shiftLeft_eq, Nat.shiftRight_eq_div_pow, Nat.mul_comm,
    Nat.mod_eq_of_lt (Nat.lt_of_le_of_lt (Nat.div_le_self ..) x.isLt)]

theorem append_low_half_eq_narrow (imm : BitVec 16) (x : Word) :
    (imm ++ x.extractLsb' 0 16 : Word) = narrow (imm.toNat * 2 ^ 16 + x.toNat % 2 ^ 16 : Nat) := by
  have hlow : x.toNat % 2 ^ 16 < 2 ^ 16 := Nat.mod_lt _ (by decide)
  have himm := imm.isLt
  apply BitVec.eq_of_toNat_eq
  rw [BitVec.toNat_append, BitVec.extractLsb'_toNat, Nat.shiftRight_zero, ← Nat.shiftLeft_add_eq_or_of_lt hlow,
    Nat.shiftLeft_eq, narrow, BitVec.ofInt_natCast, BitVec.toNat_ofNat]
  omega

/-- An instruction of one g source writes a function of it. -/
def ImmediateHolds (c : Ctl) (d a : Reg) (e : Instr × (Word → Word)) : Prop :=
  WritesPerLane e.1 c (laneUse c.p [(a, 1)] [(d, 1)] [] []) fun w _ l => ([(.g d l, e.2 (w.readG a l))], 0)

theorem ImmediateHolds.of_form {c : Ctl} {d a : Reg} {i : Instr} {f g : Word → Word} (e : ∀ x, f x = g x)
    (hi : ∀ s, exec i s = alu1 c d a f s) : ImmediateHolds c d a (i, g) := alu1_writes hi e

theorem immediates : Immediates := by
  refine ⟨fun c d a imm e he => show ImmediateHolds c d a e from ?_,
    fun c d a n e he => show ImmediateHolds c d a e from ?_,
    fun c d imm => ⟨laneG_writes fun _ => rfl, (laneG_writes fun _ => rfl).congr fun w _ l => ?_⟩⟩
  · simp only [List.mem_cons, List.not_mem_nil, or_false] at he
    rcases he with rfl | rfl | rfl | rfl | rfl
    · exact .of_form (add_signExtend · imm) fun _ => rfl
    · exact .of_form (and_signExtend · imm) fun _ => rfl
    · exact .of_form (or_setWidth · imm) fun _ => rfl
    · exact .of_form (xor_setWidth · imm) fun _ => rfl
    · exact .of_form (mul_signExtend · imm) fun _ => rfl
  · simp only [List.mem_cons, List.not_mem_nil, or_false] at he
    rcases he with rfl | rfl | rfl | rfl
    · exact .of_form (shiftLeft_amount · n) fun _ => rfl
    · exact .of_form (shiftRight_amount · n) fun _ => rfl
    · exact .of_form (sshiftRight_amount · n) fun _ => rfl
    · exact .of_form (rotateLeft_eq_rotate · n.isLt) fun _ => rfl
  · rw [append_low_half_eq_narrow]

/-- Settles O43, from the shared lane forms and one equation for each function. -/
theorem integerArithmetic : Obligations.IntegerArithmetic := ⟨laneArithmetic, immediates, bitFields⟩

end Sys2Proof.Claims

/-! ## The w registers (R78 to R80) -/

namespace Sys2Proof.Machine

/-- What results of an instruction that acts once per wave must be: registers, each once, none a bound stream, and
predicates 0 or 1. -/
structure WaveRes (w : Wave) (rs : List (Dst × Word)) : Prop where
  reg : ∀ x ∈ rs, x.1.isReg = true ∧ x.1.norm x.2 = x.2
  nodup : (rs.map fun x => x.1).Nodup
  plain : w.Unstreamed rs

/-- A function of waves that is A-class, with the conditions on its results. -/
theorem waveResult_writes {i : Instr} {c : Ctl} {srcs dsts wsrcs wdsts : List (Reg × Nat)} {ps pds : List (BitVec 3)}
    {f : Wave → Nat → Lanes → List (Dst × Word)}
    (hi : ∀ s, exec i s = waveResult s c.s c.p srcs dsts wsrcs wdsts ps pds f)
    (hr : ∀ w l m, Clear w (waveUse w c.p srcs dsts wsrcs wdsts ps pds) → WaveRes w (f w l m)) :
    WritesPerWave i c srcs dsts wsrcs wdsts ps pds f := by
  intro s w p hp hu
  rw [hi]
  refine waveResult_spec hp hu f fun l _ => ?_
  obtain ⟨hreg, hnodup, hplain⟩ := hr w l (w.lanesOfPath p) hu
  exact ⟨hplain, hreg, hnodup⟩

/-- The shape of an instruction depends on the values of its results alone. -/
theorem WritesPerWave.congr {i : Instr} {c : Ctl} {srcs dsts wsrcs wdsts : List (Reg × Nat)}
    {ps pds : List (BitVec 3)} {f g : Wave → Nat → Lanes → List (Dst × Word)}
    (h : WritesPerWave i c srcs dsts wsrcs wdsts ps pds f) (e : ∀ w l m, f w l m = g w l m) :
    WritesPerWave i c srcs dsts wsrcs wdsts ps pds g :=
  (funext fun w => funext fun l => funext fun m => e w l m : f = g) ▸ h

theorem WaveRes.w1 (w : Wave) (d : Reg) (v : Word) : WaveRes w [(.w d, v)] where
  reg x hx := by rw [List.mem_singleton.1 hx]; exact ⟨rfl, rfl⟩
  nodup := by simp
  plain x hx r k e := by rw [List.mem_singleton.1 hx] at e; cases e

/-- One value in every lane of a mask. -/
theorem WaveRes.of_lanes {w : Wave} {m : Lanes} {d : Nat → Dst} {v : Word} (hreg : ∀ l < 32, (d l).isReg = true)
    (hnorm : ∀ l, (d l).norm v = v) (hinj : Function.Injective d)
    (hplain : ∀ l r k, d l = .g r k → ∀ e ∈ w.streams, r.toNat ≠ 60 + e.1) :
    WaveRes w ((lanesOf m).map fun l => (d l, v)) where
  reg x hx := by
    obtain ⟨l, hl, rfl⟩ := List.mem_map.1 hx
    exact ⟨hreg l (BitVec.lt_of_getLsbD (mem_lanesOf.1 hl)), hnorm l⟩
  nodup := by
    rw [List.map_map]
    exact (lanesOf_nodup m).map hinj
  plain x hx := by
    obtain ⟨l, -, rfl⟩ := List.mem_map.1 hx
    exact hplain l

theorem WaveRes.g_lanes {w : Wave} {d : Reg} (hd : ∀ e ∈ w.streams, d.toNat ≠ 60 + e.1) (m : Lanes) (v : Word) :
    WaveRes w ((lanesOf m).map fun l => (.g d l, v)) :=
  .of_lanes (fun l hl => by simpa [Dst.isReg] using hl) (fun _ => rfl) (fun _ _ h => (Dst.g.inj h).2)
    fun _ _ _ h => (Dst.g.inj h).1 ▸ hd

theorem WaveRes.p_lanes (w : Wave) (pd : BitVec 3) (m : Lanes) (b : Bool) :
    WaveRes w ((lanesOf m).map fun l => (.p pd l, if b then 1 else 0)) :=
  .of_lanes (fun l hl => by simpa [Dst.isReg] using hl) (fun _ => by cases b <;> rfl) (fun _ _ h => (Dst.p.inj h).2)
    fun _ _ _ h => by cases h

/-- An instruction that writes one w register. -/
theorem waveW_writes {i : Instr} {c : Ctl} {d : Reg} {srcs wsrcs : List (Reg × Nat)} {f : Wave → Nat → Word}
    (hi : ∀ s, exec i s = waveResult s c.s c.p srcs [] wsrcs [(d, 1)] [] [] fun w l _ => [(.w d, f w l)]) :
    WritesPerWave i c srcs [] wsrcs [(d, 1)] [] [] fun w l _ => [(.w d, f w l)] :=
  waveResult_writes hi fun w _ _ _ => .w1 w d _

end Sys2Proof.Machine

namespace Sys2Proof.Claims

open Sys2Proof.Machine

theorem wcond_eq_uniformHolds (k : WCond) (x y : Word) : wcond k x y = uniformHolds k x y := by
  cases k with
  | ne => exact (decide_not (p := x = y)).symm
  | _ => rfl

theorem uniformArithmetic : UniformArithmetic :=
  ⟨fun e he c d a b => (table34_rowHolds e he c d a b).2,
    fun _ _ _ _ => (waveW_writes fun _ => rfl).congr fun w _ _ => by rw [narrow, ← add_ofInt]; rfl,
    fun _ _ _ => waveW_writes fun _ => rfl⟩

theorem uniformExchange : UniformExchange :=
  ⟨fun _ _ _ => waveW_writes fun _ => rfl,
    fun _ _ _ => waveResult_writes (fun _ => rfl) fun _ _ m hu => .g_lanes (hu.dst1 (List.mem_singleton.2 rfl)) m _,
    fun _ pd _ _ _ => (waveResult_writes (fun _ => rfl) fun w _ m _ => .p_lanes w pd m _).congr
      fun _ _ _ => by rw [wcond_eq_uniformHolds]⟩

/-- Settles O44, from the shared form of instructions that act once per wave. -/
theorem uniformOperations : Obligations.UniformOperations := ⟨uniformArithmetic, uniformExchange⟩

end Sys2Proof.Claims

/-! ## Pairs, and the carry chains (R70 to R72) -/

namespace Sys2Proof.Machine

/-- The result of a lane in a g register and a predicate. -/
theorem LaneRes.g_p {w : Wave} {l : Nat} (hl : l < 32) {d : Reg} (hd : ∀ e ∈ w.streams, d.toNat ≠ 60 + e.1) (v : Word)
    (pd : BitVec 3) (b : Bool) : LaneRes w l [(.g d l, v), (.p pd l, if b then 1 else 0)] := by
  obtain ⟨greg, -, gplain⟩ := LaneRes.g1 hl hd v
  obtain ⟨preg, -, pplain⟩ := LaneRes.p1 (w := w) hl pd b
  exact ⟨List.forall_mem_cons.2 ⟨greg _ (List.mem_singleton.2 rfl), preg⟩, by simp,
    List.forall_mem_cons.2 ⟨gplain _ (List.mem_singleton.2 rfl), pplain⟩⟩

/-- A function of two pairs. -/
theorem alu64_writes {i : Instr} {c : Ctl} {d a b : Reg} {f g : DWord → DWord → DWord}
    (hi : ∀ s, exec i s = alu64 c d a b f s) (e : ∀ x y, f x y = g x y) :
    WritesPerLane i c (laneUse c.p [(a, 2), (b, 2)] [(d, 2)] [] [])
      fun w _ l => (pairOf d l (g (w.readG2 a l) (w.readG2 b l)), 0) :=
  (laneG2_writes hi).congr fun w _ l => by rw [e]

/-- A function of a pair and a register. -/
theorem shift64_writes {i : Instr} {c : Ctl} {d a b : Reg} {f g : DWord → Word → DWord}
    (hi : ∀ s, exec i s = shift64 c d a b f s) (e : ∀ x y, f x y = g x y) :
    WritesPerLane i c (laneUse c.p [(a, 2), (b, 1)] [(d, 2)] [] [])
      fun w _ l => (pairOf d l (g (w.readG2 a l) (w.readG b l)), 0) :=
  (laneG2_writes hi).congr fun w _ l => by rw [e]

/-- A carry chain. -/
theorem chain_writes {i : Instr} {c : Ctl} {d a b : Reg} {f : Word → Word → Bool → Word × Bool}
    (hi : ∀ s, exec i s = chain c d a b f s) :
    WritesPerLane i c (laneUse c.p [(a, 1), (b, 1)] [(d, 1)] [6] [6]) fun w _ l =>
      ([(.g d l, (f (w.readG a l) (w.readG b l) (w.readP 6 l)).1),
        (.p 6 l, if (f (w.readG a l) (w.readG b l) (w.readP 6 l)).2 then 1 else 0)], 0) :=
  laneOp_writes hi fun _ _ _ hu hl => LaneRes.g_p hl (hu.dst1 (List.mem_singleton.2 rfl)) _ _ _

end Sys2Proof.Machine

namespace Sys2Proof.Claims

open Sys2Proof.Machine

theorem add_scaled_eq_narrow64 (x : DWord) (y : Word) (k : Nat) :
    x + (y.signExtend 64 <<< k) = narrow64 (x.toNat + y.toInt * 2 ^ k) := by
  have hk : BitVec.ofInt 64 (2 ^ k) = BitVec.twoPow 64 k := by
    apply BitVec.eq_of_toNat_eq
    rw [BitVec.toNat_twoPow, ← BitVec.toNat_ofNat, ← BitVec.ofInt_natCast]
    norm_cast
  rw [narrow64, BitVec.ofInt_add, BitVec.ofInt_natCast, BitVec.ofNat_toNat, BitVec.setWidth_eq, BitVec.ofInt_mul, hk,
    BitVec.shiftLeft_eq_mul_twoPow]
  rfl

/-- LEA by a scale that is a power of two. -/
theorem leaOp_writes {i : Instr} {c : Ctl} {d a b : Reg} {k : Nat} {n : Int} (hi : ∀ s, exec i s = leaOp k c d a b s)
    (hn : 2 ^ k = n) :
    WritesPerLane i c (laneUse c.p [(a, 2), (b, 1)] [(d, 2)] [] [])
      fun w _ l => (pairOf d l (narrow64 ((w.readG2 a l).toNat + (w.readG b l).toInt * n)), 0) :=
  (laneG2_writes hi).congr fun w _ l => by rw [add_scaled_eq_narrow64, hn]

theorem pairArithmetic : PairArithmetic := by
  refine ⟨fun c d a b e he => ?_, fun c d a b e he => ?_, fun c d a b e he => ?_, fun c d a b => ?_⟩
  · simp only [List.mem_cons, List.not_mem_nil, or_false] at he
    rcases he with rfl | rfl | rfl | rfl
    · exact leaOp_writes (k := 0) (fun _ => rfl) rfl
    · exact leaOp_writes (k := 1) (fun _ => rfl) rfl
    · exact leaOp_writes (k := 2) (fun _ => rfl) rfl
    · exact leaOp_writes (k := 3) (fun _ => rfl) rfl
  · simp only [List.mem_cons, List.not_mem_nil, or_false] at he
    rcases he with rfl | rfl | rfl | rfl
    · exact alu64_writes (fun _ => rfl) add_eq_ofInt
    · exact alu64_writes (fun _ => rfl) sub_eq_ofInt
    · exact alu64_writes (fun _ => rfl) minuF_eq_ofInt
    · exact alu64_writes (fun _ => rfl) maxuF_eq_ofInt
  · simp only [List.mem_cons, List.not_mem_nil, or_false] at he
    rcases he with rfl | rfl | rfl
    · exact shift64_writes (fun _ => rfl) shlF_eq_shiftLeft
    · exact shift64_writes (fun _ => rfl) shrF_eq_shiftRight
    · exact shift64_writes (fun _ => rfl) sraF_eq_shiftArith
  · exact (laneG2_writes fun _ => rfl).congr fun w _ l => by rw [setWidth_mul_setWidth]

theorem addCarry_eq (x y : Word) (p : Bool) :
    addCarry x y p = (narrow (x.toNat + y.toNat + (if p then 1 else 0) : Nat),
      decide (2 ^ 32 ≤ x.toNat + y.toNat + (if p then 1 else 0))) := by
  refine Prod.ext ?_ ?_
  · rw [narrow, BitVec.ofInt_natCast]
    rfl
  · rw [Bool.eq_iff_iff, decide_eq_true_iff]
    exact iff_of_eq Nat.ble_eq

theorem subBorrow_eq (x y : Word) (p : Bool) :
    subBorrow x y p = (narrow (x.toNat - y.toNat - (if p then 1 else 0)),
      decide ((x.toNat - y.toNat - (if p then 1 else 0) : Int) < 0)) := by
  have hx := x.isLt
  have hy := y.isLt
  have hcast : ((if p then 1 else 0 : Nat) : Int) = if p then 1 else 0 := by cases p <;> rfl
  have hle : (if p then 1 else 0 : Nat) ≤ 1 := by cases p <;> decide
  rw [← hcast, subBorrow]
  generalize (if p then 1 else 0 : Nat) = k at hle
  refine Prod.ext (ofNat_eq_narrow ?_) ?_
  · omega
  · rw [Bool.eq_iff_iff, Nat.blt_eq, decide_eq_true_iff]
    omega

theorem carryChains : CarryChains := fun _ _ _ _ =>
  ⟨(chain_writes fun _ => rfl).congr fun w _ l => by simp only [addCarry_eq, decide_eq_true_eq],
    (chain_writes fun _ => rfl).congr fun w _ l => by simp only [subBorrow_eq, decide_eq_true_eq]⟩

/-- Settles O45, from the shared lane forms, with the carry as a number. -/
theorem wideArithmetic : Obligations.WideArithmetic := ⟨pairArithmetic, carryChains⟩

end Sys2Proof.Claims

/-! ## Compares, predicates and selection (R75 to R77) -/

namespace Sys2Proof.Claims

open Sys2Proof.Machine

theorem icond_eq_holds (k : ICond) (x y : Word) : icond k x y = holds k x y := by
  cases k with
  | ne => exact (decide_not (p := x = y)).symm
  | _ => rfl

theorem combine_eq_combined (m : Cmb) (old x : Bool) : (if combine m old x then 1 else 0) = combined m old x := by
  cases m <;> rfl

theorem cmbReads_eq_combineReads (m : Cmb) (pd : BitVec 3) : cmbReads m pd = combineReads m pd := by
  cases m <;> rfl

/-- A compare: it writes the combine of the old predicate with a condition. -/
theorem compare_writes {i : Instr} {c : Ctl} {pd : BitVec 3} {srcs : List (Reg × Nat)} {m : Cmb}
    {f g : Wave → Nat → Bool}
    (hi : ∀ s, exec i s = laneP c pd srcs (cmbReads m pd) (fun w l => combine m (w.readP pd l) (f w l)) s)
    (e : ∀ w l, f w l = g w l) :
    WritesPerLane i c (laneUse c.p srcs [] (combineReads m pd) [pd])
      fun w _ l => ([(.p pd l, combined m (w.readP pd l) (g w l))], 0) := by
  rw [← cmbReads_eq_combineReads]
  exact (laneP_writes hi).congr fun w _ l => by rw [combine_eq_combined, e]

theorem integerCompares : IntegerCompares := fun _ _ k _ _ =>
  ⟨fun _ => compare_writes (fun _ => rfl) fun _ _ => icond_eq_holds k _ _,
    fun _ => compare_writes (fun _ => rfl) fun _ _ => icond_eq_holds k _ _⟩

theorem predicatesAndSelect : PredicatesAndSelect := by
  refine ⟨fun c pd pa pb e he => ?_, fun c pd pa => ?_, fun c d pa => ?_, fun c pd a => ?_, fun sw ps d a b => ?_⟩
  · simp only [List.mem_cons, List.not_mem_nil, or_false] at he
    rcases he with rfl | rfl | rfl
    · exact laneP_writes fun _ => rfl
    · exact laneP_writes fun _ => rfl
    · exact laneP_writes fun _ => rfl
  · refine (laneP_writes fun _ => rfl).congr fun w _ l => ?_
    cases w.readP pa l <;> rfl
  · exact laneOp_writes (fun _ => rfl) fun _ _ _ hu hl => LaneRes.g1 hl (hu.dst1 (List.mem_singleton.2 rfl)) _
  · refine (laneP_writes fun _ => rfl).congr fun w _ l => ?_
    by_cases h : w.readG a l = 0 <;> simp [h]
  · exact laneOp_writes (fun _ => rfl) fun _ _ _ hu hl => LaneRes.g1 hl (hu.dst1 (List.mem_singleton.2 rfl)) _

/-- Settles O46, from the shared form of a lane that writes a predicate. -/
theorem comparesAndPredicates : Obligations.ComparesAndPredicates := ⟨integerCompares, predicatesAndSelect⟩

end Sys2Proof.Claims

/-! # The traversal stack (R359, R375)

`EngineMay` asks byte by byte whether a watched range lies where a thread is to write, and no byte meets a range of no
bytes; the write of a whole entry meets one that begins inside it (`overlaps`), and invalidates the slots bound to it. -/

namespace Sys2Proof.Claims

open Sys2Proof.Machine

/-- No single byte meets a range of no bytes. -/
theorem overlaps_byte_empty (a b : Nat) : overlaps a 1 b 0 = false := by
  rw [overlaps, Bool.and_eq_false_iff, ← Bool.not_eq_true, ← Bool.not_eq_true, Nat.blt_eq, Nat.blt_eq]
  omega

/-- A thread that keeps eight entries: its next push spills one to byte 128 of its extension, at 0x2180. -/
def fullThread : Thread where
  num := 0
  kind := .record
  core := 0
  asid := 1
  gslot := 0
  lid := 0
  cmd := 0
  rva := 0x2000
  t := []
  pc := 0
  words := []
  stack := List.replicate 8 0
  payload := 0
  tag := 0
  cq := 0
  ext := 0x100
  dtab := 0
  prog := 0

/-- The page of the extension, mapped to itself. -/
def extensionPage : TlbE where
  r := true
  w := true
  x := false
  a := true
  d := true
  g := false
  mig := false
  watch := false
  lock := false
  size := 0
  cache := 0
  asid := 1
  vpn := 2
  pfn := 2

/-- A slot of layer 1 that is bound to a range of no bytes inside the eight bytes at 0x2180. -/
def emptyWatch : DSlot := { layer := 1, ranges := [(0x2184, 0)] }

/-- The reuse area of the context, where its slot records stand, is at 0x9000. -/
def emptyWatchState : State := { State.reset with
  selCore := 0
  selSlot := 0
  cores := [(0, { ({} : Core) with trp := { ({} : Trp) with threads := [fullThread] } })]
  clusters := [(0, { ({} : Cluster) with tlb := [extensionPage] })]
  ctxs := [{ asid := 1, slot := 0, save := 0, sstride := 0, reuse := 0x9000 }]
  slots := [(256, emptyWatch)] }

/-- Where the bytes of the entry that is spilled go. -/
def spillPlace (i : Nat) : Nat := 0x2180 + i

theorem fullThread_underWay : ThreadIs emptyWatchState fullThread := by
  rw [ThreadIs]
  decide +kernel

theorem unwatched_byte (a : Nat) : Unwatched emptyWatchState a 1 := by
  refine ⟨fun e he r hr => ?_, fun c hc o ho => ?_⟩
  · obtain rfl := List.mem_singleton.1 he
    obtain rfl := List.mem_singleton.1 hr
    exact overlaps_byte_empty a 0x2184
  · obtain rfl := List.mem_singleton.1 hc
    cases ho

theorem spillPlace_reached : ∀ i < 8, inDev (spillPlace i) = true ∧
    EngineReaches emptyWatchState 0 1 { w := true } (0x2180 + BitVec.ofNat 64 i) (spillPlace i) 0 := by
  simp only [EngineReaches]
  decide +kernel

/-- The spill of the entry is one that the statement speaks of. -/
theorem spill_may : EngineMay emptyWatchState 0 1 0x2180 8 spillPlace := fun i hi =>
  have ⟨hdev, hreach⟩ := spillPlace_reached i hi
  ⟨hdev, unwatched_byte _, 0, hreach⟩

theorem written_apart {m : Nat → Byte} {pa : Nat → Nat} {bs : List Byte} {a : Nat} (h : ∀ i < bs.length, pa i ≠ a) :
    written m pa bs a = m a := by
  rw [written]
  refine List.foldlRecOn (motive := fun v => v = m a) _ _ rfl fun v hv i hi => ?_
  rw [if_neg (h i (List.mem_range.1 hi)), hv]

/-- The record of the slot that the push invalidates is written to the reuse area: its layer is there. -/
theorem push_writes_slot_record :
    bytesIn (emptyWatchState.pushAll fullThread [fullThread.read2 0]) 0x9000 = 1 := by
  decide +kernel

theorem exec_tpush_fullThread : exec (.tpush 0) emptyWatchState =
    .next (emptyWatchState.pushAll fullThread [fullThread.read2 0]) := rfl

/-- Refutes O27: a push that spills writes eight bytes, and where a watched range of no bytes begins inside them, its slot is
invalidated, so that memory changes at the slot's record too. No hypothesis excludes such a range, though steps register
only whole pages. -/
theorem not_traversalStack : ¬ Obligations.TraversalStack := by
  rintro ⟨hpush, -⟩
  have hspill := hpush 0 emptyWatchState fullThread fullThread_underWay
  rw [Pushes, if_neg (by decide)] at hspill
  obtain ⟨u, -, -, hbytes, hnext⟩ := hspill spillPlace spill_may rfl
  rw [if_pos (by decide), exec_tpush_fullThread] at hnext
  obtain rfl := Host.Outcome.next.inj hnext.1
  have hkept := congrFun hbytes 0x9000
  rw [push_writes_slot_record, written_apart (by decide)] at hkept
  exact absurd hkept (by decide)

end Sys2Proof.Claims
